-- ==== Sys2Proof/Word.lean ====
section
/-! DEFINITION. The word types: bytes, and the sparse tables that hold like things by number. -/

namespace Sys2Proof

/-- One byte (R5). -/
abbrev Byte := BitVec 8

/-- Like things by number, in one canonical form: keys strictly rising, and no entry equal to what an unlisted key
reads as (the operations and the form itself stand in Machine/Arith.lean). -/
abbrev Tab (α : Type) := List (Nat × α)

end Sys2Proof
end

