-- ==== Sys2Proof/Syntax.lean ====
section
/-! DEFINITION. The commands of the block: one constructor of `Instr` per row of spec/opcode_table.json, with the
row's operands; the payload records of the tap commands (11_commands.md R292, R305); and the pattern instructions of a
slice sequencer as they stand in its program store (04_sequencer.md R89 to R92). -/

namespace Sys2Proof

/-- A time pair as a command carries it (R28): S seconds and the whole 64-bit F field. -/
structure TPair where
  s : Nat
  f : Nat
deriving DecidableEq, Repr

/-- A period record I + N/D fs (R35). -/
structure Per where
  i : Nat
  n : Nat
  d : Nat
deriving DecidableEq, Repr

/-- A data reference (R271). `rsv`: a reserved bit of DFLAGS or byte 13 to 15 is non-zero. -/
structure DRef where
  addr : Nat
  len : Nat
  inl : Bool
  rsv : Bool
deriving DecidableEq, Repr

/-- The header of a tap command as the Maltster dispatches it (R268 to R270): the tap it came by, SEQ, TARGET, the flags
LIVE and ASYNC, whether a reserved field of the payload is non-zero (R6), the inline data of a tap frame (R283), and the
grid time t_d of its dispatch in fs. -/
structure Hdr where
  tap : Nat
  seq : Nat
  target : Nat
  live : Bool
  async : Bool
  rsv : Bool
  inl : List Byte
  t : Nat
deriving DecidableEq, Repr

/-- ASSIGN (R292, 0x0004). -/
structure AssignP where
  op : Nat
  rtype : Nat
  weight : Nat
  index : Nat
  count : Nat
deriving DecidableEq, Repr

/-- CAL_RUN (R292, 0x000C). -/
structure CalRunP where
  mode : Nat
  n : Nat
  calint : Nat
  pref : Per
  t0 : TPair
  data : DRef
deriving DecidableEq, Repr

/-- SEG_MAP (R305, 0x0103). -/
structure SegMapP where
  segid : Nat
  mode : Nat
  peridx : Nat
  trig : Nat
  length : Nat
  ringgran : Nat
  data : DRef
deriving DecidableEq, Repr

/-- SITE_DEFINE (R305, 0x0104). -/
structure SiteDefP where
  blimit : Nat
  fmcap : Nat
  matchDelay : Nat
  tpe : Nat
  data : DRef
deriving DecidableEq, Repr

/-- START (R305, 0x0106). -/
structure StartP where
  t : TPair
  dmask : Nat
  cmgrp : Nat
  syncgrp : Nat
  idleFill : Bool
deriving DecidableEq, Repr

/-- SNAPSHOT (R305, 0x0109). -/
structure SnapP where
  when_ : Nat
  sect : Nat
  vnum : Nat
  time : TPair
  cmask : Nat
  data : DRef
deriving DecidableEq, Repr

/-- The configuration record of an acquisition engine (R188). -/
structure AcqCfg where
  acq : Nat
  ttype : Nat
  tsel : Nat
  flags : Nat
  srcA : Nat
  srcB : Nat
  tlim1 : Nat
  tlim2 : Nat
  pre : Nat
  post : Nat
  holdoff : Nat
  recint : Nat
  measmask : Nat
  avgk : Nat
  evtmax : Nat
  ringaddr : Nat
  ringslots : Nat
deriving DecidableEq, Repr

/-- ACQ_ARM (R305, 0x010C). -/
structure AcqArmP where
  acq : Nat
  disarm : Bool
  lsearch : Bool
  level : Nat
  script : Nat
  nrec : Nat
  codeLo : Nat
  codeHi : Nat
deriving DecidableEq, Repr

/-- STAGE (R305, 0x0111). -/
structure StageP where
  group : Nat
  kind : Nat
  fin : Bool
  discard : Bool
  epoch : Nat
  index : Nat
  data : DRef
deriving DecidableEq, Repr

/-- COMMIT (R305, 0x0112). -/
structure CommitP where
  group : Nat
  bmask : Nat
  epoch : Nat
  dmask : Nat
  t : TPair
deriving DecidableEq, Repr

/-- CLOCK_OUT (R305, 0x0113). -/
structure ClkP where
  output : Nat
  format : Nat
  action : Nat
  freq : Nat
  time : TPair
deriving DecidableEq, Repr

/-- The source of a tap frame (R283): Ethernet port, source address and source UDP port. -/
structure NetSrc where
  port : Nat
  addr : Nat
  udp : Nat
deriving DecidableEq, Repr

/-- Where a tap frame comes from, and the UDP port that it is sent to (R283). -/
structure NetVia where
  src : NetSrc
  dport : Nat
deriving DecidableEq, Repr

/-- The condition byte of JMP, CALL, RET and HALT (R91): INV and COND. -/
structure Cond where
  inv : Bool
  cond : Nat
deriving DecidableEq, Repr

/-- A pattern instruction of the program store with its operands (R90). -/
inductive PInstr where
  | nop
  | vec (seg count : Nat)
  | rpt (count : Nat)
  | loop (count : Nat)
  | endl
  | call (c : Cond) (target : Nat)
  | ret (c : Cond)
  | jmp (c : Cond) (target : Nat)
  | mtch (seg timeout group : Nat)
  | tset (set : Nat)
  | per (idx : Nat)
  | waitt (abs : Bool) (time : Nat)
  | sync (timeout rdv : Nat)
  | trig (outs : Nat)
  | mark (code : Nat)
  | flag (setm clrm : Nat)
  | sitemask (entry : Nat)
  | peact (settle script : Nat)
  | halt (c : Cond)
deriving DecidableEq, Repr

/-- What one channel's comparators showed at a strobe or window (R133, R151): the channel in the slice, CMH and CML at the strobe or at
the window's open, and CMH and CML after each transition that the detectors registered before the close, in order. -/
structure Obs where
  ch : Nat
  cmh : Bool
  cml : Bool
  later : List (Bool × Bool)
deriving DecidableEq, Repr

/-- What a member of a match group reports of its block (R181): the grid time of its first vector as fs and residue n over d, the period,
L, TIMEOUT and MATCH_DELAY. -/
structure BlockRep where
  fs : Nat
  n : Nat
  d : Nat
  per : Per
  l : Nat
  timeout : Nat
  delay : Nat
deriving DecidableEq, Repr

/-- One slice's report to the consensus unit (R114): slice, VNUM, program address. -/
structure LockRep where
  sl : Nat
  vnum : Nat
  addr : Nat
deriving DecidableEq, Repr

/-- A data flit or the message fields a cellar flit carries (R414, R426). -/
structure Flit where
  ftype : Nat
  vl : Nat
  seq : Nat
  ackv : Bool
  ack : Nat
  cvl : Nat
  rel : Nat
  payload : List Byte
deriving DecidableEq, Repr

/-- One direction's half of a credit audit (R423): SENT and RELSEEN of the sender, ACCEPTED, RELEASED and OCC of the
receiver, each for virtual lanes 0 to 3. -/
structure Audit where
  sent : List Nat
  relseen : List Nat
  accepted : List Nat
  released : List Nat
  occ : List Nat
deriving DecidableEq, Repr

/-- A PTP message's fields as received or forwarded (R398, R399): arrival port, sourcePortIdentity, sequenceId,
domainNumber, twoStepFlag, correctionField in 2^-16 ns, its origin or receive timestamp in fs, whether its requestingPortIdentity names this
port (R398), and over UDP its checksum, for IPv6 the trailing checksum-complement bytes (R399). -/
structure PtpMsg where
  port : Nat
  src : Nat
  seqId : Nat
  domain : Nat
  twoStep : Bool
  cf : Int
  ts : Int
  own : Bool
  sum : Nat
deriving DecidableEq, Repr

/-- An Announce message (R395): sourcePortIdentity, domainNumber, and what the best master clock algorithm of the standard compares:
grandmasterPriority1, clockClass, clockAccuracy, offsetScaledLogVariance, grandmasterPriority2, grandmasterIdentity, stepsRemoved.
`lapsed`: the masters, as (port, sourcePortIdentity), whose Announce messages have failed to come since. -/
structure Announce where
  src : Nat
  domain : Nat
  prio1 : Nat
  clockClass : Nat
  accuracy : Nat
  variance : Nat
  prio2 : Nat
  grandmaster : Nat
  steps : Nat
  lapsed : List (Nat × Nat)
deriving DecidableEq, Repr

/-- The domainNumber of a two-step residence entry, and the time of day now in fs (R399). -/
structure TcEnd where
  domain : Nat
  tod : Int
deriving DecidableEq, Repr

/-- The parts of a stored firmware image that R484 checks, as the boot ROM finds them: the header fields, whether every
reserved byte is zero, the verdict of each cryptographic check, whether the section table and contents keep R482 and R483,
the first 32 bytes of the digest, the patch microwords of the UCODE section, the PE script entries as (SCRIPT, BUSMASK, SETTLE, bytes),
and the device configuration block. -/
structure Image where
  empty : Bool
  magic : Nat
  format : Nat
  series : Nat
  fwPatch : Nat
  ucPatch : Nat
  imglen : Nat
  part : Nat
  die : Nat
  mod : Nat
  clen : Nat
  rsvOk : Bool
  sigOk : Bool
  tagOk : Bool
  sectOk : Bool
  digest : List Byte
  ucode : List (BitVec 160)
  pescripts : List (Nat × Nat × Nat × List Byte)
  devFlags : Nat
  eccp : Nat
  budget : Nat
  ageadj : Int
deriving DecidableEq, Repr

/-- A measurement of a calibration item, or its repeat, that completes (R226): the histogram that a TDC's stamps have filled (R222);
the model fitted to the edges that the slice's observer has gathered (R224); the raw stamps of the 4,096 reference edges of modes 1 and 3 from
edge `first` of the train of R217 on (R218); the raw stamps of 4,096 DRV or enable-on edges that the engine fires from grid time t0 on at period p, returned by PE
loopback (R217, R219). -/
inductive CalRes
  | hist
  | fit
  | refs (first : Nat) (raws : List Nat)
  | loop (t0 : Nat) (p : Per) (raws : List Nat)
deriving DecidableEq, Repr

/-- What the boot sequence's measurements give (R215, R226, R367): the VCO band and the current trim that the edge PLL finds, and finds
again; for the CMH and CML TDC of each slice's reserve cell in turn the 128 counts of a histogram and of its repeat; the eye widths of
the stacks' lanes as (2,048 × stack + 64 × pseudo-channel + lane, width in 1/64 unit interval). -/
structure BootCal where
  band : Nat
  band2 : Nat
  trim : Nat
  trim2 : Nat
  hists : List (List Nat × List Nat)
  eyes : List (Nat × Nat)
deriving DecidableEq, Repr

/-- The device of a rendezvous report and the number of the group's members on it (R106; log 22). -/
structure SyncDev where
  dev : Nat
  members : Nat
deriving DecidableEq, Repr

/-- A_w of a rendezvous report (R106): fs and residue n over d. -/
structure SyncAw where
  fs : Nat
  n : Nat
  d : Nat
deriving DecidableEq, Repr

/-- What a warm reset starts up from: the image, and what the boot calibration measures (R477). -/
structure WarmUp where
  img : Image
  cal : BootCal
deriving DecidableEq, Repr

/-- The TDC item whose histogram stays short, and the grid time (R222). -/
structure HistEnd where
  item : Nat
  t : Nat
deriving DecidableEq, Repr

/-- What a DRAM transaction does (R355): reads bursts of 32 bytes, or writes data. -/
inductive DramOp where
  | read (bursts : Nat)
  | write (data : List Byte)
deriving DecidableEq, Repr

/-- What the check of a stored word meets in the stack (R360, R349): the bits found inverted (data bits 0 to 255, check bits 256 to 271),
by what the ADDRTAG found differs from the address's, whether the on-die ECC reports a severity. -/
structure DramErr where
  flips : List Nat
  tag : Nat
  sev : Bool
deriving DecidableEq, Repr

/-- What a read brings back (R361 to R365): the errors of each of its bursts, and the VNUM of the vector that a class-0 read is for. -/
structure DramRet where
  errs : List DramErr
  v : Nat
deriving DecidableEq, Repr

/-- A stack whose training and clearing have ended (R373), with the eye widths by lane key 64 × pseudo-channel + lane (R367). -/
structure StackEnd where
  stack : Nat
  eyes : List (Nat × Nat)
deriving DecidableEq, Repr

/-- A request that a network port answers (R411): the source MAC address, whether IPv6 (a neighbour solicitation, an ICMPv6 echo), and the
address that it is for as a number, the first byte most significant. -/
structure EthReq where
  mac : Nat
  v6 : Bool
  target : Nat
deriving DecidableEq, Repr

/-- The port that a flit without a sequence arrives at, and the ACKSEQ that it carries with ACKV (R414). -/
structure FlitFrom where
  port : Nat
  ack : Option Nat
deriving DecidableEq, Repr

/-- An ENUM flit (R415, R427): CDEV of the sender, and the ACKSEQ that it carries with ACKV. -/
structure EnumFlit where
  c : Nat
  ack : Option Nat
deriving DecidableEq, Repr

/-- A training of a cellar-link port that completes (R422, R428): the lane of a direction that the partner has racked, and the eye margins
of the lanes as (4 bits: 8 × direction + lane, 1/64 of a unit interval). -/
structure Trained where
  swap : Option (Nat × Nat)
  eyes : List (Nat × Nat)
deriving DecidableEq, Repr

/-- A port that comes up, with the eye margins of its training (R424, R428). -/
structure PortUp where
  port : Nat
  eyes : List (Nat × Nat)
deriving DecidableEq, Repr

/-- The end of a script on a PE control bus (R431, R433): the bits that MISO showed at each READ on it, in order, and the number of this bus's
ops after which the readback of SCLK or a chip-select differs from the level driven. -/
structure PeEnd where
  miso : List Nat
  readback : Option Nat
deriving DecidableEq, Repr

/-- One command of the block: one row of spec/opcode_table.json. -/
inductive Instr where
  -- device commands (R292 to R304)
  | ident (h : Hdr)
  | batchCreate (h : Hdr) (weight : Nat)
  | batchDestroy (h : Hdr)
  | batchDestroyDone (b t : Nat)
  | assign (h : Hdr) (p : AssignP)
  | granuleClearDone (g t : Nat)
  | power (h : Hdr) (domain action : Nat)
  | rack (h : Hdr) (kind unit arg : Nat)
  | rackDone (copies t : Nat)
  | repairMapCommit (h : Hdr) (src : Nat)
  | repairMapCommitDone (copies t : Nat)
  | faultRead (h : Hdr) (first count : Nat) (data : DRef)
  | faultClear (h : Hdr) (src : Nat)
  | timeSet (h : Hdr) (op : Nat) (value : Int) (time : TPair)
  | ptpConfig (h : Hdr) (port mode transport domain : Nat) (asym : Int)
  | calRun (h : Hdr) (p : CalRunP)
  | calRunDone (t : Nat)
  | calStatus (h : Hdr) (nitem : Nat) (data : DRef)
  | imageStatus (h : Hdr)
  | peScriptLoad (h : Hdr) (script busmask settle : Nat) (data : DRef)
  | inject (h : Hdr) (checker count : Nat)
  | wakeBudget (h : Hdr) (budget : Nat)
  -- batch commands (R305 to R321)
  | tsLoad (h : Hdr) (data : DRef)
  | tsInvalidate (h : Hdr) (set : Nat)
  | patLoad (h : Hdr) (prog cmaps : DRef)
  | segMap (h : Hdr) (p : SegMapP)
  | siteDefine (h : Hdr) (p : SiteDefP)
  | levels (h : Hdr) (voff : Int) (vstep script : Nat) (data : DRef)
  | start (h : Hdr) (p : StartP)
  | stop (h : Hdr)
  | status (h : Hdr) (data : DRef)
  | snapshot (h : Hdr) (p : SnapP)
  | failRead (h : Hdr) (maxrec : Nat) (purge : Bool) (data : DRef)
  | acqConfig (h : Hdr) (c : AcqCfg)
  | acqArm (h : Hdr) (p : AcqArmP)
  | measRead (h : Hdr) (acq mode maxrec : Nat) (data : DRef)
  | flowLoad (h : Hdr) (data : DRef)
  | streamOpen (h : Hdr) (segid tsnum cbaddr : Nat) (data : DRef)
  | counterSelect (h : Hdr) (counter scopekind source scope : Nat)
  | stage (h : Hdr) (p : StageP)
  | commit (h : Hdr) (p : CommitP)
  | clockOut (h : Hdr) (p : ClkP)
  | trigConfig (h : Hdr) (pin width flags offset : Nat)
  | cancel (h : Hdr) (tseq : Nat)
  | periodLoad (h : Hdr) (index flags : Nat) (rec : Per)
  -- pattern instructions executed by the sequencers of batch b (R90)
  | nop (b : Nat)
  | vec (b seg count : Nat)
  | rpt (b count : Nat)
  | loop (b count : Nat)
  | endl (b : Nat)
  | call (b : Nat) (c : Cond) (target : Nat)
  | ret (b : Nat) (c : Cond)
  | jmp (b : Nat) (c : Cond) (target : Nat)
  | matchBlock (b seg timeout group : Nat)
  | tset (b set : Nat)
  | per (b idx : Nat)
  | waitt (b : Nat) (abs : Bool) (time : Nat)
  | sync (b timeout rdv t : Nat)
  | trig (b outs : Nat)
  | mark (b code : Nat)
  | flag (b setm clrm : Nat)
  | sitemask (b entry : Nat)
  | peact (b settle script : Nat)
  | halt (b : Nat) (c : Cond)
  -- running a batch
  | batchRunBegin (b : Nat)
  | vectorHandover (b : Nat)
  | vectorBegin (b : Nat)
  | edgeFire (lch line : Nat)
  | compareDecision (b sl : Nat) (obs : List Obs)
  | failMemoryWrite (b : Nat)
  | consensusDecision (b : Nat) (reports : List LockRep) (othersMatch : Bool) (others : List BlockRep)
  | syncReport (group : Nat) (dev : SyncDev) (b rdv timeout : Nat) (aw : SyncAw) (t : Nat)
  | syncTimeout (group t : Nat)
  | markPost (b : Nat)
  | batchStop (b t : Nat)
  | spargeDeadline (b : Nat)
  | spargeFetchDone (b seg : Nat)
  | fillWrite (b seg value : Nat)
  | peScriptDone (bus : Nat) (e : PeEnd) (t : Nat)
  | peBusFault (bus t : Nat)
  | trigInEdge (pin : Nat) (fall : Bool) (t : Nat)
  -- site services
  | flowPinStart (pin t : Nat)
  | jobDispatch (core t : Nat)
  | jobComplete (core t : Nat)
  | acquireTimeout (b t : Nat)
  | delayTick (t : Nat)
  | datalogFrameSend (b t : Nat)
  | datalogConsumedWrite (b value : Nat)
  | addressResolutionRetry (b t : Nat)
  | irqSignal (n : Nat)
  | irqClaim (core : Nat)
  | irqComplete (core n : Nat)
  | maltsterTimer (t : Nat)
  | msixUnmask (fn vec : Nat)
  -- taps
  | tapDoorbellWrite (tap v : Nat)
  | cplHeadWrite (tap w : Nat)
  | commandTake (tap : Nat)
  | commandDispatch (tap t : Nat)
  | tapModeChange (tap : Nat)
  | tapFrameRx (via : NetVia) (frame : List Byte)
  | seqQuery (via : NetVia) (tap : Nat)
  -- Ethernet and PTP
  | ethFrameDrop (port : Nat)
  | arpRequest (port : Nat) (r : EthReq)
  | icmpEcho (port : Nat) (r : EthReq) (data : List Byte)
  | ptpSyncRx (m : PtpMsg) (t2 : Int)
  | ptpFollowUpRx (m : PtpMsg)
  | ptpDelayRespRx (m : PtpMsg)
  | ptpAnnounceRx (port : Nat) (a : Announce)
  | delayReqSend (t3 : Int)
  | tcForward (m : PtpMsg) (kind : Nat) (ingress egress : Int)
  | tcEntryExpiry (src seqId : Nat) (e : TcEnd)
  | ethLinkDown (port t : Nat)
  | ethFecUncorr (port t : Nat)
  -- cellar links
  | flitRxData (port : Nat) (f : Flit)
  | flitRxAck (port ack : Nat) (rel : List Nat)
  | flitRxNak (from_ : FlitFrom) (nak : Nat)
  | flitCrcFail (port : Nat)
  | linkBadFlit (port : Nat)
  | replayTimeout (port t : Nat)
  | nakRepeat (port t : Nat)
  | syncFlitSend (port t : Nat)
  | syncFlitRx (from_ : FlitFrom) (sender txT : Nat) (gscale : Int) (stamp : Nat)
  | enumRx (f : EnumFlit) (t : Nat)
  | enumTimeout (t : Nat)
  | linkRetrain (port t : Nat)
  | linkRetrainDone (port t : Nat) (r : Trained)
  | auditRx (from_ : FlitFrom) (tx rx : Option Audit) (t : Nat)
  | linkDown (port t : Nat)
  | linkTrainRetry (port : Nat)
  | linkUp (u : PortUp)
  -- epoch commits
  | stagingDeadline (group t : Nat)
  | commitVerdictRx (group dev mask t : Nat)
  | commitInstant (group t : Nat)
  | commitApply (group t : Nat)
  | commitAbortRx (group t : Nat)
  -- power and resets
  | pwrfailWarning (t : Nat)
  | pwrfailReturn (t : Nat)
  | thermalShutdown (t : Nat)
  | powerOnReset
  | coldReset
  | railLoss
  | startUp (img : Image) (bootWin refinOk : Bool) (m : BootCal) (t : Nat)
  | warmReset (up : WarmUp) (t : Nat)
  | pcieFundamentalReset
  | functionLevelReset (fn : Nat)
  | bwLoad (load persist : Bool)
  | bwLoadDone (img : Image) (persistOk : Bool) (m : BootCal) (t : Nat)
  | retClear
  -- time base
  | refselWrite (refsel : Nat)
  | todfollowWrite (on : Bool) (t : Nat)
  | refadjWrite (v : Int) (t : Nat)
  | ageadjWrite (v : Int) (t : Nat)
  | gsTargetWrite (v : Int) (t : Nat)
  | gridScaleStep (slot t : Nat)
  | refinLoss (t : Nat)
  | xtalLoss (t : Nat)
  | refinOkSet (t : Nat)
  | holdoverBuildOut (t : Nat)
  | refinReturn (t : Nat)
  | buildOutDone (t : Nat)
  | pllUnlock (t : Nat)
  | pllLock (band : Nat)
  | syncInPulse (lead : Nat) (near : Bool) (t : Nat)
  | clockOutAction (output t : Nat)
  -- directly addressed registers
  | devtimeRead (fn t : Nat)
  | ptpStatRead
  | syncLeadRead
  | cntLoRead (fn slot : Nat)
  | cntOvfClear (fn slot : Nat)
  | registerWrite (fn off size value : Nat)
  | bar2Access (fn off : Nat) (write : Bool) (data : List Byte) (len : Nat)
  -- outputs
  | outputShort (src t : Nat)
  | contention (src t : Nat)
  | errornStuck (t : Nat)
  -- power wake queue
  | wakeSlot (t : Nat)
  | wakeRampEnd (pd t : Nat)
  | wakeFail (pd t : Nat)
  | idlePark (pd t : Nat)
  -- DRAM
  | dramRequest (b cls addr branch : Nat) (op : DramOp) (t : Nat)
  | dramReadReturn (addr : Nat) (r : DramRet) (t : Nat)
  | dramParityAlert (stack pc t n : Nat)
  | refreshDue (stack pc : Nat) (post : Bool)
  | patrolScrub (addr : Nat) (e : DramErr) (t : Nat)
  | trackingStep (stack pc lane : Nat) (up : Bool) (t : Nat)
  | tempRetrain (stack t : Nat)
  | stackRetrainDone (stack : Nat) (eyes : List (Nat × Nat)) (t : Nat)
  | stackClearDone (e : StackEnd) (t : Nat)
  -- calibration
  | sliceTempReading (sl : Nat) (temp : Int) (t : Nat)
  | calIntervalDue (sl line t : Nat)
  | calMeasurementDone (item : Nat) (r : CalRes) (ext : Bool) (t : Nat)
  | tdcHistogramTimeout (e : HistEnd)
  | reserveSeqCheck (q : Nat) (ok : Bool) (t : Nat)
  -- pace and faults
  | paceWindowEnd (vals : List Nat) (t : Nat)
  | faultReport (src code detail t until_ : Nat)
  | faultWindowClose (t : Nat)
  | brokenReport (src t until_ : Nat)
  | cellarFaultMsg (dev src dom : Nat)
  | peerLost (port c t : Nat)
  | autoracked (src t : Nat)
  -- acquisition
  | tdcStamp (pcell : Nat) (cml rise : Bool) (raw : Nat)
  | tdcBlindEnd (pcell : Nat) (cml level moved : Bool) (raw : Nat)
  | triggerQualification (acq t : Nat)
  | recordWrite (acq t : Nat)
  | stackTemperatureReading (stack : Nat) (temp : Int) (t : Nat)
  | scriptSettleEnd (bus t : Nat)
  | addressResolutionReply (b : Nat)
  | boundaryScanInstruction (ins : Nat) (on : Bool) (t : Nat)
  | pcieAer (t : Nat)
  | fixtureWrite (lch dir : Nat) (v : Int)
deriving DecidableEq, Repr

end Sys2Proof
end

