-- ==== Sys2Proof/Machine/Arith.lean ====
section
/-! DEFINITION. Bit fields, byte order, rounding, CRC-32, time pairs and sparse tables: the arithmetic that every other
file uses. -/

namespace Sys2Proof

/-- Bits [hi:lo] of a number, bit 0 least significant (00_scope.md). -/
def bits (v hi lo : Nat) : Nat := v / 2 ^ lo % 2 ^ (hi + 1 - lo)

/-- Bit n of a number. -/
def bit (v n : Nat) : Bool := v.testBit n

/-- A number with bit n set. -/
def setBit (v n : Nat) : Nat := v ||| 2 ^ n

/-- A number with bit n clear. -/
def clrBit (v n : Nat) : Nat := if v.testBit n then v - 2 ^ n else v

/-- 1 for true, 0 for false. -/
def b2n (b : Bool) : Nat := if b then 1 else 0

/-- v in n bytes, little-endian (R5). -/
def le : Nat → Nat → List Byte
  | 0, _ => []
  | n + 1, v => BitVec.ofNat 8 v :: le n (v / 256)

/-- v in n bytes in network order, most significant first, as the headers of standard protocols have it (R5). -/
def be (n v : Nat) : List Byte := (le n v).reverse

/-- The number that little-endian bytes spell (R5). -/
def unle : List Byte → Nat
  | [] => 0
  | b :: bs => b.toNat + 256 * unle bs

/-- The signed value of a w-bit field (R4). -/
def sext (w v : Nat) : Int := if v.testBit (w - 1) then (v % 2 ^ w : Int) - 2 ^ w else (v % 2 ^ w : Int)

/-- The w-bit two's complement field of a signed value (R4). -/
def toField (w : Nat) (v : Int) : Nat := (v % (2 ^ w : Int)).toNat

/-- round_half_even(num / den) for den > 0 (00_scope.md, pseudocode). -/
def rhe (num : Int) (den : Nat) : Int :=
  let q := num / (den : Int)
  let r := num % (den : Int)
  if 2 * r < den then q else if (den : Int) < 2 * r then q + 1 else if q % 2 = 0 then q else q + 1

/-- ceil(a / b). -/
def cdiv (a b : Nat) : Nat := (a + b - 1) / b

/-- The field of n bytes at an offset of a byte list, as a number. -/
def fld (bs : List Byte) (off n : Nat) : Nat := unle ((bs.drop off).take n)

/-- Whether every byte of a field is zero (R6). -/
def zeros (bs : List Byte) (off n : Nat) : Bool := ((bs.drop off).take n).all (· == 0)

/-- A byte list cut into pieces of n bytes, at most k of them. -/
def pieces (n : Nat) : Nat → List Byte → List (List Byte)
  | 0, _ => []
  | k + 1, bs => bs.take n :: pieces n k (bs.drop n)

/-- One bit of the CRC-32 of IEEE 802.3 (reflected, polynomial 0xEDB8_8320). -/
def crcBit (c : Nat) : Nat := if c % 2 = 1 then (c / 2) ^^^ 0xEDB88320 else c / 2

/-- The register after one byte. -/
def crcByte (c : Nat) (b : Byte) : Nat :=
  crcBit (crcBit (crcBit (crcBit (crcBit (crcBit (crcBit (crcBit (c ^^^ b.toNat))))))))

/-- CRC-32 of IEEE 802.3 (R258, R274, R455, R525). -/
def crc32 (bs : List Byte) : Nat := (bs.foldl crcByte 0xFFFFFFFF) ^^^ 0xFFFFFFFF

/-- One second in fs. -/
def second : Nat := 1000000000000000

/-- One phase-clock cycle in fs (R31). -/
def cycle : Nat := 125000

/-- A grid time in fs of a time pair, none when it breaks R29. -/
def TPair.time (p : TPair) : Option Nat := if p.f < second then some (p.s * second + p.f) else none

/-- A time pair that breaks R29. -/
def TPair.bad (p : TPair) : Bool := p.time.isNone

/-- A time pair that is not zero (R529). -/
def TPair.nz (p : TPair) : Bool := p.s != 0 || p.f != 0

/-- The 16 bytes of a grid time (R28). -/
def timeBytes (t : Nat) : List Byte := le 8 (t / second) ++ le 8 (t % second)

/-- The time pair in 16 bytes at an offset. -/
def pairAt (bs : List Byte) (off : Nat) : TPair := ⟨fld bs off 8, fld bs (off + 8) 8⟩

/-- What no VNUM is: the value returned for a boundary that does not exist (R306, R530). -/
def noVnum : Nat := 0xFFFFFFFFFFFFFFFF

/-- The numbers 0 to 31 whose bit is set in a mask of n bits, ascending. -/
def ones (mask n : Nat) : List Nat := (List.range n).filter (fun i => mask.testBit i)

/-! ## Sparse tables -/

namespace Tab

/-- The value at a key: an unlisted key reads as `d`. -/
def get {α : Type} (d : α) : Tab α → Nat → α
  | [], _ => d
  | (k, v) :: m, a => if k = a then v else get d m a

/-- The table with a key taken out. -/
def del {α : Type} : Tab α → Nat → Tab α
  | [], _ => []
  | (k, v) :: m, a => if k = a then del m a else (k, v) :: del m a

/-- An entry put in its place by rising key. -/
def ins {α : Type} (a : Nat) (x : α) : Tab α → Tab α
  | [] => [(a, x)]
  | (k, v) :: m => if a < k then (a, x) :: (k, v) :: m else if k = a then (a, x) :: m else (k, v) :: ins a x m

/-- A write: the value an unlisted key reads as removes the entry. -/
def set {α : Type} [DecidableEq α] (d : α) (m : Tab α) (a : Nat) (x : α) : Tab α :=
  if x = d then del m a else ins a x m

/-- The canonical form: keys strictly rising and no entry equal to the default. -/
def wf {α : Type} [DecidableEq α] (d : α) : Tab α → Bool
  | [] => true
  | [(_, v)] => decide (v ≠ d)
  | (k, v) :: (k', v') :: m => decide (v ≠ d) && decide (k < k') && wf d ((k', v') :: m)

end Tab

/-- The value an association list gives a key. -/
def assoc {α : Type} : List (Nat × α) → Nat → Option α
  | [], _ => none
  | (k, v) :: m, a => if k = a then some v else assoc m a

end Sys2Proof
end

