-- ==== Sys2Proof/Decode.lean ====
section
/-! DEFINITION. Words that spell commands. The rows of spec/opcode_table.json give no bits, so no word spells a row
(`decodeTableWord`). The manual's one instruction encoding, the 64-bit word of a pattern instruction (R89 to R92), is read
and written here for the program store. -/

namespace Sys2Proof

/-- The command that a word spells by the table's bits: the table gives no row any bits. -/
def decodeTableWord (_nbits _w : Nat) : Option Instr := none

/-- The condition byte CF (R91): [55] INV, [54:48] COND. -/
def condOf (w : Nat) : Cond := ⟨w.testBit 55, bits w 54 48⟩

/-- The pattern instruction of a 64-bit word (R89, R90); none for an opcode value that the table does not list. -/
def PInstr.ofWord (w : Nat) : Option PInstr :=
  match bits w 63 56 with
  | 0x00 => some .nop
  | 0x01 => some (.vec (bits w 47 32) (bits w 31 0))
  | 0x02 => some (.rpt (bits w 39 0))
  | 0x03 => some (.loop (bits w 31 0))
  | 0x04 => some .endl
  | 0x05 => some (.call (condOf w) (bits w 13 0))
  | 0x06 => some (.ret (condOf w))
  | 0x07 => some (.jmp (condOf w) (bits w 13 0))
  | 0x08 => some (.mtch (bits w 47 32) (bits w 31 8) (bits w 7 0))
  | 0x09 => some (.tset (bits w 7 0))
  | 0x0A => some (.per (bits w 5 0))
  | 0x0B => some (.waitt (w.testBit 48) (bits w 47 0))
  | 0x0C => some (.sync (bits w 47 16) (bits w 15 0))
  | 0x0D => some (.trig (bits w 7 0))
  | 0x0E => some (.mark (bits w 15 0))
  | 0x0F => some (.flag (bits w 15 0) (bits w 31 16))
  | 0x10 => some (.sitemask (bits w 7 0))
  | 0x11 => some (.peact (bits w 47 16) (bits w 15 0))
  | 0x3F => some (.halt (condOf w))
  | _ => none

/-- The condition byte in its place (R91). -/
def Cond.word (c : Cond) : Nat := b2n c.inv * 2 ^ 55 + c.cond * 2 ^ 48

/-- The 64-bit word of a pattern instruction (R89, R90), reserved bits zero. -/
def PInstr.word : PInstr → Nat
  | .nop => 0
  | .vec seg count => 0x01 * 2 ^ 56 + seg * 2 ^ 32 + count
  | .rpt count => 0x02 * 2 ^ 56 + count
  | .loop count => 0x03 * 2 ^ 56 + count
  | .endl => 0x04 * 2 ^ 56
  | .call c target => 0x05 * 2 ^ 56 + c.word + target
  | .ret c => 0x06 * 2 ^ 56 + c.word
  | .jmp c target => 0x07 * 2 ^ 56 + c.word + target
  | .mtch seg timeout group => 0x08 * 2 ^ 56 + seg * 2 ^ 32 + timeout * 2 ^ 8 + group
  | .tset set => 0x09 * 2 ^ 56 + set
  | .per idx => 0x0A * 2 ^ 56 + idx
  | .waitt a time => 0x0B * 2 ^ 56 + b2n a * 2 ^ 48 + time
  | .sync timeout rdv => 0x0C * 2 ^ 56 + timeout * 2 ^ 16 + rdv
  | .trig outs => 0x0D * 2 ^ 56 + outs
  | .mark code => 0x0E * 2 ^ 56 + code
  | .flag setm clrm => 0x0F * 2 ^ 56 + clrm * 2 ^ 16 + setm
  | .sitemask entry => 0x10 * 2 ^ 56 + entry
  | .peact settle script => 0x11 * 2 ^ 56 + settle * 2 ^ 16 + script
  | .halt c => 0x3F * 2 ^ 56 + c.word

/-- Whether a reserved bit of a listed opcode's word is non-zero, CF of an opcode that takes none included (R89, R107): the
word differs from the one its own fields spell. -/
def PInstr.reserved (w : Nat) : Bool :=
  match PInstr.ofWord w with
  | some p => p.word != w
  | none => false

end Sys2Proof
end

