-- ==== Sys2Proof/Config.lean ====
section
/-! DEFINITION. What the module fixes outside the manual (the one-time-programmable store, the firmware's patch level) and
the values the manual leaves open: uninterpreted constants, which no proof can evaluate. The manual's own constants stand
beside the rules that use them. -/

namespace Sys2Proof.Config

/-- The module's serial number in OTP (R288). -/
opaque serial : Nat
/-- MAC address of an Ethernet port in OTP (R410). -/
opaque mac : Nat → Nat
/-- Factory egress and ingress constants of the PTP time stamps of a port, fs (R396). -/
opaque ptpEgress : Nat → Int
opaque ptpIngress : Nat → Int
/-- The factory repair map in OTP, generation 0: the rackings made at test (R455), as (kind, unit, newunit, arg). -/
opaque factoryMap : List (Nat × Nat × Nat × Nat)
/-- The series that the boot ROM's loader reports in the boot-safe state (R288). -/
opaque romSeries : Nat
/-- Factory trim j of a DELAY item in OTP (R215): item, then j; taken modulo the trim's range. -/
opaque factoryTrim : Nat → Nat → Nat
/-- Microword of a sequencer's ROM, 160 bits, at addresses 0x0000 to 0x0FFF (R115). -/
opaque microRom : Nat → BitVec 160
/-- Free value n: a result the manual does not state; State.free counts the ones used. -/
opaque freeValue : Nat → Nat
/-- Steps of 1/64 unit interval from a lane's centre at which its tracking range ends (R368). -/
opaque trackRange : Nat
/-- Row repairs that a bank of a stack has at delivery: stack, then 64 × pseudo-channel + bank (R372). -/
opaque rowRepairs : Nat → Nat → Nat

/-- Column of a bit in the 9 Hamming check bits (R360): data bit 0 to 255, then check bits 10 to 15 as 256 to 261. -/
opaque hamCol : Nat → BitVec 9

end Sys2Proof.Config
end

