-- ==== Sys2Proof/Machine/State.lean ====
section
/-! DEFINITION. The state of the block as plain data: every register, store, queue, counter, mode and pin that the manual
gives the YQ-512T-A1, the queue of waiting commands, and the state right after a cold reset. Grid times are whole fs since
the grid epoch (S × 10^15 + F of R28); "batch" tables are keyed 1 to 16; every `Tab` lists only what differs from the
value an unlisted key reads as, which its docstring names. -/

namespace Sys2Proof.Machine
open Sys2Proof

/-- Faults of a step. No meaning of this model answers one: the manual's faults are reports to the collector, kept in
State. The one constructor is what an interface needs; nothing raises it; safe. -/
inductive Fault where
  /-- Never raised; safe. -/
  | none
deriving DecidableEq, Repr

/-- Refusals of a step. -/
inductive Refusal where
  /-- An arm of exec that has no meaning yet; safe. -/
  | notModelled (mnemonic : String)
deriving DecidableEq, Repr

/-- What the block sends at its ports, oldest first: MSI-X messages (function, vector; R348), Ethernet frames (port,
destination, kind, data), flits (port 0 UP, 1 DN; the flit's 32 bytes; R414), the data of a BAR2 read of
a function (R407), the status that a write of a fixture value completes with (R47, R54), what a core reads from CLAIM (R346), transfers on PE control buses (bus, chip-select, SPI mode 3, DIV, bits shifted, the
word sent; R430, R431). -/
inductive Out where
  | msix (fn vec : Nat)
  | frame (port : Nat) (dst : Nat) (kind : Nat) (data : List Byte)
  | flit (port : Nat) (bytes : List Byte)
  | read (fn : Nat) (data : List Byte)
  | fixture (st : Nat)
  | claim (core number : Nat) (valid : Bool)
  | spi (bus cs : Nat) (mode3 : Bool) (div nbits word : Nat)
deriving DecidableEq, Repr

/-! ## Time base (14_time_base.md R375 to R402; 02_time_arithmetic.md R31 to R34) -/

/-- An event scheduled on a DUT clock output (R401): grid time, ACTION, FREQ, FORMAT. -/
structure ClkAct where
  at_ : Nat
  action : Nat
  freq : Nat
  format : Nat
deriving DecidableEq, Repr

/-- A DUT clock output (R400 to R402, R513, R514). `from_`: a rising edge that the others are counted from, as numerator and
denominator of its grid time in fs; `stopAt`: the falling edge that ends a high half-period begun before `from_` or before a stop. -/
structure Clk where
  format : Nat
  freq : Nat
  from_ : Int × Nat
  stopAt : Option (Int × Nat)
  running : Bool
  disabled : Bool
  acts : List ClkAct
deriving DecidableEq, Repr

/-- A TRIG_OUT output (R78, R79, R513, R514): offset fs, width ns, the times in 1/2048 fs of grid time at which it rises and falls for each
pulse that a later pulse can still meet, high impedance after a fault. -/
structure TrigOut where
  offset : Nat
  width : Nat
  pulses : List (Nat × Nat)
  disabled : Bool
deriving DecidableEq, Repr

/-- A TRIG_IN input (R320): selected edge, posting. -/
structure TrigIn where
  fall : Bool
  post : Bool
deriving DecidableEq, Repr

/-- Grid time, time of day, reference, grid scale and the registers of R388. `holdSince` and `refinSince`: when holdover began and
when REFIN_OK set (R378); `gsFrom`: the earliest slot of R385 that may step ε; `refEdge`: the last rising edge of the active reference that
the feedback divider has counted, in 2^-38 of a phase-clock cycle (R389); `rcorrPast` and `gscalePast`: the latest values of RCORR and ε that
another has replaced, each with the grid time of that change, newest first (R381, R425). -/
structure TimeBase where
  now : Nat
  todRaw : Nat
  incrFrac : Int
  gL : Nat
  tL : Nat
  refsel : Nat
  todfollow : Bool
  cfgErr : Bool
  crystal : Bool
  refinOk : Bool
  refinSince : Nat
  xtalOk : Bool
  locked : Bool
  holdover : Bool
  holdSince : Nat
  buildOut : Option Bool
  epochValid : Bool
  epochArmed : Option Nat
  todValid : Bool
  todfSat : Bool
  vcoBand : Nat
  ageadj : Int
  refadj : Int
  gsTarget : Int
  gscale : Int
  gsFrom : Nat
  gsTimeS : Nat
  gsTimeF : Nat
  refEdge : Nat
  rcorrPast : List (Nat × Int)
  gscalePast : List (Nat × Int)
  lead : Nat
  near : Bool
  syncCount : Nat
  syncAt : Nat
  syncLastLatch : Nat
deriving DecidableEq, Repr

/-- PTP configuration of one Ethernet port (R300, R395). -/
structure PtpPort where
  mode : Nat
  transport : Nat
  domain : Nat
  asym : Int
deriving DecidableEq, Repr

/-- A residence time held for a two-step Sync, with the Sync's egress in fs of time of day (R399). -/
structure TcEntry where
  src : Nat
  seqId : Nat
  domain : Nat
  r : Int
  egress : Int
deriving DecidableEq, Repr

/-- A master heard on a port (R395): its sourcePortIdentity, its domain, and what the best master clock algorithm compares, the
earlier in the list the more it weighs. -/
structure Master where
  port : Nat
  src : Nat
  domain : Nat
  rank : List Nat
deriving DecidableEq, Repr

/-- The ordinary and transparent clock (R394 to R399). `masters`: those heard; `sync`: the parent's last Sync and its ingress time while
its Follow_Up is awaited; `req`: t3 and sequenceId of the Delay_Req outstanding; `reqSeq`: the next sequenceId; `exch`: t3, t4 and
correctionField of the latest exchange. -/
structure Ptp where
  ports : Tab PtpPort
  masters : List Master
  parent : Option (Nat × Nat)
  samples : Nat
  offset : Int
  mpd : Int
  offsetLatch : Int
  mpdLatch : Int
  sync : Option (PtpMsg × Int)
  req : Option (Int × Nat)
  reqSeq : Nat
  exch : Option (Int × Int × Int)
  tc : List TcEntry
deriving DecidableEq, Repr

/-! ## Taps (10_taps.md R259 to R288) -/

/-- A completion (R272); FLAGS without PHASE. -/
structure Cpl where
  seq : Nat
  status : Nat
  flags : Nat
  opcode : Nat
  target : Nat
  rlen : Nat
  result : List Byte
deriving DecidableEq, Repr

/-- An entry of the duplicate history (R274): SEQ, CRC-32, latest completion, inline result, the resubmissions held until
the first completion with their frames' sources (R277), and the source of the latest submission. -/
structure Hist where
  seq : Nat
  crc : Nat
  cpl : Option Cpl
  inl : List Byte
  dups : List (Option NetSrc)
  net : Option NetSrc
deriving DecidableEq, Repr

/-- An accepted command in a dispatch queue (R278): SEQ, the 128-byte slot, inline data, the frame's source. -/
structure QCmd where
  seq : Nat
  slot : List Byte
  inl : List Byte
  net : Option NetSrc
deriving DecidableEq, Repr

/-- An asynchronous command that lacks its final completion (R273). -/
structure Async where
  seq : Nat
  opcode : Nat
  target : Nat
deriving DecidableEq, Repr

/-- A tap (R260): ring registers, slots, history, dispatch queue, the synchronous command dispatched and not yet
completed, the asynchronous commands; the completion slots reserved under R266 follow from these. `old` holds the entries that the
history has pushed out while their command still owes its final completion (R273, R277): no SEQ is looked up there; `heldDb` the
doorbells that arrived before READY (R287). -/
structure Tap where
  ring : Tab Byte
  cpls : List (Nat × Cpl)
  cmdTail : Nat
  cmdHead : Nat
  cplHead : Nat
  cplTail : Nat
  expSeq : Nat
  hist : List Hist
  old : List Hist
  heldDb : List Nat
  dbErr : Bool
  cplErr : Bool
  netMode : Bool
  dq : List QCmd
  running : Option Nat
  asyncs : List Async
  lastSrc : Option NetSrc
deriving DecidableEq, Repr

/-- An event counter (R487). -/
structure Ctr where
  value : Nat
  ovf : Bool
  source : Nat
  kind : Nat
  scope : Nat
  last : Nat
  lastOvf : Bool
  owner : Nat
deriving DecidableEq, Repr

/-- What a SNAPSHOT takes at its boundary (R171, R496): the boundary's grid time, the counters that the command names, sections 2
and 3. -/
structure Frozen where
  time : Nat
  ctrs : Tab Ctr
  bytes : List Byte
deriving DecidableEq, Repr

/-- Why a dispatched command has not completed yet: the event that completes it. -/
inductive WaitFor where
  | stop
  | vector (set thr : Nat) (v : Option Nat)
  | override (thr : Nat) (v : Option Nat)
  | power (pd : Nat)
  | failRead (maxrec : Nat) (purge : Bool) (data : DRef)
  | levels (script : Nat) (voff : Int) (vstep : Nat) (left : List (Nat × Nat × Nat)) (done : Nat)
  | snapshot (p : SnapP) (thr : Option Nat) (v : Option Nat) (frozen : Option Frozen)
deriving DecidableEq, Repr

/-- A synchronous command waiting for its event: tap, SEQ, opcode, TARGET, batch (R312, R530, R296, R310, R314); a FAIL_READ waits for the
capture of a SNAPSHOT (R171). -/
structure Waiter where
  tap : Nat
  seq : Nat
  opcode : Nat
  target : Nat
  b : Nat
  async : Bool
  what : WaitFor
deriving DecidableEq, Repr

/-! ## Batches -/

/-- A channel record of a timing set (R124); times in fs. -/
structure ChanRec where
  fmt : Nat
  cmode : Bool
  tDrv : Nat
  tRet : Nat
  tEon : Nat
  tEoff : Nat
  tStrb : Nat
  tWopen : Nat
  tWclose : Nat
  tLead : Nat
deriving DecidableEq, Repr

/-- A timing set in the set store (R123, R126, R232): VERSION, own period index, one record per channel of the batch in
the order of R123, and the mark of R232. -/
structure TSet where
  version : Nat
  peridx : Nat
  recs : List ChanRec
  marked : Bool
deriving DecidableEq, Repr

/-- One entry of a channel's timing-set cache (R139, R146); the list of entries stands most recently selected first. -/
structure CacheE where
  set : Nat
  version : Nat
  stale : Bool
  cr : ChanRec
deriving DecidableEq, Repr

/-- The per-slice part of a segment descriptor (R71, R72): SL, code map, ADDR. -/
structure SegSl where
  sl : Nat
  cmap : Nat
  addr : Nat
deriving DecidableEq, Repr

/-- A mapped segment (R71): MODE fields, PERIDX, TRIG, LENGTH, RINGGRAN and the slices' parts. -/
structure Seg where
  loopStore : Bool
  full : Bool
  mlog : Nat
  tssel : Bool
  sparge : Bool
  peridx : Nat
  trig : Nat
  length : Nat
  ringgran : Nat
  sls : List SegSl
deriving DecidableEq, Repr

/-- The period override (R148): its record and OVRIDX (0 to 63, or 255 for every entry). -/
structure Ovr where
  per : Per
  idx : Nat
deriving DecidableEq, Repr

/-- A site entry (R156, R162, R165): SLIMIT, FAILOFF_EN, SITE_FAILS, SITE_RECS, the first record (R159 bytes), the first
failing VNUM, and fail-off as (V_off, s). -/
structure Site where
  slimit : Nat
  failoffEn : Bool
  fails : Nat
  recs : Nat
  first : Option (List Byte)
  firstV : Option Nat
  off : Option (Nat × Nat)
deriving DecidableEq, Repr

/-- Fail-memory and capture ring of a batch in one quadrant (R166, R161, R309), with the records logged and captured since
START. -/
structure QRing where
  fmaddr : Nat
  capaddr : Nat
  capslots : Nat
  captured : Nat
  logged : Nat
deriving DecidableEq, Repr

/-- What SITE_DEFINE sets (R156, R309). `siteOf` lists the site ID of each channel of the batch in the order of R123; `pend` the
fail-off orders of a flow whose V_off is handed over and has not begun, as (sites, V_off, decision vector s) (R333). -/
structure SiteCfg where
  defined : Bool
  siteOf : List Nat
  sites : Tab Site
  blimit : Nat
  fmcap : Nat
  matchDelay : Nat
  tpe : Nat
  rings : Tab QRing
  pend : List (List Nat × Nat × Nat)
deriving DecidableEq, Repr

/-- The counts of R170 in their order there, then the six record counts. -/
structure Counts where
  sched : Nat
  compared : Nat
  disagree : Nat
  masked : Nat
  pass : Nat
  fail : Nat
  logged : Nat
  unlogged : Nat
  uFailoff : Nat
  uLimit : Nat
  uFull : Nat
  delivered : Nat
  held : Nat
  purged : Nat
  recFormed : Nat
  recLogged : Nat
  recUnlogged : Nat
  recDelivered : Nat
  recHeld : Nat
  recPurged : Nat
deriving DecidableEq, Repr

/-- A fail record (R159). -/
structure FailRec where
  vnum : Nat
  addr : Nat
  iter : Nat
  k : Nat
  sl : Nat
  mask : Nat
  expect : Nat
  actual : Nat
  site : Nat
  flags : Nat
deriving DecidableEq, Repr

/-- A formed record with what its place in the order of R158 decides: over limit (R163), and whether the slice's record buffer was
full (R166). -/
structure Formed where
  fr : FailRec
  overLimit : Bool
  full : Bool
deriving DecidableEq, Repr

/-- A strobe or window of a unit interval (R132, R153): channel in the slice, expect code 4 to 7 or 9, window. -/
structure Strobe where
  ch : Nat
  act : Nat
  window : Bool
deriving DecidableEq, Repr

/-- The strobes of one slice in one unit interval of one vector, from handover until judged: program address, iteration
(loop open?), VNUM + 1 of the first vector of its match repetition (0 outside a MATCH block), strobes to perform, channels of the slice whose strobe is masked
(R154; in a MATCH block: performed, but not judged, R178). -/
structure Group where
  sl : Nat
  vnum : Nat
  k : Nat
  addr : Nat
  iter : Nat
  inLoop : Bool
  rep : Nat
  strobes : List Strobe
  masked : List Nat
deriving DecidableEq, Repr

/-- The vector-start accumulator A (R38): whole fs since the epoch, residue n over D. -/
structure Acc where
  fs : Nat
  n : Nat
  d : Nat
deriving DecidableEq, Repr

/-- A run of vectors in the output buffer, compressed: `seg` from vector `pos` of a play, `left` vectors; a repeat plays vector `pos`
again (R96); `idle` plays the keep-alive vector of a sparge stream (R84); `mtch` is VNUM a + 1 of a MATCH block, 0 outside one.
Timing set, period entry and site-mask entry are those in force, `addr`, `iter` and `inLoop` what a fail record reports. -/
structure Run where
  seg : Nat
  pos : Nat
  left : Nat
  rpt : Bool
  idle : Bool
  set : Nat
  per : Nat
  entry : Nat
  addr : Nat
  iter : Nat
  inLoop : Bool
  mtch : Nat
deriving DecidableEq, Repr

/-- A vector handed to the edge generators and not yet begun (R119): VNUM, start, period, D × M, groups awaiting its begin, TRIG
outputs of a segment start, the err of the conversion at its boundary over errDen (R42), the granule of a stream that it opens,
the segment whose keep-alive vector it is, the stream whose last vector it is, the timing set that it selects on each slice. -/
structure HVec where
  vnum : Nat
  acc : Acc
  per : Per
  dm : Nat
  groups : List Group
  trigs : Nat
  err : Int
  errDen : Nat
  granule : Option (Nat × Nat)
  idle : Option Nat
  final : Option Nat
  sets : List (Nat × Nat)
deriving DecidableEq, Repr

/-- An edge in a line's queue (R135): grid cycle, phase, fine code in the line's table, the exact time as fs with residue
n over d, what it does: DRV 0 low 1 high; DEN 2 off 3 on; CMP 4 strobe 5 open 6 close. Line 0 DRV, 1 DEN, 2 CMP. -/
structure Edge where
  lch : Nat
  line : Nat
  vnum : Nat
  c : Nat
  phase : Nat
  code : Nat
  fs : Nat
  n : Nat
  d : Nat
  act : Nat
deriving DecidableEq, Repr

/-- What a sequencer waits for: the state through vector s for a late condition (R93); the decision of a rendezvous (R106);
the end of a MATCH (R105, R180): VNUM a of its first vector, block length L, TIMEOUT, GROUP, repetitions decided, and what it reports
of the block once its first vector is handed over (R181); a PE script (R98) with none, or the first boundary at or after a grid
time. -/
inductive SeqWait where
  | late (s : Nat)
  | sync (aw : Acc) (timeout rdv : Nat)
  | mtch (a l timeout group done : Nat) (block : Option BlockRep)
  | peact (at_ : Option Acc)
deriving DecidableEq, Repr

/-- What one slice plays of a vector (R65, R66, R69): the action codes, channel c in unit interval k at 16 × k + c, and the timing
set. -/
structure SliceVec where
  sl : Nat
  codes : List Nat
  set : Nat
deriving DecidableEq, Repr

/-- An open loop on the loop stack (R103, R56): address after LOOP, count, counter. -/
structure LoopE where
  addr : Nat
  count : Nat
  left : Nat
deriving DecidableEq, Repr

/-- The sequencers of a batch (all slices run the same program in time-lockstep, R113): program counter, stacks, flags, the
set, period entry and site-mask entry in force at the front, vectors emitted, the last of them, what the sequencers wait for, a
delivered decision, the vectors buffered, the next to hand over with the accumulator and the period before it, those handed over
and not begun, vectors begun, the accumulator at the end of the last; channels whose held data level is high and whose enable is
on (R62); match repetitions that missed, by the VNUM + 1 of their first vectors; actions at effect boundaries (R94) as (VNUM, kind, value): 0 TRIG, 1
MARK, 2 PEACT, 3 TSET_MISS counted, 4 MARK_STALL counted, 5 TSET, 6 the period entry that a TSET has put in force; the last vector
handed over with its descriptor, which RPT repeats (R96); the grid time at which the last vector began and the sets it selects. A period entry 256 + v is the own entry of the set that the last TSET with
effect boundary v selects, as that set stands at v (R94, R95). `micro` is the micro-stack of 8 microword addresses, empty between two instructions (R115, log 56). -/
structure Seq where
  pc : Nat
  loops : List LoopE
  calls : List Nat
  flags : Nat
  matchOk : Bool
  matchTo : Bool
  set : Nat
  per : Nat
  entry : Nat
  emitted : Nat
  last : Option Run
  wait : Option SeqWait
  decided : Option Bool
  halted : Bool
  buf : List Run
  hNext : Nat
  hAcc : Acc
  hPer : Option Per
  flight : List HVec
  begun : Nat
  acc : Acc
  drv : List Nat
  den : List Nat
  missReps : List Nat
  acts : List (Nat × Nat × Nat)
  held : Option (Seg × List SliceVec)
  begunAt : Nat
  begunSets : List (Nat × Nat)
  micro : List (BitVec 13)
deriving DecidableEq, Repr

/-- A sparge stream (R80, R85): control-block address, keep-alive vectors per slice, timing-set number, counts and STATUS bits,
granules decided to play, whether an under-run marks the results of R84, granules fetched and not yet handed over with each
slice's bytes. -/
structure Stream where
  cbaddr : Nat
  keep : List (Nat × List Byte)
  tsnum : Nat
  fill : Nat
  play : Nat
  release : Nat
  idle : Nat
  underrun : Bool
  fillErr : Bool
  done : Bool
  decided : Nat
  invalid : Bool
  data : List (Nat × List (Nat × List Byte))
deriving DecidableEq, Repr

/-- A staged item of an epoch commit (R248): kind, index, and its data as read at STAGE. -/
structure Staged where
  kind : Nat
  index : Nat
  data : List Byte
deriving DecidableEq, Repr

/-- Staging buffer and commit history of a batch (R248 to R254). `fin` is the (tap, SEQ) of an open FINAL,
`thr` the T of a commit whose items are not in the tables yet, `due` whether they are, for a boundary that has not come. -/
structure Epoch where
  cur : Nat
  items : List Staged
  group : Nat
  epoch : Nat
  staged : Bool
  fin : Option (Nat × Nat)
  finAt : Nat
  lastGroup : Nat
  lastEpoch : Nat
  outcome : Nat
  applied : Nat
  lateDev : Nat
  lateB : List (Nat × Nat)
  thr : Option Nat
  due : Bool
deriving DecidableEq, Repr

/-- What the tables of a batch held before the commit for `t` that its vector `v` brings (R252), until that vector begins. -/
structure Undo where
  v : Nat
  t : Nat
  periods : List (Nat × Per)
  sets : List (Nat × TSet)
  caches : Tab (List CacheE)
  segs : List (Nat × Seg)
  loops : Tab Byte
  masks : List (Nat × Nat)
deriving DecidableEq, Repr

/-- A step of a flow table (R325). -/
structure FStep where
  type : Nat
  onfail : Nat
  retestMax : Nat
  sel : Nat
  failE : Nat
  sbin : Nat
  hbin : Nat
  unit : Nat
  loEn : Bool
  hiEn : Bool
  lo : Int
  hi : Int
  arg0 : Nat
  arg1 : Nat
  next : Nat
deriving DecidableEq, Repr

/-- A flow: header of R324, steps, ring counts of R336, datalog output of R337 (TOD in fs of each waiting record, oldest first, the
destination resolved or being resolved under R411), and the run of R328 to R333: run number, trigger, step, try, active mask,
sites of the step, steps executed, `phase` (0 no step in progress, 1 PATTERN, 2 ACQUIRE, 3 PEACT, 4 judging, 5 ending, 6
writing the last records), sites still to judge, sites that failed this try, bins (site, SBIN, HBIN, step), bus error, VNUM of the stop, grid time of the
ACQUIRE timeout, (outcome, STATUS) of an ending run. -/
structure Flow where
  loaded : Bool
  faillog : Bool
  dlnet : Bool
  pinEn : Bool
  pin : Nat
  entry : Nat
  passS : Nat
  passH : Nat
  dladdr : Nat
  dlslots : Nat
  dlport : Nat
  dleth : Nat
  dldest : Nat
  steps : List FStep
  produced : Nat
  consumed : Nat
  consErr : Bool
  seq : Nat
  tods : List Nat
  resolved : Bool
  resolving : Bool
  active : Bool
  runNo : Nat
  pinRun : Bool
  step : Nat
  try_ : Nat
  a : List Nat
  e : List Nat
  executed : Nat
  phase : Nat
  left : List Nat
  failed : List Nat
  abort : Bool
  bins : List (Nat × Nat × Nat × Nat)
  busErr : Bool
  stopV : Nat
  timeoutAt : Nat
  outcome : Option (Nat × Nat)
deriving DecidableEq, Repr

/-- Entries that entered, left and were discarded from a hardware queue (R339). -/
structure QCount where
  enq : Nat
  deq : Nat
  disc : Nat
deriving DecidableEq, Repr

/-- What LEVELS last set on a channel (R198, R204): the codes of VTH and VTL, and the scale VOFF, VSTEP in µV. -/
structure Lvl where
  vth : Nat
  vtl : Nat
  voff : Int
  vstep : Nat
deriving DecidableEq, Repr

/-- A batch (R236, R237). `causes` lists the stop causes fixed so far as (reason, V); `thr` the stop thresholds not yet
tied to a vector as (reason, grid time). `startT`, `dmask`, `cmgrp`, `syncgrp`, `idleFill` are those of the last START;
`startKey` the (tap, SEQ) of its open completion; `byFlow` whether a flow issued it; `held` the records in fail memory with the
BAR2 offsets of their slots, in the order of R158, `unl` the records unlogged as over limit (1) or full (2); `markBuf` the pairs that wait
in the mark buffer as (VNUM, CODE, order: 0 none, 1 a check of R333, 2 one whose run has stopped); `checks` the fail-off orders of a flow
whose V_off is not handed over yet, as (sites E, grid time, decision vector s); `undo` what a commit replaced whose vector has not begun; `destroying` the granules that a BATCH_DESTROY
clears. -/
structure Batch where
  weight : Nat
  state : Nat
  reason : Nat
  stopCause : Nat
  stopV : Nat
  prog : List PInstr
  cmaps : Tab (List Byte)
  segs : List (Nat × Seg)
  sets : List (Nat × TSet)
  caches : Tab (List CacheE)
  periods : List (Nat × Per)
  ovr : Option Ovr
  ovrNext : List (Nat × Option Ovr)
  vo : Option Nat
  staleNext : List (Nat × Nat)
  loops : Tab Byte
  site : SiteCfg
  masks : List (Nat × Nat)
  seq : Seq
  causes : List (Nat × Nat)
  thr : List (Nat × Nat)
  startT : Nat
  dmask : Nat
  cmgrp : Nat
  syncgrp : Nat
  idleFill : Bool
  startKey : Option (Nat × Nat)
  byFlow : Bool
  reserr : Int
  reserrSat : Bool
  counts : Counts
  chCounts : Tab Counts
  awaiting : List Group
  forming : List FailRec
  formed : List Formed
  held : List (FailRec × Nat)
  unl : List (FailRec × Nat)
  edges : List Edge
  lastEdge : List Edge
  streams : List (Nat × Stream)
  markBuf : List (Nat × Nat × Nat)
  qs : Tab QCount
  ep : Epoch
  flow : Flow
  vth : Tab Nat
  vtl : Tab Nat
  voff : Int
  vstep : Nat
  lvls : Tab Lvl
  thrSet : List Nat
  checks : List (List Nat × Nat × Nat)
  undo : Option Undo
  destroying : Option (List Nat)
deriving DecidableEq, Repr

/-! ## Acquisition (07_measurement.md R182 to R210) -/

/-- A corrected event (R186): stamp, type, MERGED, whether of source B, whether judged as a trigger of source A, whether its channel is
a source no longer (R199; such an event still to judge has qualified before the change, R200). The stamp is
held unwrapped, 2^47 above the count of TDC units since the grid epoch. -/
structure Event where
  stamp : Nat
  type : Nat
  merged : Bool
  srcB : Bool
  judged : Bool
  old : Bool
deriving DecidableEq, Repr

/-- A TDC (R182 to R185): input level (none until a transition has shown it), whether blind, the histogram's count of each bin and the
grid time in fs of its first event (R222). -/
structure Tdc where
  level : Option Bool
  blind : Bool
  hist : Tab Nat
  since : Option Nat
deriving DecidableEq, Repr

/-- An averaged result (R201, R317), with RCORR and the scale step in force at the end of its interval, from which SI is formed (R202,
R381). -/
structure AvgRes where
  recno : Nat
  slot : Nat
  ovf : Bool
  merged : Bool
  trunc : Bool
  nsamp : Nat
  y : Int
  rcorr : Int
  gscale : Int
deriving DecidableEq, Repr

/-- A record held in a record ring (R193): its number, the BAR2 offset and the length of its slot. -/
structure AcqRec where
  recno : Nat
  addr : Nat
  len : Nat
deriving DecidableEq, Repr

/-- A record window in progress (R192): stamp of the trigger point (of t_l for TIMEOUT), the trigger point in 1/16 fs on the
scale of the stamps, whether PRE reaches back beyond the events held, the least event times that sources A and B hold for it, whether
its pulse or slew has a MERGED event (R190), the grid time at which the trigger was confirmed, whether events of a source replaced since
belong to it (R200). -/
structure Window where
  stamp : Nat
  trig : Nat
  trunc : Bool
  fromA : Nat
  fromB : Nat
  merged : Bool
  at_ : Nat
  keepOld : Bool
deriving DecidableEq, Repr

/-- A level search (R204 to R206): status of R317, the worst status of the levels done, levels still to find (bit 0 high, bit 1
low; 0 once the thresholds are being restored), script, channel, code range, the bounds (lo one above the bound of the mirrored
search for the low level), the code under test, whether its script still runs, whether the low level is searched now, the levels
found in µV, VOFF and VSTEP of the channel, the free value that its reports use (log 18), thresholds before. -/
structure LSearch where
  status : Nat
  worst : Nat
  levels : Nat
  script : Nat
  lch : Nat
  codeLo : Nat
  codeHi : Nat
  lo : Nat
  hi : Nat
  test : Nat
  running : Bool
  low : Bool
  vhigh : Option Int
  vlow : Option Int
  voff : Int
  vstep : Nat
  u : Nat
  oldVth : Nat
  oldVtl : Nat
deriving DecidableEq, Repr

/-- An acquisition engine (R187 to R206): configuration, NREC, the number of the next record, events held in order of arrival,
the window in progress, the last trigger point in 1/16 fs, trigger points still passed over by hold-off, markings of R199
latest first as (reason, first and last record number), records and results held oldest first, the last result by slot, samples
(slot, record number, sample, merged) newest first, the level search, the counts of R191 and R199. -/
structure Acq where
  cfg : Option AcqCfg
  armed : Bool
  nrec : Nat
  recno : Nat
  events : List Event
  window : Option Window
  lastTrig : Option Nat
  skip : Nat
  marks : List (Nat × Nat × Nat)
  recs : List AcqRec
  res : List AvgRes
  last : List (Nat × AvgRes)
  box : List (Nat × Nat × Int × Bool)
  ls : Option LSearch
  quals : Nat
  records : Nat
  lost : Nat
  skips : Nat
  invalids : Nat
deriving DecidableEq, Repr

/-! ## Calibration (08_calibration.md R211 to R235) -/

/-- A measurement's result (R226): the DNL table of a TDC (R222); a line's model as s less its nominal value in 2^-16 fs and off[0..15] in fs
(R213); the error of a deskew in fs (R218, R219); current trim and VCO band of the edge PLL. -/
inductive CalVal
  | dnl (d : List Int)
  | model (ds : Int) (offs : List Int)
  | err (e : Int)
  | lock (trim band : Nat)
deriving DecidableEq, Repr

/-- A calibration item (R211, R212, R233). `value` is s of a DELAY line less its nominal value, in 2^-16 fs, with off[0..15] in
`offs` (R213), or the DESKEW value in fs; `pendV`, `pendO` and `move` are the accepted correction that waits for its swap (trims
of a TDC item in `pendO`, whose `offs` is the DNL table accepted last); an empty list of trims stands for the nominal ones; `tries` counts
attempts of R214 in succession; `first` is a measurement that waits for its repeat (R226); `begun` the grid time at which in-service
calibration of the line last started (R224). The resolutions of s and of off[p] are the model's (DESIGN CHOICE, log 52). -/
structure CalItem where
  state : Nat
  due : Bool
  pending : Bool
  range : Bool
  lowHead : Bool
  count : Nat
  tlast : Nat
  lastdiff : Nat
  disagree : Nat
  tries : Nat
  trims : List Nat
  value : Int
  offs : List Int
  pendV : Int
  pendO : List Int
  move : Nat
  first : Option CalVal
  begun : Option Nat
deriving DecidableEq, Repr

/-- A cell of an external CAL_RUN with its path delay and loopback delay in fs (R217, R219). -/
structure CalCell where
  pcell : Nat
  dpath : Int
  tloop : Int
deriving DecidableEq, Repr

/-- A CAL_RUN accepted and not yet complete (R216, R217, R301): tap, SEQ, mode, items still to end, items that ended RANGE or
DISAGREE, whether one ended without a measurement, the cells it holds, P_ref and t0 in fs, its data block. -/
structure CalRun where
  tap : Nat
  seq : Nat
  mode : Nat
  left : List Nat
  failed : List Nat
  missed : Bool
  cells : List CalCell
  pref : Per
  t0 : Nat
  data : DRef
deriving DecidableEq, Repr

/-- Sums over the edges of one cell of (phase, quarter of the fine codes) of a line: their count, and over physical code x and measured
position y in 2^-16 fs the sums of x, y, x² and xy (R224). -/
structure FitSum where
  n : Nat
  x : Nat
  y : Int
  xx : Nat
  xy : Int
deriving DecidableEq, Repr

/-- What a slice's observer holds of the line routed to it (R220): the item, the edge fired last and not yet stamped, the sums by
4 × phase + quarter. -/
structure Gather where
  item : Nat
  last : Option Edge
  sums : Tab FitSum
deriving DecidableEq, Repr

/-- Calibration of the device: items by identifier, ASYNCMASK, CAL_INTERVAL in s, the slice temperatures read last and at the
last accepted DELAY calibration in 0.125 °C, the CAL_RUNs in progress in dispatch order, the line 0 to 47 whose turn comes next
per slice, the DELAY items whose in-service calibration has started (R224, R225), and what the slices' observers gather. -/
structure Cal where
  items : Tab CalItem
  asyncMask : Nat
  interval : Nat
  temps : Tab Int
  calTemps : Tab Int
  runs : List CalRun
  slTurn : Tab Nat
  started : List Nat
  gather : Tab Gather
deriving DecidableEq, Repr

/-! ## Faults (16_faults_reserves.md R434 to R451) -/

/-- What a batch fault's record holds beyond its DETAIL: the channel, the VNUM of the offending vector and V_h (R55 step 4); the slice,
the VNUM and the program address of a starved pipeline (R119); the slice and both pairs of VNUM and program address of a lost
lockstep, its own first (R114); both reports of a mismatched match block (R181). -/
inductive FRec where
  | none
  | timing (lch : Option Nat) (v vh : Nat)
  | starved (sl v pc : Nat)
  | lockstep (sl : Nat) (own other : Nat × Nat)
  | mismatch (one two : BlockRep)
deriving DecidableEq, Repr

/-- A source's entry in the collector (R440): STATUS, warning or fault, ECHO, TFIRST, CODE, DOMAIN, DETAIL, the (code, DETAIL) of the
condition for which its pair shows the report state (R438), broken pair and the grid time to which its levels are equal (R439), batches
stopped by its report (R446), the grid time of its last clearing (R454, 0 before one), the grid time at which the pair returns to idle by
itself (0 where an event does it), and what the record of a batch fault adds. -/
structure Src where
  status : Bool
  warn : Bool
  echo : Nat
  tfirst : Nat
  code : Nat
  domain : Nat
  detail : Nat
  level : Option (Nat × Nat)
  broken : Bool
  brokenTo : Nat
  stops : List Nat
  clearedAt : Nat
  until_ : Nat
  more : FRec
deriving DecidableEq, Repr

/-- A report as FLT_FIRST and FLT_PRELIM hold it (R445). -/
structure FltReg where
  valid : Bool
  src : Nat
  domain : Nat
  code : Nat
  settled : Bool
  replaced : Bool
deriving DecidableEq, Repr

/-- The fault collector (R434 to R450). -/
structure Faults where
  srcs : Tab Src
  first : FltReg
  prelim : FltReg
  overflow : Bool
  winEnd : Nat
  maskF : Nat
  maskW : Nat
  autorack : Nat
  cellarFirst : Option (Nat × Nat × Nat)
  cellarOvf : Bool
  cellarEcho : Nat
  cellarMask : Nat
  inject : List (Nat × Nat)
deriving DecidableEq, Repr

/-! ## Reserves (16_faults_reserves.md R452 to R458) -/

/-- A repair-map entry (R455). -/
structure MapE where
  kind : Nat
  flags : Nat
  unit : Nat
  newunit : Nat
  arg : Nat
  tods : Nat
deriving DecidableEq, Repr

/-- One copy of the repair map in flash (R455 to R457): erased, not intact, or intact with generation and entries. -/
inductive MapCopy where
  | erased
  | bad
  | ok (gen : Nat) (ents : List MapE)
deriving DecidableEq, Repr

/-- Repair state: working map and the highest generation, copies A B C, retired units and units held out as (kind, UNIT, ARG),
MAP_CONFLICT, the crossbar (LCH to cell 0 to 16 where not the factory mapping), slices served by a reserve sequencer, quadrants
whose reserve engine is racked, whether the reserve core is, reserve sequencers whose last check failed (R122), and the RACKs and
REPAIR_MAP_COMMITs whose copies are still to be written, oldest first, as (tap, SEQ, opcode, entry); tap 64 for an automatic
racking. -/
structure Repair where
  map : List MapE
  gen : Nat
  copies : List MapCopy
  retired : List (Nat × Nat × Nat)
  heldOut : List (Nat × Nat × Nat)
  conflict : Bool
  xbar : Tab Nat
  seqRes : Tab Nat
  acqRes : List Nat
  coreRes : Bool
  seqWorn : Nat
  ops : List (Nat × Nat × Nat × MapE)
deriving DecidableEq, Repr

/-! ## Event counters (18_counters_latency.md R487 to R497) -/

/-- What one function latches for its reads: the counter window (R493), with CNT_MAP as the number of the counter shown in a
slot XOR the number of the slot (0 is the reset value), and the latch of each slot (VALUE_HI, OVF), and the grid time of DEVTIME (R521). -/
structure Window64 where
  map : Tab Nat
  latch : Tab (Nat × Bool)
  devtime : Nat
deriving DecidableEq, Repr

/-! ## Power (17_power_and_start.md R459 to R474) -/

/-- A wake request (R468, R469): domain, cost, tokens held, whether its ramp has begun, its start. -/
structure Wake where
  pd : Nat
  cost : Nat
  got : Nat
  ramp : Bool
  began : Nat
deriving DecidableEq, Repr

/-- Power sequencer (R459 to R474). -/
structure Power where
  on : Nat
  queue : List Wake
  ramps : List Wake
  budget : Nat
  budgetNext : Nat
  issued : Nat
  used : Nat
  lapsed : Nat
  avail : Nat
  idlepark : Nat
  pwrfailLow : Bool
  wakeBlock : Nat
  shut : Bool
deriving DecidableEq, Repr

/-! ## DRAM (13_pattern_memory.md R349 to R374) -/

/-- A transaction (R355, R357): batch, class, address, number of 32-byte bursts, the arbiter's branch that it comes by, write. -/
structure Trans where
  b : Nat
  cls : Nat
  addr : Nat
  words : Nat
  branch : Nat
  write : Bool
deriving DecidableEq, Repr

/-- A request that has found no place yet and waits in the arbiter tree (R244, R355), with the data of a write. -/
structure Req where
  tr : Trans
  data : List Byte
deriving DecidableEq, Repr

/-- A BAR2 access that waits for a temperature retraining (R369, R407): function, offset, write, its data, the length of a read. -/
structure HostAcc where
  fn : Nat
  off : Nat
  write : Bool
  data : List Byte
  len : Nat
deriving DecidableEq, Repr

/-- One stack and its controller (R355 to R373): ECC_POLICY FREEZE, frozen with its address and the failing command with its syndrome
(the stored check bits XOR those of the word read), parked or not yet cleared, RETRAIN_DUE, full training in progress, whether it is
that of R369, pseudo-channels that train alone (R371), temperatures in 0.125 °C, PEND by pseudo-channel, requests that wait oldest first,
transactions in flight in the order of acceptance, rows that hold their bank in in-order mode (R357), the branch served last by
4 × batch + class (plus 1; R245), VF by batch, the retry buffer with serial numbers and the next serial by pseudo-channel, the command
alerted last (serial) with its alerts in succession, trainings of the command lanes by pseudo-channel (R364), the BAR2 accesses that
wait, correctable errors by row (2^24 × BANK + ROW + 2^30 × pseudo-channel) and by lane (64 × pseudo-channel + lane) with their grid
times, lane timing and eye widths by lane; `ppr`: row repairs used by bank (64 × pseudo-channel + bank). -/
structure Stack where
  freeze : Bool
  frozen : Bool
  freezeAddr : Nat
  failing : Option (Trans × Nat)
  offline : Bool
  retrainDue : Bool
  retraining : Bool
  tempTrain : Bool
  pcTrain : List Nat
  temp : Int
  trainTemp : Int
  hot85 : Bool
  pend : Tab Nat
  reqs : List Req
  flight : List Trans
  inorder : List Nat
  turn : Tab Nat
  vf : Tab Nat
  retry : Tab (List (Nat × Trans))
  serial : Tab Nat
  alerts : Tab (Nat × Nat)
  cmdTrain : Tab Nat
  held : List HostAcc
  rowCe : List (Nat × Nat)
  laneCe : List (Nat × Nat)
  track : Tab Int
  eyes : Tab Nat
  ppr : Tab Nat
deriving DecidableEq, Repr

/-- DRAM contents and tables: bytes by BAR2 offset (an unlisted byte reads 0), poisoned words (32-byte word index), stored check bits
inverted by an injection as (how many, a free number that says which; R450, R451; 3 for none in a word that an injection has led to poison), region owner (0 none) and CLEARING flag by granule
index. The 16 check bits of a word (R360) are those of its data, its poison and its address with these bits inverted: State.checkBits. -/
structure Dram where
  mem : List Host.Cell
  poison : List Nat
  flip : Tab (Nat × Nat)
  owner : Tab Nat
  clearing : List Nat
  stackTab : Tab Stack
deriving DecidableEq, Repr

/-! ## Links (15_links.md R404 to R433) -/

/-- A cellar-link port (R413 to R428). Lists by virtual lane 0 to 3. `lanes`: retired lanes (direction, lane); `replay` the
sequenced flits not yet acknowledged; `txq` those that wait for credit or room; `rx` the message being assembled per virtual
lane; `fwd` the virtual lanes in which a message is being forwarded, `late` the flits of this device's own messages that wait for its end
(R420); `syncs` the number of the next whole multiple of 10 µs to send a SYNC flit for (R425); `gotTx` SENT of the partner's AUDIT_TX
(R423); `eyes` the eye margins of the lanes at the last training, by 8 × direction + lane (R428). -/
structure Port where
  up : Bool
  retrain : Bool
  partner : Option Nat
  lanes : List (Nat × Nat)
  txSeq : Nat
  replay : List Flit
  txq : List Flit
  replays : Nat
  exp : Nat
  nak : Bool
  sent : List Nat
  relSeen : List Nat
  accepted : List Nat
  released : List Nat
  occ : List Nat
  rx : List (Nat × List Flit)
  audited : Bool
  fwd : List Nat
  late : List Flit
  syncs : Nat
  gotTx : Option (List Nat)
  eyes : Tab Nat
deriving DecidableEq, Repr

/-- Cellar membership (R16, R427): the two ports, CDEV (0xFF before enumeration), whether CELLAR_TOO_LONG keeps UP down. -/
structure Cellar where
  up : Port
  dn : Port
  cdev : Nat
  tooLong : Bool
deriving DecidableEq, Repr

/-- An Ethernet port (R409 to R412). -/
structure Eth where
  link : Bool
  addr : Nat
  plen : Nat
  en : Bool
deriving DecidableEq, Repr

/-- A rendezvous report at the deciding consensus unit (R106), with the number of the group's members on its device. -/
structure SyncRep where
  group : Nat
  dev : Nat
  b : Nat
  rdv : Nat
  timeout : Nat
  aw : Acc
  members : Nat
deriving DecidableEq, Repr

/-- A commit known to this device (R250 to R253): GROUP, EPOCH, BMASK, DMASK, T, deadline, T_c, H, the (tap, SEQ) of the
COMMIT on the issuing device with the issuing batch (0 elsewhere), the verdicts held as (device, late mask), whether this device has
fixed its own, state: 0 undecided, 1 committed. -/
structure CommitS where
  group : Nat
  epoch : Nat
  bmask : Nat
  dmask : Nat
  t : Nat
  deadline : Nat
  tc : Nat
  key : Option (Nat × Nat)
  by_ : Nat
  verdicts : List (Nat × Nat)
  fixed : Bool
  state : Nat
deriving DecidableEq, Repr

/-! ## PE control buses (15_links.md R430 to R433) -/

/-- A PE script in the store (R431): BUSMASK, SETTLE ns, ops. -/
structure Script where
  busmask : Nat
  settle : Nat
  ops : List (List Byte)
deriving DecidableEq, Repr

/-- A script run (R432, R433): script, what it serves (0 PEACT of batch b, 1 LEVELS of batch b, 2 flow step of batch b, 3 level
search of engine b, 4 racking hook for channel b), settle ns, the channel it runs for (all of them where it uses none), the channels to run
for after it, the (tap, SEQ) of LEVELS, its place in the order of dispatch (R432, R433). -/
structure PeRun where
  script : Nat
  use_ : Nat
  b : Nat
  settle : Nat
  chans : List Nat
  left : List Nat
  key : Nat × Nat
  ord : Nat
deriving DecidableEq, Repr

/-- A PE control bus: DIV, the run in progress, queued runs, runs that have ended and settle, each with the grid time when it has
settled. -/
structure Bus where
  div : Nat
  run : Option PeRun
  queue : List PeRun
  settling : List (PeRun × Nat)
deriving DecidableEq, Repr

/-! ## Interrupts and jobs (12_site_services.md R338 to R348) -/

/-- What a job does (R327 to R341): a check order for VNUM m and whether the batch has stopped since its MARK, the evaluation of a site, of a record of an engine, flow control,
a datalog record to write (TYPE, FLAGS, payload), the sending of a datalog frame, nothing more. -/
inductive Work where
  | check (m : Nat) (stopped : Bool)
  | eval (site : Nat)
  | acq (a : Nat)
  | control
  | write (type flags : Nat) (body : List Byte)
  | frame
  | done
deriving DecidableEq, Repr

/-- A job (R341): batch, flow key within the batch (0 BATCH, 1 + site, 0x201 no site, 0x202 datalog frames), priority, hardware queue,
what it does, the due tick of a deferral in µs of TOD (R343). A job of flow control is an entry of queue 0; the job of a datalog frame
belongs to queue 1, whose entries are the records (log 16). -/
structure Job where
  b : Nat
  flow : Nat
  prio : Nat
  queue : Nat
  work : Work
  due : Option Nat
deriving DecidableEq, Repr

/-- The job scheduler (R341 to R344): ready jobs oldest first, entries that wait outside a full queue, deferred jobs, cores in
service with their job, cores out of service by a fault, batch served last per priority, a core that a RACK drains (R344), the grid
time at which each core fell free last (R342), the counts of queue group 0 (R338). -/
structure Sched where
  ready : List Job
  outside : List Job
  delayed : List Job
  cores : List (Nat × Job)
  faulted : List Nat
  turn : Tab Nat
  draining : Option Nat
  freed : Tab Nat
  dev : Tab QCount
deriving DecidableEq, Repr

/-- Interrupt controller and MSI-X (R345 to R348): pending, active and active-and-pending sources, target masks by source (an
unlisted source targets the Maltster; log 14), the mask of the cores that a signal has woken (R346), per function and vector
(4 × fn + vec) mask and pending bits and the table's message address and data. -/
structure Irq where
  pending : List Nat
  active : List Nat
  again : List Nat
  targets : Tab Nat
  woken : Nat
  masked : List Nat
  msiPend : List Nat
  msiTab : Tab (Nat × Nat)
deriving DecidableEq, Repr

/-! ## PCIe (15_links.md R404 to R406) -/

/-- The PCIe configuration: NumVFs and VF Enable, the functions in D3hot, the size exponents of BAR2 of the physical function and of the
virtual functions, Max_Payload_Size and Max_Read_Request_Size in bytes, the link's lanes and its speed in 0.1 GT/s. No row writes it: a
host sets it up before it sends commands (log 69). -/
structure Pcie where
  numVfs : Nat
  vfEnable : Bool
  d3 : List Nat
  pfBar2 : Nat
  vfBar2 : Nat
  mps : Nat
  mrrs : Nat
  lanes : Nat
  speed : Nat
deriving DecidableEq, Repr

/-! ## Start-up, images and retention (17_power_and_start.md, 20_registers.md) -/

/-- A last-gasp record to be written (R258, R525): DETAIL of the PWRFAIL report, t_w in grid time and time of day, the batches that existed
at t_w, each with V_pf where it was ARMED or RUNNING. -/
structure Gasp where
  cause : Nat
  tw : Nat
  tod : Nat
  batches : List (Nat × Option Nat)
deriving DecidableEq, Repr

/-- Start-up and image state (R477 to R486), boot window (R523) with VERIFY of its last load, whether BOOT_WIN was high, retention
(R524 to R527) with the record that a warning has still to write, the boundary-scan instruction in force (R515), the patch microwords
that every sequencer holds (R115, R485; log 56). -/
structure Boot where
  ready : Bool
  bootSafe : Bool
  source : Nat
  verify : Nat
  series : Nat
  fwPatch : Nat
  ucPatch : Nat
  imglen : Nat
  digest : List Byte
  bwLen : Nat
  bwOpen : Bool
  bwBusy : Bool
  bwReqErr : Bool
  bwPersist : Bool
  bwPersistFail : Bool
  bwVerify : Nat
  bwBuf : Tab Byte
  bwStrap : Bool
  ret : Tab Byte
  retWriting : Bool
  clrRefused : Bool
  gasp : Option Gasp
  scan : Nat
  patch : List (BitVec 160)
deriving DecidableEq, Repr

/-! ## The whole block -/

/-- Every field stands under its own docstring above, or here: `served` the taps that the Maltster has served, the longest ago
first (R278); `waits` the dispatched commands that wait; `peOrd` the number of PE scripts dispatched (R433); `free` and `out` the model's own (log 10). -/
structure State where
  pending : List Instr
  tb : TimeBase
  ptp : Ptp
  clks : Tab Clk
  clkOwner : Tab Nat
  trigOut : Tab TrigOut
  trigOutOwner : Tab Nat
  trigIn : Tab TrigIn
  trigInOwner : Tab Nat
  taps : Tab Tap
  netTaps : Nat
  udpPort : Nat
  served : List Nat
  waits : List Waiter
  batches : List (Nat × Batch)
  sliceOwner : Tab Nat
  busOwner : Tab Nat
  acqOwner : Tab Nat
  acqs : Tab Acq
  tdcs : Tab Tdc
  fixture : Tab Int
  cal : Cal
  flt : Faults
  rep : Repair
  ctrs : Tab Ctr
  wins : Tab Window64
  pwr : Power
  dram : Dram
  cellar : Cellar
  eths : Tab Eth
  syncs : List SyncRep
  commits : List CommitS
  scripts : List (Nat × Script)
  buses : Tab Bus
  peOrd : Nat
  sched : Sched
  irq : Irq
  pcie : Pcie
  boot : Boot
  pace : List Nat
  paceLow : Nat
  drvPins : Tab Bool
  denPins : Tab Bool
  free : Nat
  out : List Out
deriving DecidableEq, Repr

/-! ## Values at reset -/

/-- A stopped DUT clock output in format LVDS; its FREQ has no reset value in the manual (log 3). -/
def Clk.zero : Clk := ⟨0, 0, (0, 1), none, false, false, []⟩

/-- A trigger output as R78 leaves it: offset 0 fs, width 2 ns. -/
def TrigOut.zero : TrigOut := ⟨0, 2, [], false⟩

/-- A trigger input as R320 leaves it: rising edges, posting nothing. -/
def TrigIn.zero : TrigIn := ⟨false, false⟩

/-- PTP configuration of a port before PTP_CONFIG; the manual gives no reset value (log 3). -/
def PtpPort.zero : PtpPort := ⟨0, 0, 0, 0⟩

/-- A tap after a tap reset (R260, R286). -/
def Tap.zero : Tap := ⟨[], [], 0, 0, 0, 0, 0, [], [], [], false, false, false, [], none, [], none⟩

/-- A channel that LEVELS has not set since BATCH_CREATE, which the manual gives no levels (log 3). -/
def Lvl.zero : Lvl := ⟨0, 0, 0, 1⟩

/-- All counts zero (R169). -/
def Counts.zero : Counts := ⟨0, 0, 0, 0, 0, 0, 0, 0, 0, 0, 0, 0, 0, 0, 0, 0, 0, 0, 0, 0⟩

/-- No ring placed (R156). -/
def QRing.zero : QRing := ⟨0, 0, 0, 0, 0⟩

/-- A site before any record (R162). -/
def Site.zero : Site := ⟨0, false, 0, 0, none, none, none⟩

/-- Before SITE_DEFINE (R156). -/
def SiteCfg.zero : SiteCfg := ⟨false, [], [], 0, 0, 0, 0, [], []⟩

/-- Sequencers before START. -/
def Seq.zero : Seq :=
  ⟨0, [], [], 0, false, false, 0, 0, 0, 0, none, none, none, false, [], 0, ⟨0, 0, 1⟩, none, [], 0, ⟨0, 0, 1⟩, [], [], [], [], none, 0, [], []⟩

/-- No staged item and no commit yet (R254: BATCH_CREATE sets EPOCH to 0). -/
def Epoch.zero : Epoch := ⟨0, [], 0, 0, false, none, 0, 0, 0, 0, 0, 0, [], none, false⟩

/-- No flow table loaded (R326). -/
def Flow.zero : Flow :=
  ⟨false, false, false, false, 0, 0, 0, 0, 0, 0, 0, 0, 0, [], 0, 0, false, 0, [], false, false, false, 0, false, 0, 0, [], [], 0, 0,
    [], [], false, [], false, 0, 0, none⟩

/-- Batch Bb as BATCH_CREATE makes it (R236, R126, R254): UNLOADED, every VERSION 0, every period entry unloaded. -/
def Batch.new (weight : Nat) : Batch :=
  ⟨weight, 0, 0, 0, 0, [], [], [], [], [], [], none, [], none, [], [], SiteCfg.zero, [], Seq.zero, [], [], 0, 0, 0, 0, false,
    none, false, 0, false, Counts.zero, [], [], [], [], [], [], [], [], [], [], [], Epoch.zero, Flow.zero, [], [], 0,
    1, [], [], [], none, none⟩

/-- An engine never configured (R316). -/
def Acq.zero : Acq :=
  ⟨none, false, 0, 0, [], none, none, 0, [], [], [], [], [], none, 0, 0, 0, 0, 0⟩

/-- A TDC at rest. -/
def Tdc.zero : Tdc := ⟨none, false, [], none⟩

/-- A calibration item after a cold start (R215): UNCALIBRATED, value and model nominal, never calibrated. -/
def CalItem.zero : CalItem := ⟨0, false, false, false, false, 0, 0, 0, 0, 0, [], 0, [], 0, [], 0, none, none⟩

/-- No edge gathered. -/
def FitSum.zero : FitSum := ⟨0, 0, 0, 0, 0⟩

/-- An observer with no line routed. -/
def Gather.zero : Gather := ⟨0, none, []⟩

/-- A source with clear status (R440). -/
def Src.zero : Src := ⟨false, false, 0, 0, 0, 0, 0, none, false, 0, [], 0, 0, .none⟩

/-- An empty FLT_FIRST or FLT_PRELIM (R445). -/
def FltReg.zero : FltReg := ⟨false, 0, 0, 0, false, false⟩

/-- A counter after a reset (R497). -/
def Ctr.zero : Ctr := ⟨0, false, 0, 0, 0, 0, false, 0⟩

/-- A function's counter window after a reset (R493, R497). -/
def Window64.zero : Window64 := ⟨[], [], 0⟩

/-- A stack under REPLAY, in service, no refresh postponed (R362, R358). -/
def Stack.zero : Stack :=
  ⟨false, false, 0, none, false, false, false, false, [], 0, 0, false, [], [], [], [], [], [], [], [], [], [], [], [], [], [], [], []⟩

/-- A cellar-link port that has not trained (R424). -/
def Port.zero : Port :=
  ⟨false, false, none, [], 0, [], [], 0, 0, false, [0, 0, 0, 0], [0, 0, 0, 0], [0, 0, 0, 0], [0, 0, 0, 0], [0, 0, 0, 0], [], false, [], [], 0, none, []⟩

/-- An Ethernet port after reset (R410). -/
def Eth.zero : Eth := ⟨false, 0, 0, false⟩

/-- An idle PE bus at the default DIV = 7 (R430). -/
def Bus.zero : Bus := ⟨7, none, [], []⟩

/-- Time base after a cold reset (R388, R389): REFSEL AUTO, nothing locked, all registers zero. -/
def TimeBase.zero : TimeBase :=
  ⟨0, 0, 0, 0, 0, 0, false, false, false, false, 0, true, false, false, 0, none, false, none, false, false, 0, 0, 0, 0, 0, 0, 0, 0, 0,
    [], [], 0, false, 0, 0, 0⟩

/-- Power after a cold reset (R472, R468): only PD0 and PD1 powered, budget 40, no tokens. -/
def Power.zero : Power := ⟨3, [], [], 40, 40, 0, 0, 0, 0, 0, false, 0, false⟩

/-- The PCIe configuration as a host leaves it (log 69): 16 virtual functions enabled, all functions in D0, BAR2 at its default of 2^36
bytes (R406), payloads of 512 and read requests of 4,096 bytes, 16 lanes at 32 GT/s (R404). -/
def Pcie.zero : Pcie := ⟨16, true, [], 36, 36, 512, 4096, 16, 320⟩

/-- Start-up, boot window and retention area after a power-on reset (R477, R523, R524). -/
def Boot.zero : Boot :=
  ⟨false, false, 0xFF, 1, 0, 0, 0, 0, [], 0, false, false, false, false, false, 0, [], false, [], false, false, none, 0, []⟩

/-- The block right after a cold reset (R475, R9): READY low, no batch, every register at its reset value, memory with
nothing listed, the queue of commands empty. -/
def State.reset : State where
  pending := []
  tb := TimeBase.zero
  ptp := ⟨[], [], none, 0, 0, 0, 0, 0, none, none, 0, none, []⟩
  clks := []
  clkOwner := []
  trigOut := []
  trigOutOwner := []
  trigIn := []
  trigInOwner := []
  taps := []
  netTaps := 0
  udpPort := 47290
  served := []
  waits := []
  batches := []
  sliceOwner := []
  busOwner := []
  acqOwner := []
  acqs := []
  tdcs := []
  fixture := []
  cal := ⟨[], 0, 60, [], [], [], [], [], []⟩
  flt := ⟨[], FltReg.zero, FltReg.zero, false, 0, 0x1FF, 0, 0, none, false, 0, 0, []⟩
  rep := ⟨[], 0, [.erased, .erased, .erased], [], [], false, [], [], [], false, 0, []⟩
  ctrs := []
  wins := []
  pwr := Power.zero
  dram := ⟨[], [], [], [], [], []⟩
  cellar := ⟨Port.zero, Port.zero, 0xFF, false⟩
  eths := []
  syncs := []
  commits := []
  scripts := []
  buses := []
  peOrd := 0
  sched := ⟨[], [], [], [], [], [], none, [], []⟩
  irq := ⟨[], [], [], [], 0, List.range 68, [], []⟩
  pcie := Pcie.zero
  boot := Boot.zero
  pace := List.replicate 50 0
  paceLow := 0
  drvPins := []
  denPins := []
  free := 0
  out := []

end Sys2Proof.Machine
end

