-- ==== Sys2Proof/Machine/Ops.lean ====
section
/-! DEFINITION. The named operations over the state that every family shares: time, memory, batches, counters, messages,
fault reports, the causes of a batch stop, sending on a cellar link, hardware queues. -/

namespace Sys2Proof.Machine
open Sys2Proof

/-- The outcome of every meaning: the block goes on. -/
abbrev Step := Host.Outcome State Fault Refusal

/-- One nanosecond and one microsecond in fs. -/
def ns : Nat := 1000000
def us : Nat := 1000000000

/-! ## Tables by number -/

/-- A table entry changed in place. -/
def upd {α : Type} [DecidableEq α] (d : α) (m : Tab α) (k : Nat) (f : α → α) : Tab α := m.set d k (f (m.get d k))

/-- An association list with one entry replaced or put in its place by rising key. -/
def put {α : Type} (m : List (Nat × α)) (k : Nat) (v : α) : List (Nat × α) := Tab.ins k v m

/-- An element added to a list without repeats. -/
def addOnce {α : Type} [DecidableEq α] (x : α) (l : List α) : List α := if x ∈ l then l else l ++ [x]

/-! ## Time (R31, R32, R379, R463) -/

/-- Time of day advances once per phase-clock cycle by INCR = 125,000 fs + INCR_FRAC × 2^-32 fs (R32). -/
def TimeBase.tick (tb : TimeBase) (cycles : Nat) : Nat :=
  ((tb.todRaw : Int) + cycles * (125000 * 4294967296 + tb.incrFrac)).toNat

/-- Grid time moved to t: it never moves back, and neither timescale moves while the PLL is unlocked (R379) or PD50 is
parked (R463). -/
def TimeBase.at_ (tb : TimeBase) (t : Nat) : TimeBase :=
  if tb.locked && decide (tb.now < t) then
    { tb with now := t, todRaw := tb.tick (t / cycle - tb.now / cycle) }
  else tb

/-- The state at grid time t (log 1). -/
def State.at_ (s : State) (t : Nat) : State :=
  if s.pwr.on.testBit 50 then { s with tb := s.tb.at_ t } else s

/-- The grid time now, fs. -/
def State.now (s : State) : Nat := s.tb.now

/-- The TOD of a grid time through the reference pair (R34), whole fs rounded half-even; the counter's own value for the
present cycle. -/
def TimeBase.tod (tb : TimeBase) (g : Nat) : Nat :=
  (rhe ((tb.tL : Int) * 125000 + ((g : Int) - tb.gL) * (125000 * 4294967296 + tb.incrFrac)) (125000 * 4294967296)).toNat

/-- The latch of the reference pair (R34): the present cycle's grid time and the whole TOD value with its fraction. -/
def TimeBase.latch (tb : TimeBase) : TimeBase :=
  { tb with gL := tb.now / cycle * cycle, tL := tb.todRaw }

/-- RCORR (R380). -/
def TimeBase.rcorr (tb : TimeBase) : Int := tb.refadj + if tb.crystal then tb.ageadj else 0

/-- A value that another replaces from grid time t on; the latest 64 are kept (log 64). -/
def keepPast (past : List (Nat × Int)) (t : Nat) (v : Int) : List (Nat × Int) := ((t, v) :: past).take 64

/-- The value in force at grid time t: `cur` unless a later change has replaced another. -/
def inForce (cur : Int) (past : List (Nat × Int)) (t : Nat) : Int := past.foldl (fun v p => if t < p.1 then p.2 else v) cur

/-- RCORR and ε in force at a grid time (R381, R425). -/
def TimeBase.scaleAt (tb : TimeBase) (t : Nat) : Int × Int := (inForce tb.rcorr tb.rcorrPast t, inForce tb.gscale tb.gscalePast t)

/-- GS_BUSY (R385). -/
def TimeBase.gsBusy (tb : TimeBase) : Bool := decide (tb.gscale ≠ tb.gsTarget)

/-! ## Memory (R351, R406) -/

/-- The canonical form of a memory. -/
def Memory.wf (m : List Host.Cell) : Bool := Tab.wf (0 : Byte) m

/-- One byte; an unlisted byte reads 0 (R354). -/
def Memory.read (m : List Host.Cell) (a : Nat) : Byte := Tab.get (0 : Byte) m a

/-- One byte written. -/
def Memory.write (m : List Host.Cell) (a : Nat) (v : Byte) : List Host.Cell := Tab.set (0 : Byte) m a v

/-- n bytes from an address. -/
def Memory.reads (m : List Host.Cell) (a : Nat) : Nat → List Byte
  | 0 => []
  | n + 1 => Memory.read m a :: Memory.reads m (a + 1) n

/-- Bytes written from an address upward. -/
def Memory.writes (m : List Host.Cell) (a : Nat) : List Byte → List Host.Cell
  | [] => m
  | v :: vs => Memory.writes (Memory.write m a v) (a + 1) vs

/-- The cells outside [a, a + n): a clearing writes zero (R239, R354). -/
def Memory.clear (m : List Host.Cell) (a n : Nat) : List Host.Cell := m.filter (fun c => decide (c.1 < a) || decide (a + n ≤ c.1))

/-- 16 GiB, the bytes of one stack (R349). -/
def stackSize : Nat := 17179869184

/-- The granule that holds a BAR2 offset (R352). -/
def granule (a : Nat) : Nat := a / 2097152

def State.peek (s : State) (a n : Nat) : List Byte := Memory.reads s.dram.mem a n

def State.poke (s : State) (a : Nat) (bs : List Byte) : State :=
  { s with dram := { s.dram with mem := Memory.writes s.dram.mem a bs } }

/-- Whether [a, a + n) lies wholly in granules of batch b that are not being cleared (R240, R353); batch 0 stands for the
physical function, which reaches every granule. -/
def State.inRegion (s : State) (b a n : Nat) : Bool :=
  decide (a + n ≤ 4 * stackSize) &&
  (n == 0 || (List.range (granule (a + n - 1) + 1 - granule a)).all (fun i =>
    let g := granule a + i
    decide (g ∉ s.dram.clearing) && (b == 0 || s.dram.owner.get 0 g == b)))

/-- Whether [a, a + n) of the stack of quadrant q lies in the batch's regions there. -/
def State.inStack (s : State) (b q a n : Nat) : Bool := decide (a + n ≤ stackSize) && s.inRegion b (q * stackSize + a) n

def State.stack (s : State) (q : Nat) : Stack := s.dram.stackTab.get Stack.zero q

def State.setStack (s : State) (q : Nat) (x : Stack) : State :=
  { s with dram := { s.dram with stackTab := s.dram.stackTab.set Stack.zero q x } }

/-- Whether PD d is powered (R459). -/
def State.powered (s : State) (d : Nat) : Bool := s.pwr.on.testBit d

/-- The power domain of a region that measures pace (R20, R459). -/
def paceDomain (i : Nat) : Nat := if i < 36 then 3 + i else if i < 40 then i - 1 else if i == 40 then 1 else 2

/-- The pace that a region reads: 0 while its domain is parked (R522). -/
def State.paceOf (s : State) (i : Nat) : Nat := if s.powered (paceDomain i) then s.pace.getD i 0 else 0

/-- Whether a stack takes no access now: parked, or not yet trained and cleared after a wake (R373). -/
def State.stackOffline (s : State) (q : Nat) : Bool :=
  !(s.powered (39 + q)) || !(s.powered (43 + q)) || (s.stack q).offline

/-- Tokens held by requests whose ramp has not begun (R470). -/
def Power.held (p : Power) : Nat := (p.queue.map (fun w => w.got)).sum + ((p.ramps.filter (fun w => !w.ramp)).map (fun w => w.got)).sum

/-- The next free value, and the state that has used it. -/
def State.fresh (s : State) : Nat × State := (Config.freeValue s.free, { s with free := s.free + 1 })

/-! ## Batches and what they own (R236, R237) -/

def State.batch (s : State) (b : Nat) : Option Batch := assoc s.batches b

def State.setBatch (s : State) (b : Nat) (x : Batch) : State := { s with batches := put s.batches b x }

/-- A change of an existing batch; nothing where it does not exist. -/
def State.onBatch (s : State) (b : Nat) (f : Batch → Batch) : State :=
  match s.batch b with
  | some x => s.setBatch b (f x)
  | none => s

/-- ARMED or RUNNING (R109). -/
def Batch.active (x : Batch) : Bool := x.state == 2 || x.state == 3

def State.isActive (s : State) (b : Nat) : Bool :=
  match s.batch b with
  | some x => x.active
  | none => false

/-- The batch numbers that exist and are ARMED or RUNNING. -/
def State.actives (s : State) : List Nat := (s.batches.filter (fun p => p.2.active)).map Prod.fst

/-- The slices a batch owns, ascending. -/
def State.slices (s : State) (b : Nat) : List Nat := (List.range 32).filter (fun i => s.sliceOwner.get 0 i == b)

/-- The logical channels of a batch in the order of R123. -/
def State.channels (s : State) (b : Nat) : List Nat := (s.slices b).flatMap (fun sl => (List.range 16).map (fun c => 16 * sl + c))

/-- The quadrants where a batch owns a slice. -/
def State.quads (s : State) (b : Nat) : List Nat := (List.range 4).filter (fun q => (s.slices b).any (fun sl => sl / 8 == q))

/-- Whether a batch holds a parked slice (R464). -/
def State.parkedSlice (s : State) (b : Nat) : Bool := (s.slices b).any (fun sl => !s.powered (3 + sl))

/-- Whether a batch holds a region in stack q. -/
def State.holdsStack (s : State) (b q : Nat) : Bool := s.dram.owner.any (fun p => p.2 == b && p.1 / 8192 == q)

/-- The batches that own a slice of quadrant q. -/
def State.batchesIn (s : State) (q : Nat) : List Nat :=
  (s.batches.map Prod.fst).filter (fun b => (s.slices b).any (fun sl => sl / 8 == q))

/-- The cell 0 to 16 of a logical channel under the crossbar (R13, R14), and its PCELL (R12). -/
def State.pcell (s : State) (lch : Nat) : Nat := 17 * (lch / 16) + s.rep.xbar.get (lch % 16) lch

/-- The lowest-numbered slice of a batch. -/
def State.lowSlice (s : State) (b : Nat) : Nat := (s.slices b).headD 0

/-! ## Event counters (R488, R489, R492) -/

/-- Where an event happened: batch (or the function, for class F), slice, channel, engine. -/
structure Ev where
  b : Option Nat
  sl : Option Nat
  lch : Option Nat
  acq : Option Nat

def Ev.dev : Ev := ⟨none, none, none, none⟩
def Ev.ofB (b : Nat) : Ev := ⟨some b, none, none, none⟩
def Ev.ofS (b sl : Nat) : Ev := ⟨some b, some sl, none, none⟩
def Ev.ofC (b lch : Nat) : Ev := ⟨some b, some (lch / 16), some lch, none⟩
def Ev.ofT (t : Nat) : Ev := ⟨some t, none, none, none⟩
def Ev.ofA (b a : Nat) : Ev := ⟨some b, none, none, some a⟩

/-- An addition: the sum mod 2^48, OVF set when it reaches 2^48 (R492). -/
def Ctr.add (c : Ctr) (n : Nat) : Ctr :=
  { c with value := (c.value + n) % 281474976710656, ovf := c.ovf || decide (281474976710656 ≤ c.value + n) }

/-- Whether a counter's scope holds an event (R488). -/
def Ctr.sees (c : Ctr) (e : Ev) : Bool :=
  (c.owner == 0 || e.b == some c.owner) &&
  match c.kind with
  | 0 => true
  | 1 => match e.sl with
    | some sl => c.scope.testBit sl
    | none => false
  | _ => e.lch == some c.scope || (e.lch == none && e.acq == some c.scope)

/-- n events of a source, added to every counter that watches it (R489). -/
def State.count (s : State) (src n : Nat) (e : Ev) : State :=
  { s with ctrs := s.ctrs.map (fun p => if p.2.source == src && p.2.sees e then (p.1, p.2.add n) else p) }

/-! ## Messages and frames -/

def State.emit (s : State) (o : Out) : State := { s with out := s.out ++ [o] }

/-- Whether a function exists (R405) and is in D0 (R404): only then do accesses of it reach the engine and messages leave. -/
def Pcie.up (p : Pcie) (fn : Nat) : Bool := (fn == 0 || (p.vfEnable && decide (fn ≤ p.numVfs))) && !p.d3.contains fn

/-- The size of a function's BAR2 (R406). -/
def Pcie.bar2Size (p : Pcie) (fn : Nat) : Nat := 2 ^ (if fn == 0 then p.pfBar2 else p.vfBar2)

/-- The address and data of the message of a vector, as the MSI-X table holds them (R348; log 69). -/
def Irq.message (q : Irq) (fn vec : Nat) : Nat × Nat := q.msiTab.get (0, 0) (4 * fn + vec)

/-- An MSI-X message of a function; a masked vector sets its pending bit instead (R348). -/
def State.msi (s : State) (fn vec : Nat) : State :=
  if !s.pcie.up fn then s
  else if 4 * fn + vec ∈ s.irq.masked then { s with irq := { s.irq with msiPend := addOnce (4 * fn + vec) s.irq.msiPend } }
  else s.emit (.msix fn vec)

/-- An Ethernet frame that a port does not take in (R411). -/
def State.ethDrop (s : State) : State := s.count 0x0805 1 Ev.dev

/-- The cores that a source targets, bit 0 the Maltster (R346). -/
def Irq.mask (q : Irq) (n : Nat) : Nat := q.targets.get 1 n % 1024

/-- A signal to the interrupt controller: it wakes each targeted core (R345 to R347). -/
def State.signal (s : State) (n : Nat) : State :=
  let s := { s with irq := { s.irq with woken := s.irq.woken ||| s.irq.mask n } }
  if n ∈ s.irq.again then s.count 0x0604 1 Ev.dev
  else if n ∈ s.irq.active then { s with irq := { s.irq with again := s.irq.again ++ [n] } }
  else if n ∈ s.irq.pending then s.count 0x0604 1 Ev.dev
  else { s with irq := { s.irq with pending := s.irq.pending ++ [n] } }

/-! ## Fault reports (R434 to R447, R528) -/

def State.src (s : State) (n : Nat) : Src := s.flt.srcs.get Src.zero n

def State.setSrc (s : State) (n : Nat) (x : Src) : State :=
  { s with flt := { s.flt with srcs := s.flt.srcs.set Src.zero n x } }

/-- Bit 15 of a code is INJECTED (R436). -/
def baseCode (code : Nat) : Nat := code % 32768

/-- The warnings among the codes of R436 whose kind does not depend on the state. -/
def isWarn (code : Nat) : Bool :=
  baseCode code ∈ [0x0002, 0x0018, 0x0020, 0x0021, 0x0022, 0x0032, 0x0033, 0x0034, 0x0202, 0x0203, 0x0211, 0x0221, 0x0302,
    0x0303, 0x0304, 0x0305, 0x0306, 0x0307, 0x0400, 0x0403, 0x0404, 0x0406, 0x0410, 0x0411, 0x0420, 0x0502]

/-- REFIN_LOSS and XTAL_LOSS are faults when that reference is the active one, warnings otherwise (R436). -/
def State.kindWarn (s : State) (code : Nat) : Bool :=
  if baseCode code == 0x0010 then s.tb.crystal
  else if baseCode code == 0x0011 then !s.tb.crystal
  else isWarn code

/-- The quadrant of a unit by its source (R15, R350). -/
def srcQuad (src : Nat) : Nat :=
  if src < 0x320 then (src - 0x100) / 17 / 8
  else if src < 0x360 then (src - 0x340) / 8
  else if src < 0x364 then src - 0x360
  else if src < 0x37C then (src - 0x370) / 3
  else if src < 0x388 then (src - 0x380) % 4
  else if src < 0x480 then (src - 0x400) / 32
  else (src - 0x480) % 4

/-- The cellar port of a link source (R429): a lane's or the protocol's. -/
def srcPort (src : Nat) : Nat := if src < 0x520 then (src - 0x500) / 8 % 2 else src - 0x520

/-- The cause domain a code names for a source (R435, R436). -/
def domainOf (src code : Nat) : Nat :=
  let c := baseCode code
  if c == 0x0001 then 0x0002
  else if c == 0x0010 then 0x0003
  else if c == 0x0011 then 0x0004
  else if c == 0x0012 then 0x0005
  else if c == 0x0204 || c == 0x0230 then 0x0010 + srcQuad src
  else if 0x0300 ≤ c && c ≤ 0x0307 then 0x0014 + srcQuad src
  else if 0x0400 ≤ c && c ≤ 0x0406 then 0x0030 + srcPort src
  else if c == 0x0410 || c == 0x0411 then 0x0034 + (src - 0x530)
  else if c == 0x0418 || c == 0x0419 then 0x0020 + (src - 0x550)
  else if c == 0x0500 then 0x0001
  else if 0x0100 ≤ c && c ≤ 0x010F then 0x0100 + ((src - 0x700) / 16 + 1)
  else 0x1000 + src

/-- The monitor of a domain (R435). -/
def monitor (dom : Nat) : Option Nat :=
  if dom == 0x0001 then some 0x600
  else if dom == 0x0002 then some 0x001
  else if dom == 0x0003 then some 0x010
  else if dom == 0x0004 then some 0x011
  else if dom == 0x0005 then some 0x012
  else if 0x0010 ≤ dom && dom < 0x0014 then some (0x380 + (dom - 0x0010))
  else if 0x0014 ≤ dom && dom < 0x0018 then some (0x480 + (dom - 0x0014))
  else if 0x0020 ≤ dom && dom < 0x0030 then some (0x550 + (dom - 0x0020))
  else if 0x0030 ≤ dom && dom < 0x0032 then some (0x520 + (dom - 0x0030))
  else if 0x0034 ≤ dom && dom < 0x0036 then some (0x530 + (dom - 0x0034))
  else if 0x1000 ≤ dom then some (dom - 0x1000)
  else none

/-- FLT_FIRST, FLT_PRELIM and FLT_OVERFLOW after a fault report at grid time t (R441, R442). -/
def Faults.latch (f : Faults) (src dom code t : Nat) : Faults :=
  if !f.first.valid then
    { f with first := ⟨true, src, dom, code, false, false⟩, winEnd := t + 200 * ns }
  else
    let f := { f with overflow := true }
    if !f.first.settled && !f.first.replaced && decide (t ≤ f.winEnd) && decide (f.first.src ≠ src) &&
        monitor f.first.domain == some src && decide (monitor f.first.domain ≠ some f.first.src) then
      { f with first := ⟨true, src, dom, code, false, true⟩, prelim := ⟨true, f.first.src, f.first.domain, f.first.code, false, false⟩ }
    else f

/-- Whether a source's pair shows the report state at grid time t (R438). -/
def Src.shows (x : Src) (t : Nat) : Bool := x.level.isSome && (x.until_ == 0 || decide (t < x.until_))

/-- Whether a source cannot report at grid time t: its pair is in the report state already, or broken (R438, R439). -/
def Src.deaf (x : Src) (t : Nat) : Bool := x.status && (x.broken || x.shows t)

/-- A source's entry after a report (R440). -/
def Src.latch (x : Src) (warn : Bool) (code dom detail t : Nat) : Src :=
  if x.status then { x with echo := min 0xFFFF (x.echo + 1) }
  else { x with status := true, warn := warn, echo := min 0xFFFF (x.echo + 1), tfirst := t, code := code, domain := dom, detail := detail, more := .none }

/-- A source's entry after its unit reports: only a move from idle is a report (R438); `cond` for a condition, for which the pair stays in
the report state, also that of a broken one. -/
def Src.take (x : Src) (warn : Bool) (code dom detail t : Nat) (cond : Bool) : Src :=
  if x.deaf t then (if cond && !x.shows t then { x with level := some (code, detail), until_ := 0 } else x)
  else { x.latch warn code dom detail t with level := if cond then some (code, detail) else none, until_ := 0 }

/-- A report that the collector itself takes for a source, whatever its pair shows (R439, R446, R454). -/
def State.reportNow (s : State) (src code dom detail : Nat) (warn : Bool) : State :=
  let t := s.now
  let s := s.setSrc src ((s.src src).latch warn code dom detail t)
  if warn then s else { s with flt := s.flt.latch src dom code t }

/-- A report reaches the collector (R438, R440, R441, R442, R444); `cond` for a condition that stays in the report state. -/
def State.report (s : State) (src code dom detail : Nat) (warn cond : Bool) : State :=
  let t := s.now
  let deaf := (s.src src).deaf t
  let s := s.setSrc src ((s.src src).take warn code dom detail t cond)
  if warn || deaf then s else { s with flt := s.flt.latch src dom code t }

/-- The range of a source for ERROR_MASK (R447). -/
def srcRange (src : Nat) : Nat :=
  if src < 0x100 then 0 else if src < 0x340 then 1 else if src < 0x370 then 2 else if src < 0x380 then 3
  else if src < 0x400 then 4 else if src < 0x500 then 5 else if src < 0x600 then 6 else if src < 0x700 then 7 else 8

/-- Whether the engine drives ERROR_N low (R447). -/
def Faults.drive (f : Faults) : Bool :=
  f.srcs.any (fun p => p.2.status && (if p.2.warn then f.maskW else f.maskF).testBit (srcRange p.1))

/-! ## Stops (R110 to R112, R436) -/

/-- V_h of R55: the earliest vector that has not yet begun. -/
def Batch.vh (x : Batch) : Nat := x.seq.begun

/-- The smallest boundary that any cause names (R112). -/
def Batch.stopAt (x : Batch) : Option Nat :=
  x.causes.foldl (fun m c => match m with
    | none => some c.2
    | some v => some (min v c.2)) none

/-- Vectors from V onward are withdrawn from the edge generators and queues (R110, R119). -/
def Seq.withdraw (q : Seq) (v : Nat) : Seq :=
  { q with flight := q.flight.filter (fun h => decide (h.vnum < v)), hNext := min q.hNext (max v q.begun) }

/-- A cause names the boundary v for an ARMED or RUNNING batch (R111, R112). -/
def Batch.addCause (x : Batch) (reason v : Nat) : Batch :=
  if x.active then
    { x with causes := x.causes ++ [(reason, v)], seq := x.seq.withdraw v, edges := x.edges.filter (fun e => decide (e.vnum < v)) }
  else x

/-- Batches stopped by a report at V_h (R436), remembered with the source as their own fault (R446). -/
def State.stopAll (s : State) (src reason : Nat) (bs : List Nat) : State :=
  let hit := bs.filter s.isActive
  let s := hit.foldl (fun s b => s.onBatch b (fun x => x.addCause reason x.vh)) s
  s.setSrc src { s.src src with stops := hit.foldl (fun l b => addOnce b l) (s.src src).stops }

/-- The batch of the slice that a sequencer now runs (R120, R121): a slice sequencer that is retired runs none. -/
def State.seqBatch (s : State) (src : Nat) : List Nat :=
  (s.batches.map Prod.fst).filter (fun b =>
    if src < 0x360 then s.sliceOwner.get 0 (src - 0x340) == b && s.rep.seqRes.get 0 (src - 0x340) == 0
    else s.rep.seqRes.any (fun p => p.2 == 1 && p.1 / 8 == src - 0x360 && s.sliceOwner.get 0 p.1 == b))

/-- The batches a report stops, and the reason (R436). A batch fault, and the unit reports that stop batches only through
a batch fault (R528), stop through `batchFault`. -/
def State.stopsOf (s : State) (src code : Nat) : List Nat × Nat :=
  let c := baseCode code
  let all := s.batches.map Prod.fst
  if c == 0x0001 then (all, 6)
  else if c == 0x0010 || c == 0x0011 then (if s.kindWarn code then [] else all, 5)
  else if c == 0x0012 || c == 0x0500 then (all, 5)
  else if c == 0x0040 || c == 0x0041 then
    if 0x340 ≤ src && src < 0x364 then (s.seqBatch src, 5)
    else if 0x380 ≤ src && src < 0x388 then (s.batchesIn (srcQuad src), 5)
    else if src == 0x600 || src == 0x601 || src == 0x602 then (all, 5)
    else ([], 5)
  else if c == 0x0204 || c == 0x0230 || c == 0x0231 then (s.batchesIn (srcQuad src), 5)
  else if c == 0x0210 then (s.seqBatch src, 5)
  else if c == 0x0300 then (all.filter (fun b => s.holdsStack b (srcQuad src)), 5)
  else if c == 0x0419 then (all.filter (fun b => s.busOwner.get 0 (src - 0x550) == b), 4)
  else ([], 0)

/-- The stops of a unit's report at its arrival (R436). -/
def State.stopsBy (s : State) (src : Nat) (st : List Nat × Nat) : State := if st.1.isEmpty then s else s.stopAll src st.2 st.1

/-- A unit's report with its stops at arrival (R436); a pair that cannot report stops nothing. -/
def State.raise (s : State) (src code detail : Nat) (cond : Bool) : State :=
  let u := s.report src code (domainOf src code) detail (s.kindWarn code) cond
  if (s.src src).deaf s.now then u else u.stopsBy src (s.stopsOf src code)

/-- The same for a report that the collector itself takes. -/
def State.raiseNow (s : State) (src code detail : Nat) : State :=
  (s.reportNow src code (domainOf src code) detail (s.kindWarn code)).stopsBy src (s.stopsOf src code)

/-- A report with a code whose DETAIL the manual does not state: a free value (log 9). -/
def State.raiseFree (s : State) (src code : Nat) (cond : Bool) : State :=
  let f := s.fresh
  f.2.raise src code (f.1 % 18446744073709551616) cond

/-- A unit's report that stops nothing by itself, with a DETAIL that the manual does not state (R528). -/
def State.reportFree (s : State) (src code dom : Nat) (warn cond : Bool) : State :=
  let f := s.fresh
  f.2.report src code dom (f.1 % 18446744073709551616) warn cond

/-- A condition that a source watches (R438): its onset is one report, its end returns the pair to idle. -/
def State.condition (s : State) (src code : Nat) (on : Bool) : State :=
  if on then (if (s.src src).shows s.now then s else s.raiseFree src code true)
  else s.setSrc src { s.src src with level := none }

/-- The grid time at which a source's pair returns to idle by itself (R438). -/
def State.idleAt (s : State) (src t : Nat) : State := s.setSrc src { s.src src with until_ := t }

/-- Batch fault k of Bb with a code (0x0100 + k, or its injected form, R451), the domain of the unit that caused it, DETAIL (a VNUM, R299) and
a boundary (R434, R436, R528). -/
def State.batchFaultCode (s : State) (b k code dom det v : Nat) : State :=
  match s.batch b with
  | none => s
  | some x =>
    let src := 0x700 + 16 * (b - 1) + k
    let s := s.report src code dom det false false
    let s := if x.active then s.setSrc src { s.src src with stops := addOnce b (s.src src).stops } else s
    (s.onBatch b (fun x => x.addCause 4 v)).msi b 2

/-- The same with code 0x0100 + k. -/
def State.batchFaultDet (s : State) (b k dom det v : Nat) : State := s.batchFaultCode b k (0x0100 + k) dom det v

/-- The same with what its record adds: the source's first report latches it (R440). `i` is bit 15 of the code. -/
def State.batchFaultRec (s : State) (b k dom det v : Nat) (m : FRec) (i : Nat := 0) : State :=
  let src := 0x700 + 16 * (b - 1) + k
  let t := s.batchFaultCode b k (0x0100 + k + i) dom det v
  if (s.batch b).isNone || (s.src src).status then t else t.setSrc src { t.src src with more := m }

/-- Batch fault k whose DETAIL is its boundary. -/
def State.batchFaultAt (s : State) (b k dom v : Nat) : State := s.batchFaultDet b k dom v v

/-- Batch fault k of Bb at V_h with the batch's own domain. -/
def State.batchFault (s : State) (b k : Nat) : State :=
  match s.batch b with
  | none => s
  | some x => s.batchFaultAt b k (0x0100 + b) x.vh

/-- Whether a batch has an own fault of R446 that is uncleared. -/
def State.ownFault (s : State) (b : Nat) : Bool :=
  s.flt.srcs.any (fun p => p.2.status && !p.2.warn && ((decide (0x700 + 16 * (b - 1) ≤ p.1) && decide (p.1 < 0x700 + 16 * b)) || p.2.stops.contains b))

/-! ## Hops and leads (R16, R403) -/

/-- The largest distance from c to a device of a mask. -/
def hopsFrom (c mask : Nat) : Nat := ((ones mask 64).map (fun d => if d ≤ c then c - d else d - c)).foldl max 0

/-- The largest distance between two devices of a mask. -/
def hopsIn (mask : Nat) : Nat := ((ones mask 64).map (fun c => hopsFrom c mask)).foldl max 0

/-- This device's CDEV for distances: 0 before enumeration. -/
def State.cdev (s : State) : Nat := if s.cellar.cdev == 0xFF then 0 else s.cellar.cdev

/-- Whether device c is in the cellar: reached through a port that is up, or this device. A device not yet numbered reaches none (R427). -/
def State.inCellar (s : State) (c : Nat) : Bool :=
  c == s.cdev || (s.cellar.cdev != 0xFF && ((decide (c < s.cdev) && s.cellar.up.up) || (decide (s.cdev < c) && s.cellar.dn.up)))

/-- L_start at π = 1 (R403). -/
def State.lStart (s : State) (dmask : Nat) : Nat := 1500 * ns + 960 * ns + 200 * ns * hopsFrom s.cdev dmask

/-! ## Sending on a cellar link (R413 to R426, R450) -/

/-- Port 0 is UP, port 1 DN. -/
def State.port (s : State) (p : Nat) : Port := if p == 0 then s.cellar.up else s.cellar.dn

def State.setPort (s : State) (p : Nat) (x : Port) : State :=
  if p == 0 then { s with cellar := { s.cellar with up := x } } else { s with cellar := { s.cellar with dn := x } }

/-- An entry of a list by virtual lane changed. -/
def atVl (l : List Nat) (vl : Nat) (f : Nat → Nat) : List Nat := l.mapIdx (fun i v => if i == vl then f v else v)

/-- Credits of a virtual lane (R421). -/
def Port.credits (x : Port) (vl : Nat) : Nat := 32 - (x.sent.getD vl 0 + 65536 - x.relSeen.getD vl 0) % 65536

/-- The 32 bytes of a flit (R414): a data flit carries RELEASED[CVL] in bytes 26 and 27; the CRC-32 covers bytes 0 to 27, and an injection
inverts it (R450). -/
def flitBytes (f : Flit) (badCrc : Bool) : List Byte :=
  let data := decide (1 ≤ f.ftype) && decide (f.ftype ≤ 4)
  let n := if data then 20 else 22
  let body := (f.payload ++ List.replicate n 0).take n ++ (if data then le 2 f.rel else [])
  let head := le 1 (f.ftype % 16 + 16 * (f.vl % 4)) ++ le 2 (if data then f.seq % 4096 else 0) ++
    le 2 (if f.ackv then f.ack % 4096 + 4096 else 0) ++ le 1 (f.cvl % 4)
  let c := crc32 (head ++ body)
  head ++ body ++ le 4 (if badCrc then 4294967295 - c else c)

/-- A flit leaves a port; an injection of index 2 of the port's source inverts its CRC (R450). -/
def State.sendFlit (s : State) (p : Nat) (f : Flit) : State :=
  let c := 16 * (0x520 + p) + 2
  match assoc s.flt.inject c with
  | some n =>
    let l := s.flt.inject.filter (fun q => q.1 != c)
    { s with flt := { s.flt with inject := if n ≤ 1 then l else put l c (n - 1) } }.emit (.flit p (flitBytes f true))
  | none => s.emit (.flit p (flitBytes f false))

/-- The waiting flit to send next: VL 0 first, in order within a virtual lane, with credit (R420, R421). -/
def Port.nextTx (x : Port) : Option Flit :=
  (List.range 4).findSome? (fun vl => if x.credits vl == 0 then none else x.txq.find? (fun f => f.vl == vl))

/-- Waiting flits sent for the first time, as long as credit and the replay buffer of 256 flits allow
and no audit is open (R418, R421, R423): each takes
the next SEQ, carries the ACK of the last accepted flit and RELEASED of its virtual lane. -/
def State.pump (s : State) (p : Nat) : Nat → State
  | 0 => s
  | n + 1 =>
    let x := s.port p
    if !x.up || x.retrain || !x.audited || decide (256 ≤ x.replay.length) then s
    else match x.nextTx with
      | none => s
      | some f =>
        let g := { f with seq := x.txSeq, ackv := true, ack := (x.exp + 4095) % 4096, cvl := f.vl, rel := x.released.getD f.vl 0 }
        ((s.setPort p { x with
          txq := x.txq.erase f
          txSeq := (x.txSeq + 1) % 4096
          replay := x.replay ++ [g]
          sent := atVl x.sent f.vl (fun v => (v + 1) % 65536) }).sendFlit p g).pump p n

/-- The flits of a message of this device queued at a port, behind a message that is being forwarded in their virtual lane (R420); a port
that is down carries nothing. -/
def State.queueFlits (s : State) (p : Nat) (fs : List Flit) : State :=
  let x := s.port p
  if !x.up then s
  else if fs.any (fun f => x.fwd.contains f.vl) then s.setPort p { x with late := x.late ++ fs }
  else (s.setPort p { x with txq := x.txq ++ fs }).pump p (x.txq.length + fs.length)

/-- A virtual lane in which no message is being forwarded any more: the flits that waited for its end follow (R420). -/
def Port.endFwd (x : Port) (vl : Nat) : Port :=
  { x with
    fwd := x.fwd.filter (fun v => v != vl), late := x.late.filter (fun f => f.vl != vl)
    txq := x.txq ++ x.late.filter (fun f => f.vl == vl) }

/-- A flit forwarded out of a port (R426): between its FIRST and its LAST no other message enters its virtual lane (R420). -/
def State.forwardFlit (s : State) (p : Nat) (f : Flit) : State :=
  let x := s.port p
  if !x.up then s
  else
    let y := { x with txq := x.txq ++ [{ f with seq := 0 }] }
    let y := if f.ftype == 2 then { y with fwd := addOnce f.vl y.fwd } else if f.ftype == 4 then y.endFwd f.vl else y
    (s.setPort p y).pump p y.txq.length

/-- The flits of a message (R426): DEST, SRC, MTYPE, NFLIT and the body in 20-byte pieces. The numbers of MTYPE are the
model's (log 15): 1 COMMIT, 2 verdict, 3 ABORT, 4 fault, 5 PEER_LOST, 6 rendezvous report, 7 rendezvous release, 8 a match block, 9 the
verdict of a repetition. -/
def messageFlits (dest src vl mtype : Nat) (body : List Byte) : List Flit :=
  let n := (body.length + 4 + 19) / 20
  let ps := pieces 20 n (le 1 dest ++ le 1 src ++ le 1 mtype ++ le 1 n ++ body)
  ps.mapIdx (fun i p => ⟨if n == 1 then 1 else if i == 0 then 2 else if i + 1 == n then 4 else 3, vl, 0, false, 0, 0, 0, p⟩)

/-- A message sent out of one port. -/
def State.sendMsg (s : State) (p dest vl mtype : Nat) (body : List Byte) : State :=
  s.queueFlits p (messageFlits dest s.cdev vl mtype body)

/-! ## Hardware queues and their jobs (R338 to R341) -/

/-- Entries held in a queue of batch b: ready, deferred and in service. -/
def Sched.held (c : Sched) (b q : Nat) : Nat :=
  ((c.ready ++ c.delayed ++ c.cores.map Prod.snd).filter (fun j => j.b == b && j.queue == q)).length

/-- The counts of a queue changed; group 0 is the device's (R338). -/
def State.onQueue (s : State) (b q : Nat) (f : QCount → QCount) : State :=
  if b == 0 then { s with sched := { s.sched with dev := upd ⟨0, 0, 0⟩ s.sched.dev q f } }
  else s.onBatch b (fun x => { x with qs := upd ⟨0, 0, 0⟩ x.qs q f })

/-- Whether an on-chip queue of 32 entries is full; queue 1 has its entries in the datalog ring (R338). -/
def State.queueFull (s : State) (b q : Nat) : Bool := q != 1 && decide (32 ≤ s.sched.held b q)

/-- The signal of a queue group: a queue turned non-empty (R345). -/
def State.queueSignal (s : State) (b q : Nat) : State := if s.sched.held b q == 1 then s.signal (0x820 + b) else s

/-- A job enters its queue, or waits outside a full one (R340); the job of a datalog frame is no entry of its own. -/
def State.enqueue (s : State) (j : Job) : State :=
  if j.queue == 1 then { s with sched := { s.sched with ready := s.sched.ready ++ [j] } }
  else if s.queueFull j.b j.queue then { s with sched := { s.sched with outside := s.sched.outside ++ [j] } }
  else
    let s := { s with sched := { s.sched with ready := s.sched.ready ++ [j] } }
    (s.onQueue j.b j.queue (fun c => { c with enq := c.enq + 1 })).queueSignal j.b j.queue

/-- An entry has left its queue: the first that waits outside for the place enters. -/
def State.dequeued (s : State) (b q : Nat) : State :=
  let s := if q == 1 then s else s.onQueue b q (fun c => { c with deq := c.deq + 1 })
  match s.sched.outside.find? (fun j => j.b == b && j.queue == q) with
  | some j => ({ s with sched := { s.sched with outside := s.sched.outside.erase j } }).enqueue j
  | none => s

/-- A post to the event queue (R99, R231, R320): with a flow table loaded a job of flow (b, BATCH) that writes the record;
without one it is removed as it arrives and counted (R339). -/
def State.postEvent (s : State) (b prio type : Nat) (body : List Byte) : State :=
  match s.batch b with
  | none => s
  | some x =>
    if x.flow.loaded then s.enqueue ⟨b, 0, prio, 0, .write type 0 body, none⟩
    else
      (s.onQueue b 0 (fun c => { c with enq := c.enq + 1, deq := c.deq + 1 })).count 0x0601 1 (Ev.ofB b)


/-! ## Sites (R155, R165) -/

/-- The site ID of a channel given its place in the order of R123; 0x200 for no site. -/
def SiteCfg.siteAt (c : SiteCfg) (i : Nat) : Nat := c.siteOf.getD i 0x200

def SiteCfg.site (c : SiteCfg) (i : Nat) : Site := c.sites.get Site.zero i

/-- Whether a site is in fail-off for vector v (R165), by an order whose V_off has not begun too; channels of no site never are. -/
def SiteCfg.offAt (c : SiteCfg) (i v : Nat) : Bool :=
  decide (i < 512) && ((c.site i).off.any (fun p => decide (p.1 ≤ v)) || c.pend.any (fun q => q.1.contains i && decide (q.2.1 ≤ v)))

end Sys2Proof.Machine
end

