-- ==== Sys2Proof/Machine/Mem.lean ====
section
/-! DEFINITION. The words of the pattern memory: the address map, the 16 check bits, what a read of a word meets, poisoning, freezing,
wear, and the stores that every unit makes (13_pattern_memory.md R351, R352, R360 to R365, R370; 16_faults_reserves.md R450, R451). -/

namespace Sys2Proof.Machine
open Sys2Proof

/-! ## The address map (R351) -/

def aPc (a : Nat) : Nat := bits a 11 7
def aRow (a : Nat) : Nat := bits a 33 21
/-- BANK = 16 × SID + 4 × BG + BA. -/
def aBank (a : Nat) : Nat := 16 * bits a 20 19 + 4 * bits a 18 17 + bits a 16 15
/-- The stack of a BAR2 offset (R406). -/
def aStack (a : Nat) : Nat := bits a 35 34
/-- The source of the pseudo-channel of a BAR2 offset (R350). -/
def pcSrc (a : Nat) : Nat := 0x400 + 32 * aStack a + aPc a

/-- Key of a bank in a stack: 64 × pseudo-channel + BANK; of a row: 2^24 × bank key + ROW. -/
def bankKey (a : Nat) : Nat := 64 * aPc a + aBank a
def rowKey (a : Nat) : Nat := bankKey a * 16777216 + aRow a

/-- ADDRTAG (R360): XOR of the six 5-bit groups of the extended word address. -/
def addrTag (a : Nat) : Nat :=
  let w := bits a 33 5
  bits w 4 0 ^^^ bits w 9 5 ^^^ bits w 14 10 ^^^ bits w 19 15 ^^^ bits w 24 20 ^^^ bits w 29 25

/-! ## Injected checks (R451) -/

/-- Injected checks still to come of a checker (R451). -/
def State.injected (s : State) (checker : Nat) : Nat := (assoc s.flt.inject checker).getD 0

/-- One injected check has failed. -/
def State.useInject (s : State) (checker : Nat) : State :=
  let n := s.injected checker
  let l := s.flt.inject.filter (fun p => p.1 != checker)
  { s with flt := { s.flt with inject := if n ≤ 1 then l else put l checker (n - 1) } }

/-! ## The code of a word (R360) -/

/-- The XOR of a number's first n bits. -/
def parity (v n : Nat) : Nat := (ones v n).length % 2

/-- HAM over the 256 data bits and check bits [15:10]; the columns of the code are the controller's (log 61). -/
def hamBits (data hi : Nat) : Nat :=
  ((ones data 256).map Config.hamCol ++ (ones hi 6).map (fun j => Config.hamCol (256 + j))).foldl (fun c x => c ^^^ x.toNat) 0

/-- The 16 check bits of a word: HAM, PAR, POISON, ADDRTAG. -/
def wordCode (data : Nat) (poison : Bool) (tag : Nat) : Nat :=
  let hi := b2n poison + 2 * tag
  let h := hamBits data hi
  h + 512 * ((parity data 256 + parity h 9 + parity hi 6) % 2) + 1024 * hi

/-- The bits of a word that an injection has inverted: one or two of its check bits, which the manual does not name (R450; log 61). -/
def inverted (f : Nat × Nat) : List Nat :=
  match f.1 with
  | 0 | 3 => []
  | 1 => [256 + f.2 % 16]
  | _ => [256 + f.2 % 16, 256 + (f.2 % 16 + 1 + f.2 / 16 % 15) % 16]

/-- A mask of bit positions from `lo`, below `hi`. -/
def bitMask (l : List Nat) (lo hi : Nat) : Nat := ((l.filter (fun i => decide (lo ≤ i) && decide (i < hi))).map (fun i => 2 ^ (i - lo))).foldl (· ^^^ ·) 0

/-- The data of a stored word as a number, byte 0 lowest. -/
def State.wordData (s : State) (w : Nat) : Nat := unle (Memory.reads s.dram.mem (32 * w) 32)

/-- The 16 check bits stored with word w (R360). -/
def State.checkBits (s : State) (w : Nat) : Nat :=
  wordCode (s.wordData w) (decide (w ∈ s.dram.poison)) (addrTag (32 * w)) ^^^ bitMask (inverted (s.dram.flip.get (0, 0) w)) 256 272

/-- No error beyond what is stored. -/
def noErr : DramErr := ⟨[], 0, false⟩

/-- The bits of word w that a read finds inverted: those inverted in the store and those of the read, each once. -/
def State.wrongBits (s : State) (w : Nat) (e : DramErr) : List Nat :=
  let i := inverted (s.dram.flip.get (0, 0) w)
  i.filter (fun n => !e.flips.contains n) ++ e.flips.filter (fun n => !i.contains n)

/-- The syndrome of a read of word w: the check bits read XOR those computed from the data read and the address (R360, R363). -/
def State.syndrome (s : State) (w : Nat) (e : DramErr) : Nat :=
  let wrong := s.wrongBits w e
  let tag := addrTag (32 * w) ^^^ e.tag % 32
  let poison := decide (w ∈ s.dram.poison)
  let read := wordCode (s.wordData w) poison tag ^^^ bitMask wrong 256 272
  let data := s.wordData w ^^^ bitMask wrong 0 256
  let hi := read / 1024
  let h := hamBits data hi
  let par := (parity data 256 + parity (read % 512) 9 + parity hi 6) % 2
  (read % 512 ^^^ h) + 512 * ((read / 512 + par) % 2) + 2048 * (e.tag % 32)

/-- What the check of a word finds (R360, R361): nothing, one wrong bit, an uncorrectable error. -/
inductive Checked where
  | clean
  | one (bit : Nat)
  | bad
deriving DecidableEq, Repr

/-- The check of word w: one wrong bit is corrected, two are detected, and a word whose code is otherwise clean but whose ADDRTAG differs is
uncorrectable. What the code makes of three or more is not stated: a free value `u` decides (log 61). -/
def State.checkOf (s : State) (w : Nat) (e : DramErr) (u : Nat) : Checked :=
  match s.wrongBits w e with
  | [] => if e.tag % 32 == 0 then .clean else .bad
  | [i] => if e.tag % 32 == 0 then .one i else .bad
  | [_, _] => .bad
  | i :: _ => if e.tag % 32 == 0 && u % 2 == 1 then .one i else .bad

/-- The lane of a wrong bit (R371): data lanes 0 to 31, check-bit lanes 32 and 33, over the eight beats of a burst (log 61). -/
def laneOf (i : Nat) : Nat := if i < 256 then i % 32 else 32 + i % 2

/-! ## Wear (R361, R370) -/

/-- Times of one key within a span before now. -/
def recent (l : List (Nat × Nat)) (key now span : Nat) : Nat := (l.filter (fun p => p.1 == key && decide (now < p.2 + span))).length

/-- DRAM_ROW_WEAR of the row of an address; `i` is bit 15 of the code where an injection is the cause. -/
def State.rowWear (s : State) (a i : Nat) : State :=
  s.report (pcSrc a) (0x0306 + i) (0x0014 + aStack a) (aBank a * 16777216 + aRow a) true false

/-- Whether an injection stands behind what a word shows: inverted bits, or the POISON that came of them (R451). -/
def State.injWord (s : State) (w : Nat) : Bool := decide ((s.dram.flip.get (0, 0) w).1 ≠ 0)

/-- Bit 15 of the codes that a word's errors are reported with. -/
def State.injBit (s : State) (w : Nat) : Nat := if s.injWord w then 32768 else 0

/-- A word stored anew without inverted bits. -/
def State.unflip (s : State) (w : Nat) : State := { s with dram := { s.dram with flip := s.dram.flip.del w } }

/-- A correctable error at an address in one bit (R361, R370): counted, written back, with the row and lane wear warnings. -/
def State.correctable (s : State) (a bit : Nat) : State :=
  let q := aStack a
  let i := s.injBit (a / 32)
  let s := (if (s.dram.flip.get (0, 0) (a / 32)).1 == 3 then s else s.unflip (a / 32)).count 0x0700 1 Ev.dev
  let k := s.stack q
  let lk := 64 * aPc a + laneOf bit
  let k := { k with rowCe := k.rowCe ++ [(rowKey a, s.now)], laneCe := k.laneCe ++ [(lk, s.now)] }
  let s := s.setStack q k
  let s := if 16 ≤ recent k.laneCe lk s.now (3600 * second) then s.reportFree (pcSrc a) (0x0305 + i) (0x0014 + aStack a) true false else s
  if 4 ≤ recent k.rowCe (rowKey a) s.now (86400 * second) then s.rowWear a i else s

/-! ## Freezing and poisoning (R362, R363, R365) -/

/-- The stack stops with DRAM_FREEZE and the address in DETAIL; the controller keeps its queues, the failing command and the syndrome
(R363). -/
def State.freezeStack (s : State) (q addr code : Nat) (cmd : Trans) (syn : Nat) : State :=
  let k := s.stack q
  if k.frozen then s
  else (s.setStack q { k with frozen := true, freezeAddr := addr, failing := some (cmd, syn) }).raise (0x480 + q) code addr false

/-- POISON set in a stored word, with a code that is clean otherwise (R365). -/
def State.poisonWord (s : State) (a : Nat) : State :=
  let w := a / 32
  { s with dram := { s.dram with
      poison := addOnce w s.dram.poison
      flip := if s.injWord w then s.dram.flip.set (0, 0) w (3, 0) else s.dram.flip } }

/-- Who reads a word (R365): a vector, sparge, descriptor or loop-store copy read of a batch with the VNUM of the vector concerned, FAIL_READ,
a reader of a capture, acquisition or datalog ring, the host through BAR2, the engine itself (STAGE and command data). -/
inductive Use where
  | play (b v : Nat)
  | fail
  | ring
  | host
  | engine
deriving DecidableEq, Repr

/-- What a consumer of poison does beyond its own answer (R365, R55, R528): the batch halts at V_h, and its record holds the vector
concerned in place of the offending edge's; a ring's reader and the host count. -/
def State.usePoison (s : State) (u : Use) (a i : Nat) : State :=
  match u with
  | .play b v =>
    match s.batch b with
    | some x => s.batchFaultRec b 13 (0x0014 + aStack a) v x.vh (.timing none v x.vh) i
    | none => s
  | .ring | .host => s.count 0x0703 1 Ev.dev
  | .fail | .engine => s

/-- A demand read that meets an uncorrectable error or an ADDRTAG mismatch (R362, R363, R365). -/
def State.demandUe (s : State) (u : Use) (cmd : Trans) (a syn : Nat) : State :=
  let q := aStack a
  let i := s.injBit (a / 32)
  if (s.stack q).freeze then (s.freezeStack q (a % stackSize) (0x0300 + i) cmd syn).rowWear a i
  else (((s.poisonWord a).raiseFree (pcSrc a) (0x0301 + i) false).rowWear a i).usePoison u a i

/-- A read of a word already poisoned reports the poison again (R365); under either policy (DESIGN CHOICE, log 61). -/
def State.poisonRead (s : State) (u : Use) (a : Nat) : State :=
  (s.raiseFree (pcSrc a) (0x0301 + s.injBit (a / 32)) false).usePoison u a (s.injBit (a / 32))

/-- The check of the word at an address that a command reads (R360 to R365, R349). -/
def State.readCheck (s : State) (u : Use) (cmd : Trans) (a : Nat) (e : DramErr) : State :=
  let s := if e.sev then s.count 0x0704 1 Ev.dev else s
  let f := if 3 ≤ (s.wrongBits (a / 32) e).length then s.fresh else (0, s)
  let syn := s.syndrome (a / 32) e
  match s.checkOf (a / 32) e f.1 with
  | .bad => f.2.demandUe u cmd a syn
  | .one i => if a / 32 ∈ s.dram.poison then (f.2.correctable a i).poisonRead u a else f.2.correctable a i
  | .clean => if a / 32 ∈ s.dram.poison then s.poisonRead u a else s

/-- The words of [a, a + n) that a read does not find clean: those with inverted bits, those with POISON. -/
def State.marked (s : State) (a n : Nat) : List Nat :=
  let hit := fun (w : Nat) => decide (a / 32 ≤ w) && decide (w * 32 < a + n)
  let n := fun (w : Nat) => (s.dram.flip.get (0, 0) w).1
  (s.dram.flip.map Prod.fst).filter (fun w => hit w && n w != 3) ++ s.dram.poison.filter (fun w => hit w && (n w == 0 || n w == 3))

/-- Whether a read of [a, a + n) meets an uncorrectable error or poison. -/
def State.poisoned (s : State) (a n : Nat) : Bool :=
  (s.marked a n).any (fun w => w ∈ s.dram.poison || (s.dram.flip.get (0, 0) w).1 == 2)

/-- The checks of every word that a read of [a, a + n) for a batch meets. -/
def State.checkWords (s : State) (u : Use) (b cls a n : Nat) : State :=
  (s.marked a n).foldl (fun s w => s.readCheck u ⟨b, cls, 32 * w, 1, 0, false⟩ (32 * w) noErr) s

/-- A read that a unit makes for batch b: outside the batch's regions it is not performed, with the batch fault MEM_BOUNDS (R240); on a
frozen stack it is not either (R363); else every word is checked and its bytes are returned. -/
def State.fetch (s : State) (u : Use) (b cls a n : Nat) : State × Option (List Byte) :=
  if !s.inRegion b a n then (s.batchFault b 9, none)
  else if (s.stack (aStack a)).frozen then (s, none)
  else (s.checkWords u b cls a n, some (s.peek a n))

/-- Several such reads in turn. -/
def State.fetches (s : State) (u : Use) (b cls : Nat) (slots : List (Nat × Nat)) : State :=
  slots.foldl (fun s p => (s.fetch u b cls p.1 p.2).1) s

/-- The bytes that they bring: zeros for one that is not performed (log 61). -/
def State.fetched (s : State) (b a n : Nat) : List Byte := if s.inRegion b a n then s.peek a n else List.replicate n 0

/-! ## Stores (R361, R451) -/

/-- A word written in full is clean again (R361); one written under an injection of its pseudo-channel has one or two of its check bits
inverted (R450, R451). -/
def State.writeWord (s : State) (a : Nat) : State :=
  let w := a / 32
  let c2 := 16 * pcSrc a + 2
  let c3 := 16 * pcSrc a + 3
  let s := s.unflip w
  let s := { s with dram := { s.dram with poison := s.dram.poison.filter (fun x => x != w) } }
  let put_ := fun (c n : Nat) =>
    let f := (s.useInject c).fresh
    { f.2 with dram := { f.2.dram with flip := f.2.dram.flip.set (0, 0) w (n, f.1) } }
  if 0 < s.injected c3 then put_ c3 2 else if 0 < s.injected c2 then put_ c2 1 else s

/-- A write of up to 32 bytes within one word (R361). A partial one is a read-modify-write: refused on a word that reads uncorrectable or
poisoned, and its read corrects a single wrong bit. A frozen stack takes no command, and FAULT_CLEAR discards what waits for it (R363). -/
def State.storeWord (s : State) (a : Nat) (data : List Byte) : State :=
  let full := data.length == 32 && a % 32 == 0
  if (s.stack (aStack a)).frozen then s
  else if !full && s.poisoned a 1 then (s.poisonWord a).count 0x0701 1 Ev.dev
  else
    let s := if !full && (s.dram.flip.get (0, 0) (a / 32)).1 == 1 then s.correctable a ((s.wrongBits (a / 32) noErr).headD 0) else s
    (s.poke a data).writeWord a

/-- The bytes of a write up to the next word boundary, word by word. -/
def storeBytes (s : State) (a : Nat) (data : List Byte) : Nat → State
  | 0 => s
  | n + 1 =>
    let k := 32 - a % 32
    if data.isEmpty then s else storeBytes (s.storeWord a (data.take k)) (a + k) (data.drop k) n

/-- Bytes stored from an address upward. -/
def State.store (s : State) (a : Nat) (data : List Byte) : State := storeBytes s a data (data.length + 1)

/-- Bytes stored for batch b: outside its regions the access is not performed (R240). -/
def State.storeFor (s : State) (b a : Nat) (data : List Byte) : State :=
  if s.inRegion b a data.length then s.store a data else s.batchFault b 9

end Sys2Proof.Machine
end

