-- ==== Sys2Proof/Machine/Cmd.lean ====
section
/-! DEFINITION. Taps and their commands: completions, the duplicate history's part in them, the opcode table, and the frame that every
tap command shares, from the checks of R276 to its completion (10_taps.md R259 to R291). -/

namespace Sys2Proof.Machine
open Sys2Proof

/-! ## Taps and completions (R259 to R287) -/

def State.tap (s : State) (t : Nat) : Tap := s.taps.get Tap.zero t

def State.setTap (s : State) (t : Nat) (x : Tap) : State := { s with taps := s.taps.set Tap.zero t x }

def two32 : Nat := 4294967296

/-- Status codes (R281). -/
def OK := 0x0000
def ACCEPTED := 0x0001
def eOpcode := 0x0101
def eLength := 0x0102
def eSequence := 0x0103
def eRange := 0x0201
def eAlign := 0x0202
def eReserved := 0x0203
def eEncoding := 0x0204
def eOwner := 0x0301
def eBusy := 0x0302
def eState := 0x0303
def eLatency := 0x0401
def eTiming := 0x0402
def eBandwidth := 0x0403
def eAuth := 0x0501
def eTooLate := 0x0601
def eCancelled := 0x0602
def eResource := 0x0701
def eHw := 0x0801
def eEpoch := 0x0901

/-- The 64 bytes of a completion (R272). -/
def Cpl.bytes (c : Cpl) : List Byte :=
  le 4 c.seq ++ le 2 c.status ++ le 2 c.flags ++ le 2 c.opcode ++ le 2 c.target ++ le 4 c.rlen ++
    (c.result ++ List.replicate 48 0).take 48

/-- The header of a tap frame (R283). -/
def tapHead (type tap dlen : Nat) : List Byte := le 2 0xA71C ++ le 1 1 ++ le 1 type ++ le 1 tap ++ le 1 0 ++ le 2 dlen ++ le 8 0

/-- A completion sent to the source of a frame (R283), or put into the ring slot of completion number k with
PHASE = (floor(k / 64) + 1) mod 2 (R263, R267) with its message on vector 0 (R348). -/
def State.deliver (s : State) (t : Nat) (c : Cpl) (inl : List Byte) (net : Option NetSrc) : State :=
  let x := s.tap t
  if x.netMode then
    match net with
    | some src => s.emit (.frame src.port src.addr 2 (be 2 src.udp ++ tapHead 2 t inl.length ++ c.bytes ++ inl))
    | none => s
  else
    let c := { c with flags := c.flags + 32768 * ((x.cplTail / 64 + 1) % 2) }
    (s.setTap t { x with cpls := put x.cpls (x.cplTail % 64) c, cplTail := (x.cplTail + 1) % two32 }).msi t 0

/-- A completion with DUPLICATE for each resubmission of a list (R275, R277). -/
def State.deliverDups (s : State) (t : Nat) (c : Cpl) (inl : List Byte) : List (Option NetSrc) → State
  | [] => s
  | n :: ns => ((s.deliver t { c with flags := c.flags ||| 1 } inl n).count 0x0502 1 ⟨some t, none, none, none⟩).deliverDups t c inl ns

/-- The history's entry for a SEQ. -/
def Tap.histOf (x : Tap) (seq : Nat) : Option Hist := x.hist.find? (fun e => e.seq == seq)

/-- A completion posted for the command with its SEQ: delivered to the ring, or to the source of the latest submission, kept
as the history's latest completion (R274), and once as DUPLICATE for each resubmission held (R277). The entry of a command that
the history has pushed out serves until its final completion; a command that came by no frame (log 5) is answered at the source
of the tap's latest frame. -/
def State.post (s : State) (t : Nat) (c : Cpl) (inl : List Byte) : State :=
  let x := s.tap t
  match x.histOf c.seq with
  | none =>
    match x.old.find? (fun e => e.seq == c.seq) with
    | none => s.deliver t c inl x.lastSrc
    | some e =>
      let old := if c.status == ACCEPTED then x.old.map (fun e => if e.seq == c.seq then { e with cpl := some c, dups := [] } else e)
        else x.old.filter (fun e => e.seq != c.seq)
      ((s.setTap t { x with old := old }).deliver t c inl e.net).deliverDups t c inl e.dups
  | some e =>
    let s := s.deliver t c inl e.net
    let x := s.tap t
    let s := s.setTap t { x with hist := x.hist.map (fun e => if e.seq == c.seq then { e with cpl := some c, inl := inl, dups := [] } else e) }
    s.deliverDups t c inl e.dups

/-- A completion discarded at a reset of its tap (R286). Taps numbered 32 + t hold what tap t had dispatched when it was
reset: nothing completes there. -/
def State.discarded (s : State) (t n : Nat) : State := s.count 0x0504 n ⟨some (t % 32), none, none, none⟩

/-- The final completion of an asynchronous command (R273), with `n` bytes written to its data block, or sent as `inl` (R271);
where the tap holds none with that SEQ, a reset of the tap has come before, and the completion is discarded and counted
(R286). -/
def State.finishData (s : State) (t seq status flags : Nat) (result : List Byte) (n : Nat) (inl : List Byte) : State :=
  let x := s.tap t
  match x.asyncs.find? (fun a => a.seq == seq) with
  | some a =>
    (s.setTap t { x with asyncs := x.asyncs.filter (fun a => a.seq != seq) }).post t
      ⟨seq, status, flags, a.opcode, a.target, result.length + n, result⟩ inl
  | none => s.discarded t 1

def State.finish (s : State) (t seq status flags : Nat) (result : List Byte) : State := s.finishData t seq status flags result 0 []

/-- The final completion of a command that waited for an event (R278, R291): of a synchronous one it is the first, and the
tap may dispatch again. Result data go to the completion frame when the reference is inline, else they are in the block
already (R271, R283). -/
def State.finishWait (s : State) (w : Waiter) (status flags : Nat) (result data : List Byte) (inl : Bool) : State :=
  let c : Cpl := ⟨w.seq, status, flags, w.opcode, w.target, result.length + data.length, result⟩
  let x := s.tap w.tap
  if w.async then
    if x.asyncs.any (fun a => a.seq == w.seq) then
      (s.setTap w.tap { x with asyncs := x.asyncs.filter (fun a => a.seq != w.seq) }).post w.tap c (if inl then data else [])
    else s.discarded w.tap 1
  else if x.running == some w.seq then
    (s.setTap w.tap { x with running := none }).post w.tap c (if inl then data else [])
  else s.discarded w.tap 1

/-- What an opcode is (R289): device command, kind (0 sync, 1 async, 2 either, 3 at take), payload LENGTH, LIVE defined. -/
structure OpInfo where
  device : Bool
  kind : Nat
  length : Nat
  live : Bool

/-- The opcode table of R289. -/
def opInfo (op : Nat) : Option OpInfo :=
  match op with
  | 0x0001 => some ⟨true, 0, 0, false⟩
  | 0x0002 => some ⟨true, 0, 8, false⟩
  | 0x0003 => some ⟨true, 1, 0, false⟩
  | 0x0004 => some ⟨true, 0, 16, false⟩
  | 0x0005 => some ⟨true, 2, 8, false⟩
  | 0x0006 => some ⟨true, 1, 8, false⟩
  | 0x0007 => some ⟨true, 1, 8, false⟩
  | 0x0008 => some ⟨true, 0, 24, false⟩
  | 0x0009 => some ⟨true, 0, 8, false⟩
  | 0x000A => some ⟨true, 0, 32, false⟩
  | 0x000B => some ⟨true, 0, 32, false⟩
  | 0x000C => some ⟨true, 1, 64, false⟩
  | 0x000D => some ⟨true, 0, 24, false⟩
  | 0x000E => some ⟨true, 0, 0, false⟩
  | 0x000F => some ⟨true, 0, 24, false⟩
  | 0x0010 => some ⟨true, 0, 8, false⟩
  | 0x0011 => some ⟨true, 0, 8, false⟩
  | 0x0100 => some ⟨false, 0, 16, true⟩
  | 0x0101 => some ⟨false, 0, 8, false⟩
  | 0x0102 => some ⟨false, 2, 32, false⟩
  | 0x0103 => some ⟨false, 2, 40, false⟩
  | 0x0104 => some ⟨false, 0, 32, false⟩
  | 0x0105 => some ⟨false, 2, 32, false⟩
  | 0x0106 => some ⟨false, 1, 48, false⟩
  | 0x0107 => some ⟨false, 0, 0, false⟩
  | 0x0108 => some ⟨false, 0, 16, false⟩
  | 0x0109 => some ⟨false, 2, 80, false⟩
  | 0x010A => some ⟨false, 0, 24, false⟩
  | 0x010B => some ⟨false, 0, 80, true⟩
  | 0x010C => some ⟨false, 0, 16, false⟩
  | 0x010D => some ⟨false, 0, 24, false⟩
  | 0x010E => some ⟨false, 2, 16, false⟩
  | 0x010F => some ⟨false, 0, 32, false⟩
  | 0x0110 => some ⟨false, 0, 16, false⟩
  | 0x0111 => some ⟨false, 0, 32, false⟩
  | 0x0112 => some ⟨false, 1, 32, false⟩
  | 0x0113 => some ⟨false, 0, 32, false⟩
  | 0x0114 => some ⟨false, 0, 8, false⟩
  | 0x0115 => some ⟨false, 3, 8, false⟩
  | 0x0116 => some ⟨false, 0, 24, false⟩
  | _ => none

/-- The batch a batch command acts on (R270). -/
def cmdBatch (h : Hdr) : Nat := if h.tap == 0 then h.target else h.tap

/-- What a command's own part answers: its status, the state it leaves (the state it met for a status that has no effect),
RESULT, bytes for the data block, completion flags, whether ACCEPTED posts now and the final completion later, and the
event a synchronous command waits for. -/
structure Res where
  st : Nat
  s : State
  result : List Byte
  data : List Byte
  flags : Nat
  async : Bool
  wait : Option WaitFor

/-- A check failed: the status, no effect (R281). -/
def Res.err (s : State) (st : Nat) : Res := ⟨st, s, [], [], 0, false, none⟩

/-- Done, with RESULT and data. -/
def Res.ok (s : State) (result data : List Byte) : Res := ⟨OK, s, result, data, 0, false, none⟩

/-- Checks passed; the final completion follows. -/
def Res.acc (s : State) : Res := ⟨ACCEPTED, s, [], [], 0, true, none⟩

/-- Done once an event comes. -/
def Res.wait_ (s : State) (w : WaitFor) : Res := ⟨OK, s, [], [], 0, false, some w⟩

/-- The first failing check of a list of (broken, status), in order (R290). -/
def firstErr : List (Bool × Nat) → Option Nat
  | [] => none
  | (true, st) :: _ => some st
  | (false, _) :: m => firstErr m

/-- Checks in order, then the effect. -/
def checked (s : State) (cs : List (Bool × Nat)) (r : Res) : Res :=
  match firstErr cs with
  | some st => Res.err s st
  | none => r

/-- The checks of one data reference (R271). `inp`: the engine reads the block. -/
def State.refErr (s : State) (h : Hdr) (inp : Bool) (r : DRef) : Option Nat :=
  if r.inl then
    firstErr [(r.addr != 0, eRange), (!(s.tap h.tap).netMode, eRange), (inp && decide (h.inl.length < r.len), eLength),
      (decide (8960 < r.len), eLength)]
  else firstErr [(r.addr % 64 != 0, eAlign), (r.len != 0 && !s.inRegion h.tap r.addr r.len, eRange)]

/-- The bytes of a command's data block. -/
def State.dataIn (s : State) (h : Hdr) (r : DRef) : List Byte := if r.inl then h.inl.take r.len else s.peek r.addr r.len

/-- Whether a data block cannot be read (R365): a word of it is poisoned or reads uncorrectable, or its stack is frozen (DESIGN CHOICE,
log 61). -/
def State.unreadable (s : State) (r : DRef) : Bool :=
  !r.inl && r.len != 0 && (s.poisoned r.addr r.len || (s.stack (aStack r.addr)).frozen)

/-- The checks of the words of the blocks that the engine reads for a command (R361 to R365). -/
def State.readRefs (s : State) (h : Hdr) (refs : List (DRef × Bool)) : State :=
  refs.foldl (fun s r =>
    if r.2 && !r.1.inl && !(s.stack (aStack r.1.addr)).frozen then s.checkWords .engine h.tap 3 r.1.addr r.1.len else s) s

/-- Whether batch Bb exists for a command: from BATCH_CREATE to the dispatch of BATCH_DESTROY (R236, R294). -/
def State.exists_ (s : State) (b : Nat) : Bool :=
  match s.batch b with
  | some x => x.destroying.isNone
  | none => false

/-- The checks of R276 that a dispatched command meets before its own. -/
def State.hdrErr (s : State) (h : Hdr) (op : Nat) (i : OpInfo) : Option Nat :=
  firstErr [(h.live && !i.live, eReserved), (h.async && i.kind != 2, eReserved),
    (h.tap != 0 && i.device, eOwner), (h.tap != 0 && h.target != 0 && h.target != h.tap, eOwner),
    (decide (16 < h.target), eRange),
    (op != 0x0002 && cmdBatch h != 0 && !s.exists_ (cmdBatch h), eState),
    (!i.device && op != 0x0110 && op != 0x0115 && cmdBatch h == 0, eState)]

/-- Whether the taps take commands (R287): READY high; in the boot-safe state tap 0 alone. -/
def State.takes (s : State) (tap : Nat) : Bool := s.boot.ready && (!s.boot.bootSafe || tap == 0)

/-- ACCEPTED (R273): the command joins the asynchronous ones of its tap. -/
def State.accept (s : State) (h : Hdr) (op : Nat) : State :=
  let x := s.tap h.tap
  (s.setTap h.tap { x with asyncs := x.asyncs ++ [⟨h.seq, op, h.target⟩] }).post h.tap
    ⟨h.seq, ACCEPTED, 0, op, h.target, 0, []⟩ []

/-- Result data of a command in its data block (R271). -/
def State.putData (s : State) (ref : Option DRef) (data : List Byte) : State :=
  match ref with
  | some d => if d.inl then s else s.store d.addr data
  | none => s

/-- A dispatched command's completions, and what it leaves open (R273, R278, R291). -/
def State.settle (h : Hdr) (op : Nat) (r : Res) (outRef : Option DRef) : State :=
  match r.wait with
  | some w =>
    let v : Waiter := ⟨h.tap, h.seq, op, h.target, cmdBatch h, h.async, w⟩
    let s := { r.s with waits := r.s.waits ++ [v] }
    if h.async then s.accept h op
    else s.setTap h.tap { s.tap h.tap with running := some h.seq }
  | none =>
    if r.async then r.s.accept h op
    else
      let s := r.s.putData outRef r.data
      let inl := if outRef.any (fun d => d.inl) then r.data else []
      let c : Cpl := ⟨h.seq, r.st, r.flags, op, h.target, r.result.length + r.data.length, r.result⟩
      if h.async && r.st == OK then
        let s := s.accept h op
        let x := s.tap h.tap
        (s.setTap h.tap { x with asyncs := x.asyncs.filter (fun a => a.seq != h.seq) }).post h.tap c inl
      else s.post h.tap c inl

/-- Whether a tap has a command ready for the Maltster: the previous one has posted its first completion (R278). -/
def State.dispatchable (s : State) (tap : Nat) : Bool := s.takes tap && (s.tap tap).running.isNone && !(s.tap tap).dq.isEmpty

/-- When a tap was served last, by its place among the taps served: 0 for one never served. -/
def State.servedAt (s : State) (tap : Nat) : Nat :=
  match s.served.idxOf? tap with
  | some i => i + 1
  | none => 0

/-- Whether tap k has its turn before another: served longer ago, the lower number among those never served (R278; the order is the model's,
log 4). -/
def State.ahead (s : State) (k tap : Nat) : Bool := decide (s.servedAt k < s.servedAt tap) || (s.servedAt k == s.servedAt tap && decide (k < tap))

/-- Whether the Maltster dispatches a tap's next command: the tap takes commands, its previous one has posted its first completion, and no
tap with a command ready has its turn before (R278). -/
def State.dispatches (s : State) (tap : Nat) : Bool :=
  s.takes tap && (s.tap tap).running.isNone && (List.range 17).all (fun k => !(s.dispatchable k && s.ahead k tap))

/-- Whether a command with an opcode is handled now: CANCEL as its tap takes it, without a queue or a turn (R279), any other in its tap's
turn (R278). -/
def State.handles (s : State) (op tap : Nat) : Bool := if op == 0x0115 then s.takes tap else s.dispatches tap

/-- A tap command as the Maltster dispatches it (R276, R287, R290, R273): the header checks, the data references in payload
order, the payload's reserved fields, then the opcode's own part. `refs` lists the references with whether the engine reads
them, and the i-th function of `len` tells whether the LEN of the i-th breaks the opcode's own length rule; `outRef` is where
result data go. Out of its tap's turn, and before READY, nothing happens (R278). The place of E_RESOURCE of R273 among the checks, here before
the data references, is the model's (DESIGN CHOICE, log 70). -/
def State.runCmd (s : State) (h : Hdr) (op : Nat) (refs : List (DRef × Bool)) (outRef : Option DRef) (own : State → Res)
    (len : List (State → Bool) := []) : State :=
  if !s.handles op h.tap then s
  else
    let s := s.at_ h.t
    match opInfo op with
    | none => s.post h.tap ⟨h.seq, eOpcode, 0, op, h.target, 0, []⟩ []
    | some i =>
      let fail := fun st => s.post h.tap ⟨h.seq, st, 0, op, h.target, 0, []⟩ []
      if s.boot.bootSafe && op != 0x0001 && op != 0x000E then fail eAuth
      else match s.hdrErr h op i with
        | some st => fail st
        | none =>
          if i.kind == 1 && decide (16 ≤ (s.tap h.tap).asyncs.length) || h.async && decide (16 ≤ (s.tap h.tap).asyncs.length) then
            fail eResource
          else match (refs.mapIdx (fun i r => (i, r))).findSome? (fun r => (s.refErr h r.2.2 r.2.1).or
              (if (len[r.1]?).any (fun f => f s) then some eLength else none)) with
            | some st => fail st
            | none =>
              if h.rsv || refs.any (fun r => r.1.rsv) then fail eReserved
              else
                let u := s.readRefs h refs
                if refs.any (fun r => r.2 && s.unreadable r.1) then u.post h.tap ⟨h.seq, eHw, 0, op, h.target, 0, []⟩ []
                else State.settle h op (own u) outRef

/-- Waiters that an event completes, in the order they began to wait, all with one status and RESULT. -/
def State.release (s : State) (p : Waiter → Bool) (st flags : Nat) (result : List Byte) : State :=
  (s.waits.filter p).foldl (fun s w => s.finishWait w st flags result [] false) { s with waits := s.waits.filter (fun w => !p w) }

end Sys2Proof.Machine
end

