-- ==== Sys2Proof/Machine/Faults.lean ====
section
/-! DEFINITION. The fault collector: reports, the window of the first report, broken pairs, messages of the cellar, reading
and clearing, injection, pace (16_faults_reserves.md R434 to R451; R20, R22). Racking stands in Rack.lean. -/

namespace Sys2Proof.Machine
open Sys2Proof

/-- Whether a number lies in [lo, hi]. -/
def within (v lo hi : Nat) : Bool := decide (lo ≤ v) && decide (v ≤ hi)

/-- Assigned source identifiers (R434, R350, R412, R429). -/
def srcAssigned (src : Nat) : Bool :=
  src == 0x001 || src == 0x002 || src == 0x004 || src == 0x005 || within src 0x010 0x012 || within src 0x018 0x01F ||
  within src 0x020 0x028 || src == 0x030 || src == 0x031 || within src 0x100 0x31F || within src 0x340 0x363 ||
  within src 0x370 0x37B || within src 0x380 0x387 || within src 0x400 0x48B ||
  (within src 0x500 0x51F && decide (src % 8 ≤ 4)) || src == 0x520 || src == 0x521 || src == 0x530 || src == 0x531 || src == 0x540 ||
  within src 0x550 0x55F || within src 0x600 0x602 || within src 0x608 0x610 || within src 0x700 0x7FF

/-- Units with self-timed logic (R450). -/
def selfTimed (src : Nat) : Bool :=
  within src 0x100 0x31F || within src 0x340 0x363 || within src 0x370 0x37B || within src 0x380 0x387 ||
  within src 0x480 0x483 || within src 0x600 0x602 || within src 0x608 0x610

/-- Whether a unit's report may carry a code (R434, R436, R450). LINK_CREDIT_AUDIT, LINK_DOWN, GRID_MISMATCH, PEER_LOST and PE_SCRIPT_FAIL
come with the events that cause them and with their batch faults (R528): AUDIT_RX, LINK_DOWN, SYNC_FLIT_RX, PEER_LOST, PE_SCRIPT_DONE. -/
def canReport (src code : Nat) : Bool :=
  let c := baseCode code
  srcAssigned src &&
  if c == 0x0001 then src == 0x001
  else if c == 0x0002 then src == 0x004
  else if c == 0x0003 then src == 0x005
  else if c == 0x0004 then src == 0x002
  else if within c 0x0010 0x0012 then src == c
  else if c == 0x0018 then within src 0x018 0x01F
  else if c == 0x0020 || c == 0x0021 then within src 0x018 0x01F || within src 0x020 0x027
  else if c == 0x0022 then src == 0x028
  else if c == 0x0030 then src == 0x030
  else if within c 0x0031 0x0033 then src == 0x031
  else if c == 0x0034 then within src 0x100 0x37B || within src 0x608 0x610
  else if c == 0x0040 then true
  else if c == 0x0041 then selfTimed src
  else if within c 0x0100 0x010F then within src 0x700 0x7FF && src % 16 == c % 16
  else if within c 0x0200 0x0204 then within src 0x100 0x31F
  else if c == 0x0210 then within src 0x340 0x363
  else if c == 0x0211 then within src 0x360 0x363
  else if c == 0x0220 || c == 0x0221 then within src 0x370 0x37B
  else if c == 0x0230 then within src 0x380 0x383
  else if c == 0x0231 then within src 0x384 0x387
  else if c == 0x0300 then within src 0x480 0x483
  else if within c 0x0301 0x0306 then within src 0x400 0x47F
  else if c == 0x0307 then within src 0x488 0x48B
  else if c == 0x0401 || c == 0x0402 || c == 0x0405 || c == 0x0408 || c == 0x0418 then false
  else if within c 0x0400 0x0407 then within src 0x500 0x521
  else if c == 0x0410 || c == 0x0411 then src == 0x530 || src == 0x531
  else if c == 0x0419 then within src 0x550 0x55F
  else if c == 0x0420 then src == 0x540
  else if c == 0x0500 then src == 0x600
  else if c == 0x0501 || c == 0x0502 then within src 0x608 0x610
  else false

/-- The checker whose inverted bits a unit's injected report comes from (R450): 16 × source + index. -/
def checkerOf (src code : Nat) : Nat :=
  16 * src + if baseCode code == 0x0040 then 0 else if baseCode code == 0x0041 then 1 else 2

/-- An acquisition engine disarmed: an open record window is dropped with it (R196). -/
def Acq.disarm (a : Acq) : Acq := { a with armed := false, window := none }

/-- A job that runs again after a core fault: a check order has acted at its dispatch and does not act twice. -/
def Job.again (j : Job) : Job :=
  match j.work with
  | .check .. => { j with work := .done }
  | _ => j

/-- CORE_FAULT (R437): the job in service returns to the head of its flow, and the core takes no job until FAULT_CLEAR. -/
def coreFault (s : State) (core : Nat) : State :=
  let jobs := (s.sched.cores.filter (fun p => p.1 == core)).map (fun p => p.2.again)
  { s with sched := { s.sched with
      ready := jobs ++ s.sched.ready
      cores := s.sched.cores.filter (fun p => p.1 != core)
      faulted := addOnce core s.sched.faulted } }

/-- BROKEN_REPORT (R439): two checks found equal levels, and the pair shows unequal levels in two checks again at `until_`. An
injection of index 0 over at least two checks of 10 ns makes the one report of R451; its pair is whole again two checks after the
last one inverted. -/
def brokenReport (s : State) (src t until_ : Nat) : State :=
  if !srcAssigned src || (s.src src).broken then s
  else
    let s := s.at_ t
    let n := s.injected (16 * src)
    let inj := decide (2 ≤ n)
    let s := if inj then { s with flt := { s.flt with inject := s.flt.inject.filter (fun p => p.1 != 16 * src) } } else s
    let f := s.fresh
    let s := f.2.raiseNow src (if inj then 0x8040 else 0x0040) (f.1 % 18446744073709551616)
    s.setSrc src { s.src src with broken := true, brokenTo := if inj then s.now + 10 * ns * n else until_ }

def execBrokenReport (src t until_ : Nat) (s : State) : Step := .next (brokenReport s src t until_)

/-- Whether this device is the root of R448: CDEV 0, or no partner is reached through UP. -/
def State.isRoot (s : State) : Bool := s.cellar.cdev == 0 || !s.cellar.up.up

/-- A domain as it travels (R448): a cellar-link port's is the partner's CDEV. -/
def State.travelDomain (s : State) (dom : Nat) : Nat :=
  if dom == 0x0030 then 0x0080 + s.cellar.up.partner.getD 0
  else if dom == 0x0031 then 0x0080 + s.cellar.dn.partner.getD 0
  else dom

/-- A message latched at the root (R448): the first latches CELLAR_FIRST. -/
def State.cellarLatch (s : State) (dev src dom : Nat) (message : Bool) : State :=
  let f := s.flt
  let s := { s with flt := { f with cellarMask := setBit f.cellarMask dev } }
  match f.cellarFirst with
  | none =>
    let s := { s with flt := { s.flt with cellarFirst := some (dev, src, dom), cellarEcho := 1 } }
    if message then s.msi 0 1 else s
  | some (_, _, d) =>
    if d == dom && within dom 0x0080 0x00BF then { s with flt := { s.flt with cellarEcho := min 0xFFFF (s.flt.cellarEcho + 1) } }
    else if d == dom then s
    else { s with flt := { s.flt with cellarOvf := true } }

/-- FAULT_WINDOW_CLOSE (R443, R448): SETTLED, one signal, one message on vector 1, one message toward CDEV 0. The root
latches its own report without a second vector 1 message (log 12). -/
def windowClose (s : State) (t : Nat) : State :=
  let f := s.flt.first
  if !f.valid || f.settled || decide (t < s.flt.winEnd) then s
  else
    let s := s.at_ t
    let s := { s with flt := { s.flt with first := { f with settled := true } } }
    let s := (s.signal f.src).msi 0 1
    let dom := s.travelDomain f.domain
    if s.cellar.cdev == 0xFF then s
    else if s.isRoot then s.cellarLatch s.cdev f.src dom false
    else
      let tf := (s.src f.src).tfirst
      s.sendMsg 0 0 2 4 (le 1 s.cdev ++ le 2 f.src ++ le 2 dom ++ le 2 f.code ++ timeBytes tf)

def execFaultWindowClose (t : Nat) (s : State) : Step := .next (windowClose s t)

/-- CELLAR_FAULT_MSG (R448): a message latched at the root; another device only forwards its flits (R426). -/
def cellarFaultMsg (s : State) (dev src dom : Nat) : State := if s.isRoot then s.cellarLatch dev src dom true else s

def execCellarFaultMsg (dev src dom : Nat) (s : State) : Step := .next (cellarFaultMsg s dev src dom)

/-- The devices at or beyond c for a device that hears of c through a port (R449): 0 UP toward CDEV 0, 1 DN. -/
def beyond (port c : Nat) : List Nat := if port == 0 then List.range (c + 1) else (List.range 64).filter (fun d => decide (c ≤ d))

/-- The active batches whose START DMASK names a device of a list (R424, R449). -/
def State.batchesNaming (s : State) (devs : List Nat) : List Nat :=
  (s.batches.filter (fun p => p.2.active && devs.any (fun d => p.2.dmask.testBit d))).map Prod.fst

/-- Batch fault k of several batches at V_h with one domain (R528). -/
def State.batchFaults (s : State) (k dom : Nat) (bs : List Nat) : State :=
  bs.foldl (fun s b => match s.batch b with
    | some x => s.batchFaultAt b k dom x.vh
    | none => s) s

/-- What PEER_LOST does at a device (R449, R528): a report from the arrival port's source, batches stopped. -/
def State.lostPeer (s : State) (port c : Nat) : State :=
  let s := s.reportFree (0x520 + port) 0x0408 (0x0080 + c) false false
  s.batchFaults 15 (0x0080 + c) (s.batchesNaming (beyond port c))

/-- PEER_LOST (R449): the whole message as one event, forwarded out of the other port; the flits of one that FLIT_RX_DATA brings are forwarded
as they come (R426), and it acts the same. -/
def peerLost (s : State) (port c t : Nat) : State := ((s.at_ t).sendMsg (1 - port) 0xFF 2 5 (le 1 c)).lostPeer port c

def execPeerLost (port c t : Nat) (s : State) : Step := .next (peerLost s port c t)

/-- ERRORN_STUCK (R447): DRIVE = 1 with LEVEL = 1 for 1 µs; not while boundary scan holds the ball (R515). -/
def errornStuck (s : State) (t : Nat) : State :=
  if s.flt.drive && s.boot.scan == 0 then (s.at_ t).raiseFree 0x028 0x0022 false else s

def execErrornStuck (t : Nat) (s : State) : Step := .next (errornStuck s t)

/-- PCIE_AER (R436). -/
def execPcieAer (t : Nat) (s : State) : Step := .next ((s.at_ t).raiseFree 0x540 0x0420 false)

/-- A window of pace, 1.024 µs. -/
def paceSpan : Nat := 1024000000

/-- PACE_WINDOW_END (R20, R22, R522), at a whole multiple of 1.024 µs: new values for every region, LOWMASK, PACE_LOW. A parked region reads
0 and raises nothing. -/
def paceWindow (s : State) (vals : List Nat) (t : Nat) : State :=
  if t % paceSpan ≠ 0 then s
  else
  let s := s.at_ t
  let vals := (List.range 50).map (fun i => if s.powered (paceDomain i) then vals.getD i 0 else 0)
  let low := (List.range 50).filter (fun i => decide (vals.getD i 0 < 0x1000) && s.powered (paceDomain i))
  let mask := ((List.range 50).filter (fun i => decide (vals.getD i 0 < 0x1000))).foldl (fun m i => m + 2 ^ i) 0
  let s := { s with pace := vals, paceLow := mask }
  s.condition 0x005 0x0003 (!low.isEmpty)

def execPaceWindowEnd (vals : List Nat) (t : Nat) (s : State) : Step := .next (paceWindow s vals t)

/-! ## FAULT_READ and FAULT_CLEAR (R299, R446) -/

/-- A 32-byte entry of FAULT_READ. -/
def faultEntry (p : Nat × Src) : List Byte :=
  le 2 p.1 ++ le 2 p.2.domain ++ le 2 p.2.echo ++ le 2 p.2.code ++ timeBytes p.2.tfirst ++ le 8 p.2.detail

/-- FLT_FIRST or FLT_PRELIM's SRC, 0xFFFF when VALID is clear (R445). -/
def FltReg.srcOr (f : FltReg) : Nat := if f.valid then f.src else 0xFFFF

/-- FAULT_READ (R299). FIRST[15:12] is reserved (R292). -/
def cmdFaultRead (h : Hdr) (first count : Nat) (data : DRef) (s : State) : State :=
  s.runCmd { h with rsv := h.rsv || decide (4095 < first) } 0x0008 [(data, false)] (some data) fun s =>
    checked s [(count == 0 || decide (4096 < count), eRange), (decide (data.len < 32 * count), eLength)] (
      let all := s.flt.srcs.filter (fun p => p.2.status && decide (first ≤ p.1))
      let out := all.take count
      Res.ok s
        (le 2 s.flt.first.srcOr ++ le 2 s.flt.prelim.srcOr ++ le 1 (b2n s.flt.overflow) ++ le 3 0 ++ le 4 out.length ++
          le 4 (all.length - out.length))
        (out.flatMap faultEntry))

def execFaultRead (h : Hdr) (first count : Nat) (data : DRef) (s : State) : Step := .next (cmdFaultRead h first count data s)

/-! ## INJECT (R304, R450, R451) -/

/-- Whether a unit has a checker of an index (R450). -/
def hasChecker (src index : Nat) : Bool :=
  srcAssigned src &&
  match index with
  | 0 => true
  | 1 => selfTimed src
  | 2 =>
    within src 0x100 0x31F || within src 0x340 0x363 || within src 0x370 0x37B || within src 0x608 0x610 || src == 0x600 ||
    within src 0x400 0x47F || within src 0x480 0x483 || src == 0x520 || src == 0x521
  | 3 => within src 0x400 0x47F
  | _ => false

/-- INJECT: a new one of the same checker replaces the remaining count. -/
def cmdInject (h : Hdr) (checker count : Nat) (s : State) : State :=
  s.runCmd h 0x0010 [] none fun s =>
    checked s [(!hasChecker (checker / 16) (checker % 16) || count == 0, eRange)]
      (Res.ok { s with flt := { s.flt with inject := put s.flt.inject checker count } } (le 2 (checker / 16)) [])

def execInject (h : Hdr) (checker count : Nat) (s : State) : Step := .next (cmdInject h checker count s)

end Sys2Proof.Machine
end

