-- ==== Sys2Proof/Machine/Dram.lean ====
section
/-! DEFINITION. The pattern memory: requests, returns, error policies, refresh, scrubbing, training, host accesses
(13_pattern_memory.md R349 to R374; R244, R245, R407). Bandwidth and latency have no place in a model without durations
(Scope); the accounting of R244 that decides between batches is kept. -/

namespace Sys2Proof.Machine
open Sys2Proof

/-! ## Weighted sharing (R244) -/

/-- Count a precedes count b when (a − b) mod 2^40 ≥ 2^39. -/
def vfBefore (a b : Nat) : Bool := decide (549755813888 ≤ (a + 1099511627776 - b) % 1099511627776)

/-- c_b of one 32-byte transfer. -/
def vfCost (w : Nat) : Nat := (rhe 16777216 (max 1 w)).toNat

/-- VF of a batch that begins to request again: the later of its own and the least among batches with requests pending. -/
def Stack.vfStart (k : Stack) (b : Nat) : Nat :=
  let own := k.vf.get 0 b
  if k.reqs.any (fun r => r.tr.b == b) then own
  else
    let least := (k.reqs.filter (fun r => r.tr.b != 0)).foldl (fun m r => match m with
      | none => some (k.vf.get 0 r.tr.b)
      | some v => if vfBefore (k.vf.get 0 r.tr.b) v then some (k.vf.get 0 r.tr.b) else some v) none
    match least with
    | none => own
    | some v => if vfBefore own v then v else own

/-- A request joins those that wait in the arbiter tree; that of a batch with none waiting sets its VF first. -/
def Stack.asks (k : Stack) (r : Req) : Stack :=
  { k with reqs := k.reqs ++ [r], vf := if r.tr.b == 0 then k.vf else k.vf.set 0 r.tr.b (k.vfStart r.tr.b) }

/-- A grant of 32-byte transfers to batch b; none for tap 0 and the engine (R245). -/
def State.grant (s : State) (q b words : Nat) : State :=
  if b == 0 then s
  else match s.batch b with
    | none => s
    | some x =>
      let k := s.stack q
      s.setStack q { k with vf := k.vf.set 0 b ((k.vf.get 0 b + words * vfCost x.weight) % 1099511627776) }

/-- Whether branch c has its turn before branch d, the branch served last being `last` - 1 (0 for none): the branches beyond it come
first, in ascending order (R245; the order within a turn is the model's, log 37). -/
def turnBefore (last c d : Nat) : Bool :=
  if decide (last ≤ c) == decide (last ≤ d) then decide (c < d) else decide (last ≤ c)

/-- Whether a request goes before another that came earlier (R244, R245): traffic of tap 0 and the engine before the batches' (log 37), then
the batch with the least VF, then the lower batch number, then the lower class, then the branch whose turn it is. -/
def Stack.before (k : Stack) (r m : Trans) : Bool :=
  if r.b == 0 || m.b == 0 then r.b == 0 && m.b != 0
  else if r.b == m.b then
    (if r.cls == m.cls then turnBefore (k.turn.get 0 (4 * r.b + r.cls)) r.branch m.branch else decide (r.cls < m.cls))
  else
    let v := k.vf.get 0 r.b
    let w := k.vf.get 0 m.b
    vfBefore v w || (v == w && decide (r.b < m.b))

/-- Whether a request finds a place in its pseudo-channel: 32, of which four are kept for class 0 (R355); a pseudo-channel that trains
takes none (R371). -/
def Stack.room (k : Stack) (r : Req) : Bool :=
  let pc := aPc r.tr.addr
  !k.pcTrain.contains pc &&
  decide ((k.flight.filter (fun x => aPc x.addr == pc)).length < if r.tr.cls == 0 then 32 else 28)

/-- The waiting request that the arbiter forwards next. -/
def Stack.choose (k : Stack) : Option Req :=
  (k.reqs.filter k.room).foldl (fun m r => match m with
    | none => some r
    | some x => if k.before r.tr x.tr then some r else some x) none

/-! ## Requests and returns -/

/-- The banks that go to in-order mode (R357): the request addresses the row of a write accepted and not yet drained. -/
def Stack.sameRow (k : Stack) (a : Nat) : Bool := k.flight.any (fun t => t.write && rowKey t.addr == rowKey a)

/-- Whether the bank of an address serves its requests in the order of acceptance (R357). -/
def Stack.inOrder (k : Stack) (a : Nat) : Bool := k.inorder.any (fun r => r / 16777216 == bankKey a)

/-- A command as the controller issues it: in flight, last in the retry buffer of 64 (R364), its branch served (R245). -/
def Stack.issue (k : Stack) (x : Trans) : Stack :=
  let pc := aPc x.addr
  let n := k.serial.get 0 pc
  let buf := k.retry.get [] pc ++ [(n, x)]
  { k with
    flight := k.flight ++ [x]
    inorder := if k.sameRow x.addr then addOnce (rowKey x.addr) k.inorder else k.inorder
    turn := k.turn.set 0 (4 * x.b + x.cls) (x.branch + 1)
    serial := k.serial.set 0 pc (n + 1)
    retry := k.retry.set [] pc (buf.drop (buf.length - 64)) }

/-- The controller of stack q accepts a request that the arbiter forwards (R244, R353, R357): its granules are checked against the region
table before any command. -/
def State.takeReq (s : State) (q : Nat) (r : Req) : State :=
  let x := r.tr
  if !s.inRegion x.b (x.addr / 32 * 32) (32 * x.words) then (if x.b == 0 then s else s.batchFault x.b 9)
  else
    let s := s.grant q x.b x.words
    let k := s.stack q
    let switch := k.sameRow x.addr && !k.inOrder x.addr
    let s := s.setStack q (k.issue x)
    let s := if switch then s.count 0x0705 1 Ev.dev else s
    if x.write then s.store x.addr r.data else s

/-- The arbiter of stack q forwards the requests that find a place, in the order of R244 and R245; n bounds their number. -/
def State.arbitrate (s : State) (q : Nat) : Nat → State
  | 0 => s
  | n + 1 =>
    let k := s.stack q
    if s.stackOffline q || k.frozen || k.retraining then s
    else match k.choose with
      | none => s
      | some r => ((s.setStack q { k with reqs := k.reqs.erase r }).takeReq q r).arbitrate q n

/-- All that a stack can take now. -/
def State.serve (s : State) (q : Nat) : State := s.arbitrate q (s.stack q).reqs.length

/-- The bytes that a transaction moves from an address on. -/
def opSize (op : DramOp) (a : Nat) : Nat :=
  match op with
  | .read n => 32 * n - a % 32
  | .write d => d.length

/-- The request of a DRAM_REQUEST. -/
def opReq (op : DramOp) (b cls a branch : Nat) : Req :=
  let words := (a % 32 + opSize op a + 31) / 32
  match op with
  | .read _ => ⟨⟨b, cls, a, words, branch, false⟩, []⟩
  | .write d => ⟨⟨b, cls, a, words, branch, true⟩, d⟩

/-- Whether a transaction stays within one aligned 128-byte block (R355). -/
def blockOk (a n : Nat) : Bool := n != 0 && decide (a % 128 + n ≤ 128)

/-- DRAM_REQUEST (R240, R245, R355, R357): a request that finds no place, or whose stack takes none now, waits in the arbiter tree. -/
def dramRequest (s : State) (b cls a branch : Nat) (op : DramOp) (t : Nat) : State :=
  let s := s.at_ t
  let q := aStack a
  if (b != 0 && (s.batch b).isNone) || !blockOk a (opSize op a) then s
  else if !s.inRegion b a (opSize op a) then
    if b == 0 then s else s.batchFault b 9
  else (s.setStack q ((s.stack q).asks (opReq op b cls a branch))).serve q

def execDramRequest (b cls addr branch : Nat) (op : DramOp) (t : Nat) (s : State) : Step :=
  .next (dramRequest s b cls addr branch op t)

/-- The first transaction of a list at an address, and the list without it. -/
def takeTrans (a : Nat) : List Trans → Option (Trans × List Trans)
  | [] => none
  | t :: ts => if t.addr == a then some (t, ts) else (takeTrans a ts).map (fun r => (r.1, t :: r.2))

/-- The stack after a transaction has ended: a bank leaves in-order mode once every such write has drained (R357). -/
def Stack.left (k : Stack) (left : List Trans) : Stack :=
  { k with flight := left, inorder := k.inorder.filter (fun r => left.any (fun t => t.write && rowKey t.addr == r)) }

/-- Who a transaction reads for (R245, R365). -/
def Trans.use (x : Trans) (v : Nat) : Use :=
  match x.cls with
  | 0 => if x.b == 0 then .engine else .play x.b v
  | 1 => .fail
  | 2 => .ring
  | _ => .host

/-- The checks of a read's words in turn; a freeze ends them. -/
def State.readBack (s : State) (x : Trans) (r : DramRet) : State :=
  (List.range x.words).foldl (fun s i =>
    if (s.stack (aStack x.addr)).frozen then s
    else s.readCheck (x.use r.v) x ((x.addr / 32 + i) * 32) (r.errs.getD i noErr)) s

/-- DRAM_READ_RETURN (R357, R361 to R365): the first transaction at an address ends. A read brings its words back; a write drains
(log 13). In a bank in in-order mode only the one accepted first can end; a frozen stack keeps its queues. -/
def readReturn (s : State) (a : Nat) (r : DramRet) (t : Nat) : State :=
  let q := aStack a
  let k := s.stack q
  match takeTrans a k.flight with
  | none => s
  | some (x, left) =>
    if k.frozen || (k.inOrder a && k.flight.find? (fun y => bankKey y.addr == bankKey a) != some x) then s
    else
      let s := (s.at_ t).setStack q (k.left left)
      (if x.write then s else s.readBack x r).serve q

def execDramReadReturn (addr : Nat) (r : DramRet) (t : Nat) (s : State) : Step := .next (readReturn s addr r t)

/-- DRAM_PARITY_ALERT (R362, R364) of the command with serial n of the retry buffer, from which every command is reissued. Three alerted
replays of one command in succession train the command lanes and replay once more; when that replay is alerted too, the stack freezes
whatever its policy. -/
def parityAlert (s : State) (q pc t n : Nat) : State :=
  let s := s.at_ t
  let k := s.stack q
  let c := 16 * (0x480 + q) + 2
  let inj := decide (0 < s.injected c)
  let i := (k.alerts.get (0, 0) pc)
  let m := if i.1 == n + 1 then i.2 + 1 else 1
  let code := if inj then 0x8300 else 0x0300
  match (k.retry.get [] pc).find? (fun p => p.1 == n) with
  | none => s
  | some (_, x) =>
    if k.frozen || s.stackOffline q then s
    else
      let s := if inj then s.useInject c else s
      if k.freeze || 5 ≤ m then (s.setStack q { k with alerts := k.alerts.del pc }).freezeStack q (x.addr % stackSize) code x 0
      else (s.setStack q { k with
        alerts := k.alerts.set (0, 0) pc (n + 1, m)
        cmdTrain := if m == 4 then upd 0 k.cmdTrain pc (· + 1) else k.cmdTrain }).count 0x0702 1 Ev.dev

def execDramParityAlert (stack pc t n : Nat) (s : State) : Step := .next (parityAlert s stack pc t n)

/-- Whether a class-0 request of a pseudo-channel waits or is in flight (R358). -/
def Stack.busy (k : Stack) (pc : Nat) : Bool :=
  let p := fun (x : Trans) => x.cls == 0 && aPc x.addr == pc
  k.flight.any p || k.reqs.any (fun r => p r.tr)

/-- REFRESH_DUE (R358, R359): a refresh falls due, and is postponed, forced or issued at once; or, with `post`, a t_RFC has passed in which
one postponed refresh can be issued. -/
def refreshDue (s : State) (q pc : Nat) (post : Bool) : State :=
  let k := s.stack q
  let n := k.pend.get 0 pc
  if post then (if k.busy pc then s else s.setStack q { k with pend := k.pend.set 0 pc (n - 1) })
  else if !k.busy pc then s
  else if n < 8 then (s.setStack q { k with pend := k.pend.set 0 pc (n + 1) }).count 0x0706 1 Ev.dev
  else s.count 0x0707 1 Ev.dev

def execRefreshDue (stack pc : Nat) (post : Bool) (s : State) : Step := .next (refreshDue s stack pc post)

/-- PATROL_SCRUB (R366, R362): a correctable word is written back, an uncorrectable one poisoned. -/
def patrolScrub (s : State) (a : Nat) (e : DramErr) (t : Nat) : State :=
  let s := s.at_ t
  let k := s.stack (aStack a)
  if s.stackOffline (aStack a) || k.frozen || k.retraining || k.pcTrain.contains (aPc a) then s
  else
    let s := if e.sev then s.count 0x0704 1 Ev.dev else s
    let f := if 3 ≤ (s.wrongBits (a / 32) e).length then s.fresh else (0, s)
    let i := s.injBit (a / 32)
    match s.checkOf (a / 32) e f.1 with
    | .bad => ((f.2.poisonWord a).raiseFree (pcSrc a) (0x0302 + i) false).rowWear a i
    | .one n => f.2.correctable a n
    | .clean => s

def execPatrolScrub (addr : Nat) (e : DramErr) (t : Nat) (s : State) : Step := .next (patrolScrub s addr e t)

/-- TRACKING_STEP (R368): a lane at the edge of its range keeps its setting and warns. -/
def trackingStep (s : State) (q pc lane : Nat) (up : Bool) (t : Nat) : State :=
  let s := s.at_ t
  let k := s.stack q
  let v := k.track.get 0 (64 * pc + lane) + (if up then 1 else -1)
  if Config.trackRange < v.natAbs then s.raiseFree (0x400 + 32 * q + pc) 0x0303 false
  else s.setStack q { k with track := k.track.set 0 (64 * pc + lane) v }

def execTrackingStep (stack pc lane : Nat) (up : Bool) (t : Nat) (s : State) : Step := .next (trackingStep s stack pc lane up t)

/-- A full training of a stack begins: it serves no request meanwhile (R367). `temp`: that of R369. -/
def State.trainStack (s : State) (q : Nat) (temp : Bool) : State :=
  s.setStack q { s.stack q with retraining := true, tempTrain := temp }

/-- TEMP_RETRAIN (R369): due, and no batch with a region in the stack is ARMED or RUNNING. -/
def tempRetrain (s : State) (q t : Nat) : State :=
  let k := s.stack q
  if k.retrainDue && !k.retraining && !k.frozen && !s.stackOffline q && !(s.actives.any (fun b => s.holdsStack b q)) then
    (s.at_ t).trainStack q true
  else s

def execTempRetrain (stack t : Nat) (s : State) : Step := .next (tempRetrain s stack t)

/-- The eye widths of a training recorded by lane key 64 × pseudo-channel + lane (R367), with a warning below 12/64 UI (R370). -/
def State.eyesDone (s : State) (q : Nat) (eyes : List (Nat × Nat)) : State :=
  let k := s.stack q
  let s := s.setStack q { k with eyes := eyes.foldl (fun m p => m.set 0 p.1 p.2) k.eyes }
  (eyes.filter (fun p => decide (p.2 < 12))).foldl (fun s p =>
    s.raise (0x400 + 32 * q + p.1 / 64) 0x0304 (p.1 % 64 + 256 * p.2) false) s

/-- The end of a training (R367, R369, R371): of the whole stack, or of the pseudo-channels that train alone, whose lanes alone it
records. -/
def retrainDone (s : State) (q : Nat) (eyes : List (Nat × Nat)) (t : Nat) : State :=
  let k := s.stack q
  if k.retraining then
    (((s.at_ t).setStack q { k with retraining := false, tempTrain := false, pcTrain := [], retrainDue := false, trainTemp := k.temp }).eyesDone
      q eyes).serve q
  else if !k.pcTrain.isEmpty then
    (((s.at_ t).setStack q { k with pcTrain := [] }).eyesDone q (eyes.filter (fun p => k.pcTrain.contains (p.1 / 64)))).serve q
  else s

/-- Bytes, poison and inverted check bits of a stretch of memory gone: cleared with a valid code (R354). -/
def State.clearMem (s : State) (a n : Nat) : State :=
  { s with dram := { s.dram with
      mem := Memory.clear s.dram.mem a n
      poison := s.dram.poison.filter (fun w => decide (w * 32 < a) || decide (a + n ≤ w * 32))
      flip := s.dram.flip.filter (fun p => decide (p.1 * 32 < a) || decide (a + n ≤ p.1 * 32)) } }

/-- STACK_CLEAR_DONE (R373, R367, R370): a woken stack, trained and cleared, accepts requests again. -/
def stackClearDone (s : State) (e : StackEnd) (t : Nat) : State :=
  let q := e.stack
  let k := s.stack q
  if k.offline && s.powered (39 + q) && s.powered (43 + q) then
    let s := s.at_ t
    (((s.clearMem (q * stackSize) stackSize).setStack q
      { k with offline := false, retraining := false, tempTrain := false, trainTemp := k.temp, retrainDue := false }).eyesDone q e.eyes).serve q
  else s

def execStackClearDone (e : StackEnd) (t : Nat) (s : State) : Step := .next (stackClearDone s e t)

/-- The row of an address copied, repaired and written back with a fresh code (R372): a single wrong bit is corrected, a word that reads
uncorrectable comes back poisoned, and one that was poisoned stays so. -/
def State.rewriteRow (s : State) (q row : Nat) : State :=
  (s.dram.flip.filter (fun p => aStack (32 * p.1) == q && rowKey (32 * p.1) == row)).foldl (fun s p =>
    if p.2.1 == 3 then s else if p.2.1 == 2 then s.poisonWord (32 * p.1) else s.unflip p.1) s

/-- STACK_TEMPERATURE_READING in 0.125 °C (R369, R358, R374). -/
def stackTemp (s : State) (q : Nat) (temp : Int) (t : Nat) : State :=
  let s := s.at_ t
  let k := s.stack q
  let s := s.setStack q { k with
    temp := temp
    hot85 := decide (680 < temp)
    retrainDue := k.retrainDue || decide (80 < (temp - k.trainTemp).natAbs) }
  s.condition (0x488 + q) 0x0307 (decide (760 < temp))

def execStackTemperatureReading (stack : Nat) (temp : Int) (t : Nat) (s : State) : Step := .next (stackTemp s stack temp t)

/-! ## Host accesses through BAR2 (R407) -/

/-- A write into the boot window's buffer while the window is open (R480, R523): one made while BUSY is set is
discarded. -/
def State.bootWrite (s : State) (fn off : Nat) (data : List Byte) : State :=
  if s.boot.bwBusy then s.count 0x0505 1 (Ev.ofT fn)
  else { s with boot := { s.boot with bwBuf := (List.range data.length).foldl (fun m i => m.set 0 (off + i) (data.getD i 0)) s.boot.bwBuf } }

/-- The data of a BAR2 read (R240, R407): its bytes, or zero for one that is not performed. -/
def State.readOut (s : State) (fn : Nat) (write : Bool) (bs : List Byte) : State := if write then s else s.emit (.read fn bs)

/-- An access that is not performed: a write is discarded, a read returns zero, the counter of its reason counts (R407). -/
def State.bar2Reject (s : State) (fn src : Nat) (write : Bool) (len : Nat) : State :=
  (s.count src 1 (Ev.ofT fn)).readOut fn write (List.replicate len 0)

/-- Whether what an access meets trains otherwise than for its temperature: then the access does not wait (R407). The counter is that of a
stack being woken (log 38). -/
def Stack.otherTraining (k : Stack) (a n : Nat) : Bool :=
  (k.retraining && !k.tempTrain) || k.pcTrain.any (fun pc => (List.range ((a + n + 127) / 128 - a / 128)).any (fun i => aPc (a + 128 * i) == pc))

/-- BAR2_ACCESS of function fn (R407): offsets at or above the BAR2 size, and functions that do not exist, reach nothing (R405, R406). It is
performed in regions of the function's batch on a stack in service; else discarded
and counted. During temperature retraining it waits (R369). What a write does to a control block stands in Bar2.lean. A read that itself
freezes its stack returns zero and counts as one of a frozen stack (DESIGN CHOICE, log 61). -/
def bar2 (s : State) (fn off : Nat) (write : Bool) (data : List Byte) (len : Nat) : State :=
  let n := if write then data.length else len
  let q := aStack off
  let k := s.stack q
  if !s.pcie.up fn || decide (s.pcie.bar2Size fn < off + n) then s
  else if s.boot.bwOpen then
    (if fn != 0 || decide (8388608 < off + max 1 n) then s.bar2Reject fn 0x0505 write len
     else if write then s.bootWrite fn off data else s.readOut fn write (Memory.reads s.boot.bwBuf off len))
  else if !s.inRegion fn off (max 1 n) then s.bar2Reject fn 0x0505 write len
  else if k.frozen then s.bar2Reject fn 0x0506 write len
  else if s.stackOffline q || k.otherTraining off n then s.bar2Reject fn 0x0508 write len
  else if k.retraining then s.setStack q { k with held := k.held ++ [⟨fn, off, write, data, len⟩] }
  else if write then s.store off data
  else
    let u := s.checkWords .host fn 3 off len
    if (u.stack q).frozen then u.bar2Reject fn 0x0506 false len else u.readOut fn false (s.peek off len)

/-- A stack's controller loses its domain: nothing stays in its queues, and the accesses that waited for a training meet a parked stack
(R373, R407). -/
def State.emptyStack (s : State) (q : Nat) (lost : Bool) : State :=
  let k := s.stack q
  k.held.foldl (fun s h => s.bar2Reject h.fn 0x0508 h.write h.len) (s.setStack q { k with
    reqs := [], flight := [], inorder := [], retry := [], alerts := [], held := [], retraining := false, tempTrain := false, pcTrain := []
    offline := k.offline || lost })

/-! ## FAULT_CLEAR (R299, R446, R363) -/

/-- The clear of a controller's source releases its stack: queues discarded, full training (R363). -/
def State.thawStacks (s : State) (ns : List Nat) : State :=
  (List.range 4).foldl (fun s q =>
    let k := s.stack q
    if k.frozen && ns.contains (0x480 + q) then
      s.setStack q { k with
        frozen := false, failing := none, reqs := [], flight := [], inorder := [], retry := [], alerts := [], retraining := true, tempTrain := false }
    else s) s

end Sys2Proof.Machine
end

