-- ==== Sys2Proof/Machine/Operands.lean ====
section
/-! DEFINITION. The arithmetic of periods, vector starts and edges (02_time_arithmetic.md R35 to R55), the events of a unit
interval (05_timing_sets.md R124 to R132), the calibration tables (08_calibration.md R213), and the fields of pattern data
(03_vector_data.md R65 to R69). -/

namespace Sys2Proof

/-- I × D + N of a period record: the period over D. -/
def Per.num (p : Per) : Nat := p.i * p.d + p.n

/-- A legal period record (R36). -/
def Per.legal (p : Per) : Bool :=
  decide (1 ≤ p.d) && decide (p.d ≤ 65535) && decide (p.n < p.d) && decide (500000 ≤ p.i) &&
    (decide (p.i < 1099511627775) || (p.i == 1099511627775 && p.n == 0))

/-- A record in the layout of R35. -/
def Per.ofBytes (bs : List Byte) (off : Nat) : Per := ⟨fld bs off 5, fld bs (off + 5) 2, fld bs (off + 7) 2⟩

def Per.bytes (p : Per) : List Byte := le 5 p.i ++ le 2 p.n ++ le 2 p.d ++ le 3 0

/-- Whether a period is shorter than another. -/
def Per.lt (p q : Per) : Bool := decide (p.num * q.d < q.num * p.d)

/-- The shortest of a list of periods. -/
def shortest : List Per → Option Per
  | [] => none
  | p :: ps => match shortest ps with
    | none => some p
    | some q => some (if q.lt p then q else p)

end Sys2Proof

namespace Sys2Proof.Machine
open Sys2Proof

/-! ## The vector-start accumulator (R38 to R42) -/

/-- The accumulator at START with grid time T: residue 0 over the denominator of the first vector's period. -/
def Acc.start (t d : Nat) : Acc := ⟨t, 0, d⟩

/-- A at the end of a vector of period P (R38); the residue stands over D of P. -/
def Acc.advance (a : Acc) (p : Per) : Acc :=
  let n := a.n + p.n
  if p.d ≤ n then ⟨a.fs + p.i + 1, n - p.d, p.d⟩ else ⟨a.fs + p.i, n, p.d⟩

/-- The residue converted to denominator D' (R42), with err over D × D'. -/
def Acc.convert (a : Acc) (d2 : Nat) : Acc × Int :=
  if a.d = d2 then (a, 0)
  else
    let nq := (rhe ((a.n : Int) * d2) a.d).toNat
    let err : Int := (nq : Int) * a.d - (a.n : Int) * d2
    (if nq = d2 then ⟨a.fs + 1, 0, d2⟩ else ⟨a.fs, nq, d2⟩, err)

/-- Start of unit interval k of M (R40): whole fs and residue over D × M. -/
def Acc.ui (a : Acc) (p : Per) (m k : Nat) : Nat × Nat :=
  let dm := p.d * m
  let q := k * p.num + a.n * m
  (a.fs + q / dm, q % dm)

/-- Whether a start lies at or after a grid time: whole fs decide, the residue only adds. -/
def Acc.atOrAfter (a : Acc) (t : Nat) : Bool := decide (t ≤ a.fs)

/-- A start over a further denominator: (fs + n/d) × d × e. -/
def Acc.over (a : Acc) (e : Nat) : Nat := (a.fs * a.d + a.n) * e

/-- Whether a start lies at or before another, residues included. -/
def Acc.le (a b : Acc) : Bool := decide (a.over b.d ≤ b.over a.d)

/-- A start some whole fs later. -/
def Acc.plus (a : Acc) (t : Nat) : Acc := { a with fs := a.fs + t }

/-- The grid time of a start rounded half-even to 1 fs. -/
def Acc.rounded (a : Acc) : Nat := (rhe ((a.fs : Int) * a.d + a.n) a.d).toNat

/-- Quantisation to the placement grid (R49): cycle and grid index 0 to 16,383; a tie goes to the earlier position. -/
def quantise (fs n dm : Nat) : Nat × Nat :=
  let w := fs % cycle
  let c := fs / cycle
  let num := (w * dm + n) * 2048
  let den := 15625 * dm
  let u := (2 * num + den - 1) / (2 * den)
  if u = 16384 then (c + 1, 0) else (c, u)

/-! ## Calibration tables (R213) -/

/-- s of a delay line in 2^-16 fs: the item holds the difference from the nominal 125,000/16,384 fs = 500,000 × 2^-16 fs. -/
def CalItem.s (x : CalItem) : Nat := max 1 (500000 + x.value).toNat

/-- code(p, f) of R213. -/
def tableCode (s : Nat) (off : Int) (f : Nat) : Nat := (rhe ((f : Int) * 500000 - off * 65536) s).toNat

/-- The physical code of a line's active table at (phase, fine). -/
def CalItem.code (x : CalItem) (phase fine : Nat) : Nat := tableCode x.s (x.offs.getD phase 0) fine

/-- Whether every code of a model lies within 0 to 1,279 (R214): code rises with f, so the ends decide. -/
def usableModel (s : Nat) (offs : List Int) : Bool :=
  (List.range 16).all (fun p =>
    let o := offs.getD p 0
    decide (0 ≤ rhe (-(o * 65536)) s) && decide (rhe (1023 * 500000 - o * 65536) s ≤ 1279))

/-! ## The events of a unit interval (R128, R131, R132) -/

/-- DRV events of a drive action with data level d: offset and level, in the order of R128. -/
def ChanRec.drv (c : ChanRec) (d : Bool) : List (Nat × Bool) :=
  match c.fmt with
  | 0 => [(c.tDrv, d)]
  | 1 => [(c.tDrv, d), (c.tRet, false)]
  | 2 => [(c.tDrv, d), (c.tRet, true)]
  | _ => [(c.tLead, !d), (c.tDrv, d), (c.tRet, !d)]

/-- CMP events of a comparing action: offset and act (4 strobe, 5 open, 6 close). -/
def ChanRec.cmp (c : ChanRec) : List (Nat × Nat) := if c.cmode then [(c.tWopen, 5), (c.tWclose, 6)] else [(c.tStrb, 4)]

/-! ## Edge legality of a set (R53, R54, R132) -/

/-- Whether offset y of a unit interval lies at least gap fs after offset x of the unit interval k before it, at period P and
factor M: deskew and fixture are equal for the edges of one line and cancel. -/
def spaced (p : Per) (m k x y gap : Nat) : Bool := decide ((x + gap) * (p.d * m) ≤ y * (p.d * m) + k * p.num)

/-- Consecutive events of a list spaced within a unit interval, and its last before the first of the next. -/
def chainOk (p : Per) (m gap : Nat) (xs : List Nat) : Bool :=
  (xs.zip (xs.drop 1)).all (fun q => spaced p m 0 q.1 q.2 gap) && spaced p m 1 (xs.getLastD 0) (xs.headD 0) gap

/-- Whether a channel record keeps R53 and the window rule of R132 when it repeats at period P and factor M (R54). -/
def ChanRec.legal (c : ChanRec) (p : Per) (m : Nat) : Bool :=
  [c.tDrv, c.tRet, c.tEon, c.tEoff, c.tStrb, c.tWopen, c.tWclose, c.tLead].all (fun x => decide (x * p.d < 4 * p.num)) &&
  chainOk p m 55000 ((c.drv true).map Prod.fst) &&
  [c.tEon, c.tEoff].all (fun x => [c.tEon, c.tEoff].all (fun y => spaced p m 1 x y 55000)) &&
  chainOk p m 62500 (c.cmp.map Prod.fst)

/-- A channel record of an image (R124). -/
def ChanRec.ofBytes (bs : List Byte) (off : Nat) : ChanRec :=
  ⟨fld bs off 1 % 4, (fld bs off 1).testBit 2, fld bs (off + 8) 5, fld bs (off + 13) 5, fld bs (off + 18) 5, fld bs (off + 23) 5,
    fld bs (off + 28) 5, fld bs (off + 33) 5, fld bs (off + 38) 5, fld bs (off + 43) 5⟩

/-- Values that the record's FMT and CMODE do not use are zero (R125). -/
def ChanRec.unusedOk (c : ChanRec) : Bool :=
  (c.fmt != 0 || c.tRet == 0) && (c.fmt == 3 || c.tLead == 0) && (!c.cmode || c.tStrb == 0) && (c.cmode || (c.tWopen == 0 && c.tWclose == 0))

/-- The factors M for which a set is checked (R54): 1 and those of the segments mapped. -/
def Batch.factors (x : Batch) : List Nat := x.segs.foldl (fun l p => addOnce (2 ^ p.2.mlog) l) [1]

/-- Whether records keep R54 for a period and a list of factors. -/
def recsLegal (recs : List ChanRec) (p : Per) (ms : List Nat) : Bool := recs.all (fun c => ms.all (fun m => c.legal p m))

/-- Whether a stored set keeps R54 under a period table. -/
def TSet.legal (t : TSet) (periods : List (Nat × Per)) (ms : List Nat) : Bool :=
  match assoc periods t.peridx with
  | some p => recsLegal t.recs p ms
  | none => true

/-! ## Pattern data (R61, R65 to R69) -/

/-- Unit intervals per vector. -/
def Seg.m (g : Seg) : Nat := 2 ^ g.mlog

/-- Bytes of one vector (R65). -/
def Seg.vbytes (g : Seg) : Nat := (if g.full then 8 else 4) * g.m

/-- Vectors per granule, and bytes per granule (R69). -/
def Seg.gran (g : Seg) : Nat := if g.loopStore then 8 else 64
def Seg.gbytes (g : Seg) : Nat := g.gran * g.vbytes + if g.tssel then g.gran else 0

/-- Bytes of a segment's data, or of its ring (R71, R80). -/
def Seg.bytes (g : Seg) : Nat := (if g.sparge then g.ringgran else cdiv g.length g.gran) * g.gbytes

/-- The granule of the data or ring that holds vector v of a play (R82: granule i of a play lies in ring slot i mod
RINGGRAN), as its byte offset from ADDR. -/
def Seg.granOff (g : Seg) (v : Nat) : Nat :=
  let i := v / g.gran
  (if g.sparge then i % max 1 g.ringgran else i) * g.gbytes

/-- The field of channel c in unit interval k of a vector (R65). -/
def vfield (full : Bool) (bs : List Byte) (k c : Nat) : Nat :=
  let p := (if full then 4 else 2) * (16 * k + c)
  (bs.getD (p / 8) 0).toNat / 2 ^ (p % 8) % (if full then 16 else 4)

/-- The action a code map gives an index of channel c (R66). -/
def cmapAction (cm : List Byte) (c idx : Nat) : Nat := bits (fld cm (2 * c) 2) (4 * idx + 3) (4 * idx)

/-- Nibbles 11 to 15 (R64). -/
def badNibbles (bs : List Byte) : Bool := bs.any (fun b => decide (11 ≤ b.toNat % 16) || decide (11 ≤ b.toNat / 16))

/-- Actions that compare (R132), and that turn the enable on or off (R61). -/
def compares (a : Nat) : Bool := (decide (4 ≤ a) && decide (a ≤ 7)) || a == 9

def drives (a : Nat) : Bool := a == 0 || a == 1 || a == 10

/-- Whether a state code of R151 (0 L, 1 M, 2 H) satisfies an expect (R153). -/
def satisfies (a st : Nat) : Bool :=
  match a with
  | 4 => st == 0
  | 5 => st == 2
  | 6 => st == 1
  | 7 => st == 0 || st == 2
  | _ => true

end Sys2Proof.Machine
end

