-- ==== Sys2Proof/Machine/Trims.lean ====
section
/-! DEFINITION. Calibration items, their trims, headroom, and the swap of a correction into force (08_calibration.md R211, R212, R215, R229,
R230, R234). -/

namespace Sys2Proof.Machine
open Sys2Proof

/-! ## Items (R211, R212) -/

def itemKind (item : Nat) : Nat := item / 4096

/-- The cell of a DELAY, TDC or DESKEW item. -/
def itemCell (item : Nat) : Nat := if itemKind item == 1 then item % 4096 / 3 else item % 4096 / 2

/-- Identifiers that R211 lists. -/
def itemValid (item : Nat) : Bool :=
  match itemKind item with
  | 1 => decide (item % 4096 < 1632)
  | 2 => decide (item % 4096 < 1088)
  | 3 => decide (item % 4096 < 1088)
  | 4 => item % 4096 == 0
  | _ => false

/-- The source of an item (R228): its cell's, or the edge PLL's. -/
def itemSrc (item : Nat) : Nat := if itemKind item == 4 then 0x012 else 0x100 + itemCell item

def State.item (s : State) (i : Nat) : CalItem := s.cal.items.get CalItem.zero i

def State.setItem (s : State) (i : Nat) (x : CalItem) : State :=
  { s with cal := { s.cal with items := s.cal.items.set CalItem.zero i x } }

/-- Ranges hi of an item's trims, each from 0, with the nominal codes (R212). -/
def trimRanges (item : Nat) : List (Nat × Nat) :=
  match itemKind item with
  | 1 => (255, 128) :: List.replicate 16 (63, 32)
  | 2 => List.replicate 8 (63, 32)
  | 4 => [(255, 128), (63, 0)]
  | _ => []

/-- h of one trim (R234). -/
def trimHead (hi x : Nat) : Nat := 2000 * min x (hi - x) / hi

/-- Trim i of an item never calibrated: the factory value of a DELAY item, else the nominal code (R215). -/
def startTrim (item i : Nat) (p : Nat × Nat) : Nat := if itemKind item == 1 then Config.factoryTrim item i % (p.1 + 1) else p.2

/-- HEADROOM of an item (R234); `deskew` is the DESKEW value. -/
def headroom (item : Nat) (trims : List Nat) (deskew : Int) : Nat :=
  if itemKind item == 3 then 1000 * (10000000 - deskew.natAbs) / 10000000
  else
    let r := trimRanges item
    ((List.range r.length).map (fun i => let p := r.getD i (63, 32); trimHead p.1 (trims.getD i (startTrim item i p)))).foldl min 1000

/-- The logical channel that the crossbar gives a cell. -/
def State.cellLch (s : State) (pcell : Nat) : Option Nat :=
  ((List.range 16).map (fun c => 16 * (pcell / 17) + c)).find? (fun l => s.pcell l == pcell)

/-- The batch that owns a cell's slice, 0 for none. -/
def State.cellOwner (s : State) (pcell : Nat) : Nat := s.sliceOwner.get 0 (pcell / 17)

/-- Where a calibration event of an item counts: the PLL item on device counters only (R490). -/
def State.itemEv (s : State) (item : Nat) : Ev :=
  if itemKind item == 4 then Ev.dev
  else ⟨some (s.cellOwner (itemCell item)), some (itemCell item / 17), s.cellLch (itemCell item), none⟩

/-- Whether an engine is armed on a cell. -/
def State.acqOnCell (s : State) (pcell : Nat) : Bool :=
  s.acqs.any (fun p => p.2.armed && match p.2.cfg with
    | some c => s.pcell c.srcA == pcell || (c.srcB != 0xFFFF && s.pcell c.srcB == pcell)
    | none => false)

/-- Whether the reserve cell of a slice is racked: CAL_OBSERVER_LOST (R27). -/
def State.observerLost (s : State) (sl : Nat) : Bool := (List.range 16).any (fun c => s.rep.xbar.get c (16 * sl + c) == 16)

/-- Whether both TDCs of a cell are CALIBRATED. -/
def State.tdcsOk (s : State) (pcell : Nat) : Bool := (s.item (0x2000 + 2 * pcell)).state == 1 && (s.item (0x2000 + 2 * pcell + 1)).state == 1

/-! ## Headroom (R223, R234) -/

/-- LOW_HEADROOM of the trims and deskew in force, with its warning. -/
def State.checkHead (s : State) (item : Nat) : State :=
  let x := s.item item
  let low := decide (headroom item x.trims x.value < 100)
  let s := s.setItem item { x with lowHead := low }
  if low && !x.lowHead then s.raiseFree (itemSrc item) 0x0203 false else s

/-- The VCO band of a lock, which the PLL item's trims show (R212, R383). -/
def State.showBand (s : State) (band : Nat) : State :=
  let x := s.item 0x4000
  (s.setItem 0x4000 { x with trims := [x.trims.getD 0 128, band] }).checkHead 0x4000

/-! ## Swaps (R229, R230) -/

/-- An accepted correction comes into force: the two tables of a line are exchanged; a TDC takes its trims, a deskew its value. -/
def CalItem.swap (x : CalItem) (kind : Nat) : CalItem :=
  if kind == 2 then { x with trims := x.pendO.map Int.toNat, pending := false, pendO := [] }
  else { x with value := x.pendV, offs := x.pendO, pending := false, pendV := x.value, pendO := x.offs, move := 0 }

/-- A swap. TDC trims that change end the measurement in progress: its repeat would meet other trims (R226). -/
def State.swapItem (s : State) (i : Nat) : State :=
  let s := (s.setItem i ((s.item i).swap (itemKind i))).checkHead i
  if itemKind i == 2 then
    ({ s with tdcs := upd Tdc.zero s.tdcs (i % 4096) (fun x => { x with hist := [], since := none }) }).setItem i { s.item i with first := none }
  else s

/-- TDC trims that waited for a disarm (R230). -/
def State.swapsAtDisarm (s : State) : State :=
  let is := (s.cal.items.filter (fun p => p.2.pending && itemKind p.1 == 2 && !s.acqOnCell (itemCell p.1))).map Prod.fst
  is.foldl State.swapItem s

end Sys2Proof.Machine
end

