-- ==== Sys2Proof/Machine/TimeBase.lean ====
section
/-! DEFINITION. Reference, edge PLL, grid scale, grid epoch, time of day, the DUT clock and trigger outputs
(14_time_base.md R375 to R394, R400 to R402; R320, R513 to R515). -/

namespace Sys2Proof.Machine
open Sys2Proof

def State.setTb (s : State) (tb : TimeBase) : State := { s with tb := tb }

/-- Whether any batch is ARMED or RUNNING. -/
def State.anyActive (s : State) : Bool := s.batches.any (fun p => p.2.active)

/-- CFG_ERR (R388). -/
def State.cfgErr (s : State) : State := s.setTb { s.tb with cfgErr := true }

/-! ## INCR_FRAC and RCORR (R33, R380, R382) -/

/-- 2^38, the limit of INCR_FRAC (R33). -/
def incrLimit : Int := 274877906944

/-- The INCR_FRAC of R382 for RCORR (2^-16 ppb) and the grid scale (2^-38). -/
def followFrac (rcorr gscale : Int) : Int :=
  let a : Int := 65536000000000
  let b : Int := 274877906944
  let den := (a + rcorr) * (b + gscale)
  rhe (4294967296 * 125000 * (a * b - den)) den.toNat

/-- A recomputation under TODFOLLOW: the latch of R34, and the limit with TODF_SAT where the result passes it. -/
def TimeBase.follow (tb : TimeBase) : TimeBase :=
  if tb.todfollow then
    let v := followFrac tb.rcorr tb.gscale
    { tb.latch with
      incrFrac := max (-incrLimit) (min incrLimit v)
      todfSat := decide (incrLimit < v) || decide (v < -incrLimit) }
  else tb

/-- The time base after a change that may change RCORR, in force from the next phase-clock cycle (R380): INCR_FRAC follows it (R382). -/
def TimeBase.rcorrFrom (old new : TimeBase) : TimeBase :=
  if old.rcorr = new.rcorr then new
  else { new with rcorrPast := keepPast old.rcorrPast ((old.now / cycle + 1) * cycle) old.rcorr }.follow

/-! ## TIME_SET (R300, R390, R392, R394) -/

/-- RESULT of TIME_SET: g_L, T_L, the TOD fraction, INCR_FRAC. -/
def TimeBase.result (tb : TimeBase) : List Byte :=
  timeBytes tb.gL ++ timeBytes (tb.tL / 4294967296) ++ le 4 (tb.tL % 4294967296) ++ le 4 0 ++ le 8 (toField 64 tb.incrFrac)

/-- What TIME_SET does to the time base. -/
def TimeBase.set_ (tb : TimeBase) (op : Nat) (value : Int) (time : Nat) : TimeBase :=
  match op with
  | 0 => { tb with todRaw := time * 4294967296, todValid := true }.latch
  | 1 => { tb with todRaw := ((tb.todRaw : Int) + value * 4294967296).toNat, todValid := true }.latch
  | 2 => { tb.latch with incrFrac := value }
  | 3 => { tb.latch with epochArmed := some (time / cycle * cycle) }
  | _ => tb

def cmdTimeSet (h : Hdr) (op : Nat) (value : Int) (time : TPair) (s : State) : State :=
  s.runCmd h 0x000A [] none fun s =>
    let tb := s.tb
    let useV := op == 1 || op == 2
    let useT := op == 0 || op == 3
    checked s
      [(decide (4 < op) || (!useV && value != 0) || (!useT && time.nz), eRange),
       ((useT && time.bad) || (op == 1 && decide ((tb.todRaw : Int) + value * 4294967296 < 0)), eRange),
       (op == 2 && (decide (incrLimit < value) || decide (value < -incrLimit)), eRange),
       (op == 3 && s.anyActive, eBusy)]
      (let tb := tb.set_ op value (time.time.getD 0)
       Res.ok (s.setTb tb) tb.result [])

def execTimeSet (h : Hdr) (op : Nat) (value : Int) (time : TPair) (s : State) : Step := .next (cmdTimeSet h op value time s)

/-! ## Registers with effects of their own -/

/-- TB_CTRL's REFSEL (R376, R377): 3 is refused, a change while a batch is active is refused, a change that names the other
reference starts a build-out. -/
def refselWrite (s : State) (refsel : Nat) : State :=
  let tb := s.tb
  if refsel == 3 then s.cfgErr
  else if refsel == tb.refsel then s
  else if s.anyActive then s.cfgErr
  else
    let toCrystal := refsel == 2 && !tb.crystal
    let toRefin := refsel != 2 && tb.crystal && tb.refinOk
    s.setTb { tb with
      refsel := refsel
      buildOut := if !tb.locked then tb.buildOut else if toCrystal then some true else if toRefin then some false else none }

def execRefselWrite (refsel : Nat) (s : State) : Step := .next (refselWrite s refsel)

/-- TB_CTRL's TODFOLLOW (R382): set first, it recomputes; cleared, INCR_FRAC stands. -/
def todfollowWrite (s : State) (on : Bool) (t : Nat) : State :=
  let s := s.at_ t
  let tb := { s.tb with todfollow := on }
  s.setTb (if on && !s.tb.todfollow then tb.follow else tb)

def execTodfollowWrite (on : Bool) (t : Nat) (s : State) : Step := .next (todfollowWrite s on t)

/-- REFADJ and AGEADJ (R380, R382). -/
def refadjWrite (s : State) (v : Int) (t : Nat) : State :=
  let s := s.at_ t
  s.setTb (s.tb.rcorrFrom { s.tb with refadj := v })

def execRefadjWrite (v : Int) (t : Nat) (s : State) : Step := .next (refadjWrite s v t)

def ageadjWrite (s : State) (v : Int) (t : Nat) : State :=
  let s := s.at_ t
  s.setTb (s.tb.rcorrFrom { s.tb with ageadj := v })

def execAgeadjWrite (v : Int) (t : Nat) (s : State) : Step := .next (ageadjWrite s v t)

/-- The limit of the grid scale (R384). -/
def gsLimit : Int := 549755813

/-- GS_TARGET (R384, R385): a write during stepping replaces the target and keeps the slots. -/
def gsTargetWrite (s : State) (v : Int) (t : Nat) : State :=
  let s := s.at_ t
  if gsLimit < v || v < -gsLimit then s.cfgErr
  else s.setTb { s.tb with gsTarget := v, gsFrom := if s.tb.gsBusy then s.tb.gsFrom else s.now + us }

def execGsTargetWrite (v : Int) (t : Nat) (s : State) : Step := .next (gsTargetWrite s v t)

/-- The grid time of slot k of R385. -/
def TimeBase.slot (tb : TimeBase) (k : Nat) : Nat := tb.gsTimeS * second + tb.gsTimeF + k * (20 * us)

/-- From one rising edge of the reference to the next, in 2^-38 of a phase-clock cycle (R389). -/
def TimeBase.edgeStep (tb : TimeBase) : Nat := (80 * (274877906944 + tb.gscale)).toNat

/-- The last rising edge of the active reference at or before grid time t, or the first that the divider has counted ahead, in 2^-38 of a
phase-clock cycle (R389). -/
def TimeBase.edgeAt (tb : TimeBase) (t : Nat) : Nat :=
  tb.refEdge + (t * 274877906944 / cycle - tb.refEdge) / tb.edgeStep * tb.edgeStep

/-- θ of R389: the offset of that edge within its cycle, in 2^-38 of the cycle. -/
def TimeBase.theta (tb : TimeBase) (t : Nat) : Nat := tb.edgeAt t % 274877906944

/-- One step of ε (R385). -/
def gsStep (gscale target : Int) : Int := gscale + max (-13743895) (min 13743895 (target - gscale))

/-- GRID_SCALE_STEP (R385, R389, R382): slot k comes at t. The reference interval in progress keeps its length, the next ones have that of the
new ε (log 65). -/
def gridScaleStep (s : State) (k t : Nat) : State :=
  let s := s.at_ t
  let tb := s.tb
  if tb.gsBusy && tb.slot k == t && s.now == t && decide (tb.gsFrom ≤ t) then
    s.setTb { tb with
      gscale := gsStep tb.gscale tb.gsTarget
      gsFrom := t + 1
      refEdge := tb.edgeAt t + tb.edgeStep
      gscalePast := keepPast tb.gscalePast t tb.gscale }.follow
  else s

def execGridScaleStep (slot t : Nat) (s : State) : Step := .next (gridScaleStep s slot t)

/-- PTP_STAT and SYNC_LEAD latch their companions (R388). -/
def execPtpStatRead (s : State) : Step := .next { s with ptp := { s.ptp with offsetLatch := s.ptp.offset, mpdLatch := s.ptp.mpd } }

def execSyncLeadRead (s : State) : Step := .next (s.setTb { s.tb with syncLastLatch := s.tb.syncAt })

/-! ## References (R376 to R379) -/

/-- A channel's safe state (R138): DEN off, then DRV low. -/
def State.safePin (s : State) (lch : Nat) : State :=
  { s with denPins := s.denPins.set false (s.pcell lch) false, drvPins := s.drvPins.set false (s.pcell lch) false }

/-- The safe state of every channel of a batch. -/
def State.safePins (s : State) (b : Nat) : State := (s.channels b).foldl State.safePin s

/-- The edge PLL unlocks (R379, R402): every queued edge is discarded and counted in DETAIL, channels of active batches take
their safe state, clock outputs stop, EPOCH_VALID and TOD_VALID clear. -/
def State.unlock (s : State) : State :=
  let n := (s.batches.map (fun p => p.2.edges.length)).sum
  let run := (s.clks.filter (fun p => p.2.running)).map Prod.fst
  let s := s.setTb { s.tb with locked := false, holdover := false, buildOut := none, epochValid := false, todValid := false }
  let s := s.actives.foldl State.safePins s
  let s := s.raise 0x012 0x0012 n true
  let s := { s with
    batches := s.batches.map (fun p => (p.1, { p.2 with edges := [] }))
    clks := s.clks.map (fun p => (p.1, { p.2 with running := false, stopAt := none })) }
  run.foldl (fun s o => s.raiseFree (0x018 + o) 0x0018 false) s

/-- PLL_UNLOCK: the lock is lost, or a band search has failed (R383). -/
def pllUnlock (s : State) (t : Nat) : State := if s.tb.locked || s.powered 50 then (s.at_ t).unlock else s

def execPllUnlock (t : Nat) (s : State) : Step := .next (pllUnlock s t)

/-- REFIN_LOSS (R376, R378): holdover when REFIN is the active reference; a build-out onto REFIN is given up.
While boundary scan holds the pair nothing is raised (R515). -/
def refinLoss (s : State) (t : Nat) : State :=
  if !s.tb.refinOk then s
  else
    let s := s.at_ t
    let tb := { s.tb with refinOk := false, buildOut := if s.tb.buildOut == some false then none else s.tb.buildOut }
    let s := if tb.crystal || !tb.locked then s.setTb tb else s.setTb { tb with holdover := true, holdSince := s.now }
    if s.boot.scan != 0 then s else s.raiseFree 0x010 0x0010 true

def execRefinLoss (t : Nat) (s : State) : Step := .next (refinLoss s t)

/-- XTAL_LOSS (R378): the roles exchanged; under REFSEL = CRYSTAL the PLL unlocks. -/
def xtalLoss (s : State) (t : Nat) : State :=
  if !s.tb.xtalOk then s
  else
    let s := s.at_ t
    let tb := { s.tb with xtalOk := false, buildOut := if s.tb.buildOut == some true then none else s.tb.buildOut }
    let s := (if tb.crystal && tb.locked && tb.refsel != 2 then s.setTb { tb with holdover := true, holdSince := s.now } else s.setTb tb)
    let s := s.raiseFree 0x011 0x0011 true
    if tb.crystal && tb.locked && tb.refsel == 2 then s.unlock else s

def execXtalLoss (t : Nat) (s : State) : Step := .next (xtalLoss s t)

/-- REFIN_OK_SET (R376 to R378): REFSEL = REFIN builds out on REFIN. -/
def refinOkSet (s : State) (t : Nat) : State :=
  if s.tb.refinOk then s
  else
    let s := s.at_ t
    let tb := { s.tb with refinOk := true, refinSince := s.now }
    let s := s.setTb (if tb.refsel == 1 && tb.locked && (tb.holdover || tb.crystal) then { tb with buildOut := some false } else tb)
    s.setSrc 0x010 { s.src 0x010 with level := none }

def execRefinOkSet (t : Nat) (s : State) : Step := .next (refinOkSet s t)

/-- HOLDOVER_BUILD_OUT (R378, R379): 10 µs into holdover under AUTO, or after 10 s, onto the other reference; the PLL unlocks
where that one is not there. -/
def holdoverBuildOut (s : State) (t : Nat) : State :=
  let s' := s.at_ t
  let tb := s'.tb
  let due := (tb.refsel == 0 && decide (tb.holdSince + 10 * us ≤ s'.now)) || decide (tb.holdSince + 10 * second ≤ s'.now)
  if tb.holdover && tb.buildOut.isNone && due then
    if (if tb.crystal then tb.refinOk else tb.xtalOk) then s'.setTb { tb with buildOut := some (!tb.crystal) } else s'.unlock
  else s

def execHoldoverBuildOut (t : Nat) (s : State) : Step := .next (holdoverBuildOut s t)

/-- REFIN_RETURN (R378): under AUTO, once REFIN_OK has held for 1 ms and only while no batch is ARMED or RUNNING. -/
def refinReturn (s : State) (t : Nat) : State :=
  let s' := s.at_ t
  let tb := s'.tb
  if tb.refsel == 0 && tb.refinOk && decide (tb.refinSince + 1000 * us ≤ s'.now) && tb.crystal && tb.locked && tb.buildOut.isNone && !s.anyActive then
    s'.setTb { tb with buildOut := some false }
  else s

def execRefinReturn (t : Nat) (s : State) : Step := .next (refinReturn s t)

/-- PLL_LOCK (R383, R389): the band found; a cycle boundary on a rising edge of the reference now active. -/
def pllLock (s : State) (band : Nat) : State :=
  let tb := s.tb
  if tb.locked || !s.powered 50 then s
  else
    let crystal := tb.refsel == 2 || !tb.refinOk
    if crystal && !tb.xtalOk then s
    else
      let s := s.setTb (tb.rcorrFrom { tb with locked := true, vcoBand := band, refEdge := tb.now / cycle * 274877906944, crystal := crystal, holdover := false, buildOut := none })
      (s.setSrc 0x012 { s.src 0x012 with level := none }).showBand band

def execPllLock (band : Nat) (s : State) : Step := .next (pllLock s band)

/-! ## The grid epoch (R389 to R392) -/

/-- A grid time held, under an epoch that moves it by d. -/
def moved (d : Int) (t : Nat) : Nat := ((t : Int) + d).toNat

/-- The instants that the time base holds, under an epoch that moves them by d fs; GS_TIME keeps its grid time (R390). -/
def TimeBase.moved (tb : TimeBase) (d : Int) : TimeBase :=
  { tb with
    holdSince := Machine.moved d tb.holdSince
    refinSince := Machine.moved d tb.refinSince
    gsFrom := Machine.moved d tb.gsFrom
    refEdge := Machine.moved (d / cycle * 274877906944) tb.refEdge
    rcorrPast := tb.rcorrPast.map (fun p => (Machine.moved d p.1, p.2))
    gscalePast := tb.gscalePast.map (fun p => (Machine.moved d p.1, p.2)) }

/-- The edges of a clock output under an epoch that moves them by d fs; its scheduled events keep their grid times (R390). -/
def Clk.moved (c : Clk) (d : Int) : Clk :=
  { c with from_ := (c.from_.1 + d * c.from_.2, c.from_.2), stopAt := c.stopAt.map (fun p => (p.1 + d * p.2, p.2)) }

/-- The time base at SYNC_IN_PULSE (R390, R391): `t` is the grid time of the taken edge, `lead` the SYNC_IN rise before it in TDC
units. The row stands in AcqRun.lean. -/
def syncInPulse (s : State) (lead : Nat) (near : Bool) (t : Nat) : State :=
  let s := s.at_ t
  let tb := { s.tb with lead := lead % 65536, near := near, syncCount := (s.tb.syncCount + 1) % 65536 }
  match tb.epochArmed with
  | none => s.setTb { tb with syncAt := s.now }
  | some g0 =>
    let now := g0 + s.now % cycle
    let d := (now : Int) - s.now
    let s : State := { s with clks := s.clks.map (fun p => (p.1, p.2.moved d)) }
    s.setTb { tb.moved d with now := now, syncAt := now, epochArmed := none, epochValid := true }.latch

/-! ## DUT clock outputs and triggers (R320, R400 to R402, R513, R514) -/

def State.clk (s : State) (o : Nat) : Clk := s.clks.get Clk.zero o
def State.setClk (s : State) (o : Nat) (c : Clk) : State := { s with clks := s.clks.set Clk.zero o c }

/-- The frequency word of R400. -/
def freqWord (freq : Nat) : Nat := (rhe ((freq : Int) * 268435456) 100000000).toNat

/-- The period of 100 MHz × w / 2^48 in fs (R400), as numerator and denominator. -/
def Clk.period (c : Clk) : Nat × Nat := (10000000 * 281474976710656, max 1 (freqWord c.freq))

/-- Whole periods from the edge that an output counts from to a grid time, none before it, and what is left, in 1 / (2 × denominators) fs; a
half-period in the same unit. -/
def Clk.phase (c : Clk) (t : Nat) : Nat × Nat × Nat :=
  let d := max 1 c.from_.2
  let x := ((t : Int) * d - c.from_.1).toNat * c.period.2 * 2
  let p := c.period.1 * d * 2
  (x / p, x % p, p / 2)

/-- The rising edge after k periods (R401). -/
def Clk.rise (c : Clk) (k : Nat) : Int × Nat :=
  let d := max 1 c.from_.2
  let n : Int := c.from_.1 * c.period.2 + k * c.period.1 * d
  let g := max 1 (Nat.gcd n.natAbs (d * c.period.2))
  (n / g, d * c.period.2 / g)

/-- The falling edge that ends the high half-period k (R401). -/
def Clk.fall (c : Clk) (k : Nat) : Int × Nat :=
  let r := c.rise k
  (r.1 * (2 * c.period.2) + c.period.1 * r.2, r.2 * (2 * c.period.2))

/-- Whether grid time t lies before an edge. -/
def before (t : Nat) (e : Int × Nat) : Bool := decide ((t : Int) * e.2 < e.1)

/-- Whether an output stands in a high half-period at grid time t. -/
def Clk.inHigh (c : Clk) (t : Nat) : Bool := c.running && !before t c.from_ && decide ((c.phase t).2.1 < (c.phase t).2.2)

/-- The level of an output at grid time t (R401): a stopped one holds low after the high half-period in progress. -/
def Clk.level (c : Clk) (t : Nat) : Bool := c.inHigh t || c.stopAt.any (before t)

/-- The P and N legs (R400, R401, R513): LVCMOS holds N at high impedance, a disabled output both. -/
def Clk.legs (c : Clk) (t : Nat) : Option Bool × Option Bool :=
  if c.disabled then (none, none) else (some (c.level t), if c.format == 4 then none else some (!c.level t))

/-- The output after what is in progress at t: the high half-period completes, then it holds low (R401). -/
def Clk.stopped (c : Clk) (t : Nat) : Clk :=
  { c with running := false, stopAt := if c.inHigh t then some (c.fall (c.phase t).1) else c.stopAt.filter (before t) }

/-- The output that starts at t (R401). -/
def Clk.started (c : Clk) (t freq format : Nat) : Clk :=
  { c with running := true, from_ := ((t : Int), 1), freq := freq, format := format, stopAt := c.stopAt.filter (before t) }

/-- The new period begins at the first rising edge at or after t, with no phase step (R401). -/
def Clk.changed (c : Clk) (t freq : Nat) : Clk :=
  if c.running then
    let k := (c.phase t).1 + (if before t c.from_ || (c.phase t).2.1 == 0 then 0 else 1)
    { c.stopped t with running := true, from_ := c.rise k, freq := freq }
  else { c with freq := freq }

/-- CLOCK_OUT (R320, R401, R514). -/
def cmdClockOut (h : Hdr) (p : ClkP) (s : State) : State :=
  s.runCmd h 0x0113 [] none fun s =>
    let c := s.clk p.output
    let zero := !p.time.nz
    let at_ := if zero then cdiv (h.t + 2 * us) ns * ns else p.time.time.getD 0
    checked s
      [(decide (7 < p.output) || s.clkOwner.get 0 p.output != cmdBatch h, eOwner),
       (decide (4 < p.format) || decide (2 < p.action) || decide (p.freq < 10485760000000) || decide (6710886400000000 < p.freq) || p.time.bad, eRange),
       (c.running && p.format != c.format, eBusy),
       (!zero && decide (at_ < h.t + 2 * us), eLatency),
       (p.action == 1 && c.disabled, eState)]
      (Res.ok (s.setClk p.output { c with acts := c.acts ++ [⟨at_, p.action, p.freq, p.format⟩] }) [] [])

def execClockOut (h : Hdr) (p : ClkP) (s : State) : Step := .next (cmdClockOut h p s)

/-- The earliest scheduled event of an output, and the others. -/
def earliest : List ClkAct → Option (ClkAct × List ClkAct)
  | [] => none
  | a :: as => match earliest as with
    | none => some (a, [])
    | some (b, bs) => if a.at_ ≤ b.at_ then some (a, as) else some (b, a :: bs)

/-- CLOCK_OUT_ACTION (R401, R402): the earliest scheduled event, once due; a start waits while PD51 is parked; a start of a
running output and a stop of a stopped one change nothing; a disabled output emits nothing. -/
def clockAction (s : State) (o t : Nat) : State :=
  let c := s.clk o
  match earliest c.acts with
  | none => s
  | some (a, as) =>
    let s' := s.at_ t
    if s'.now < a.at_ || (a.action == 1 && !s.powered 51) then s
    else s'.setClk o (match a.action with
      | 0 => { if c.running then c.stopped a.at_ else c with acts := as }
      | 1 => { if c.running || c.disabled then c else c.started a.at_ a.freq a.format with acts := as }
      | _ => { c.changed a.at_ a.freq with acts := as, format := if c.running then c.format else a.format })

def execClockOutAction (output t : Nat) (s : State) : Step := .next (clockAction s output t)

def State.trigO (s : State) (o : Nat) : TrigOut := s.trigOut.get TrigOut.zero o

/-- TRIG_CONFIG (R320, R78): PIN [2:0] number, [3] input. -/
def cmdTrigConfig (h : Hdr) (pin width flags offset : Nat) (s : State) : State :=
  let n := pin % 8
  let inp := 8 ≤ pin
  s.runCmd { h with rsv := h.rsv || decide (15 < pin) || (inp && decide (3 < flags)) } 0x0114 [] none fun s =>
    let b := cmdBatch h
    checked s
      [((if inp then s.trigInOwner.get 0 n else s.trigOutOwner.get 0 n) != b, eOwner),
       (if inp then width != 0 || offset != 0 else decide (width < 2) || flags != 0, eRange),
       (s.isActive b, eBusy)]
      (Res.ok (if inp then { s with trigIn := s.trigIn.set TrigIn.zero n ⟨flags.testBit 0, flags.testBit 1⟩ }
        else { s with trigOut := s.trigOut.set TrigOut.zero n { s.trigO n with offset := offset, width := width } }) [] [])

def execTrigConfig (h : Hdr) (pin width flags offset : Nat) (s : State) : Step := .next (cmdTrigConfig h pin width flags offset s)

/-- An output goes to high impedance (R513, R514); while boundary scan holds the balls nothing is raised (R515). -/
def outputOff (s : State) (src code t : Nat) : State :=
  if s.boot.scan != 0 then s
  else
    let s := s.at_ t
    if within src 0x018 0x01F then (s.setClk (src - 0x018) { s.clk (src - 0x018) with disabled := true }).raiseFree src code false
    else if within src 0x020 0x027 then
      ({ s with trigOut := s.trigOut.set TrigOut.zero (src - 0x020) { s.trigO (src - 0x020) with disabled := true } }).raiseFree src code false
    else s

def execOutputShort (src t : Nat) (s : State) : Step := .next (outputOff s src 0x0020 t)
def contention (s : State) (src t : Nat) : State := outputOff s src 0x0021 t
def execContention (src t : Nat) (s : State) : Step := .next (contention s src t)

/-- BOUNDARY_SCAN_INSTRUCTION (R515): 1 EXTEST, 2 CLAMP, 3 HIGHZ come into force or end; the channel pairs of every slice are
in the chain. -/
def boundaryScan (s : State) (ins : Nat) (on : Bool) (t : Nat) : State :=
  if within ins 1 3 then
    let s := s.at_ t
    if on then
      let s := { s with boot := { s.boot with scan := ins } }
      (s.actives.filter (fun b => !(s.slices b).isEmpty)).foldl (fun s b => s.onBatch b (fun x => x.addCause 5 x.vh)) s
    else { s with boot := { s.boot with scan := 0 } }
  else s

def execBoundaryScanInstruction (ins : Nat) (on : Bool) (t : Nat) (s : State) : Step := .next (boundaryScan s ins on t)

end Sys2Proof.Machine
end

