-- ==== Sys2Proof/Machine/Power.lean ====
section
/-! DEFINITION. Power domains, parking, wakes and the wake budget (17_power_and_start.md R459 to R474; R296, R304,
R373). The power-fail warning and the resets stand in Reset.lean. -/

namespace Sys2Proof.Machine
open Sys2Proof

/-- The domains that must be powered before PD d can be (R459). -/
def requires (d : Nat) : List Nat :=
  if within d 3 34 then [35 + (d - 3) / 8, 50]
  else if within d 35 38 || d == 48 || d == 49 || d == 51 then [50]
  else if within d 39 42 then [d + 4]
  else if d == 2 || d == 47 then [1]
  else if d == 0 then []
  else [0]

/-- Wake cost in units of 100 mA (R459). -/
def wakeCost (d : Nat) : Nat :=
  if within d 3 34 then 16
  else if within d 35 38 then 8
  else if within d 39 42 then 20
  else if within d 43 46 then 30
  else match d with
    | 1 => 20
    | 2 => 12
    | 47 => 10
    | 48 => 12
    | 49 => 14
    | 50 => 6
    | 51 => 6
    | _ => 0

/-- Whether a request for PD d waits or its ramp runs. -/
def Power.waking (p : Power) (d : Nat) : Bool := p.queue.any (fun w => w.pd == d) || p.ramps.any (fun w => w.pd == d)

/-- A request queued behind requests for the parked domains that it requires (R469). The requirements of R459 nest three
deep. -/
def Power.request (p : Power) (d : Nat) : Nat → Power
  | 0 => p
  | n + 1 =>
    if p.on.testBit d || p.waking d then p
    else
      let p := (requires d).foldl (fun p r => p.request r n) p
      { p with queue := p.queue ++ [⟨d, wakeCost d, 0, false, 0⟩] }

/-- The head of the queue takes tokens and moves on only with its whole cost (R468). -/
def Power.allocate (p : Power) : Nat → Power
  | 0 => p
  | n + 1 => match p.queue with
    | [] => p
    | w :: q =>
      let k := min p.avail (w.cost - w.got)
      let w := { w with got := w.got + k }
      let p := { p with avail := p.avail - k }
      if w.got < w.cost then { p with queue := w :: q } else Power.allocate { p with queue := q, ramps := p.ramps ++ [w] } n

/-- Whether a request that holds its cost may begin its ramp: every domain it requires is powered (R469). -/
def Power.canRamp (p : Power) (w : Wake) : Bool := !w.ramp && (requires w.pd).all (fun r => p.on.testBit r)

/-- Ramps begin; their tokens are USED (R470). -/
def Power.begin_ (p : Power) (now : Nat) : Power :=
  let n := ((p.ramps.filter p.canRamp).map (fun w => w.got)).sum
  { p with
    used := p.used + n
    ramps := p.ramps.map (fun w => if p.canRamp w then { w with ramp := true, began := now } else w) }

/-- Tokens allocated and ramps begun, with the counter of tokens used (R490). -/
def State.powerStep (s : State) : State :=
  let p := (s.pwr.allocate s.pwr.queue.length).begin_ s.now
  ({ s with pwr := p }).count 0x0901 (p.used - s.pwr.used) Ev.dev

/-- A wake requested (R469, R468). -/
def State.wake (s : State) (d : Nat) : State := ({ s with pwr := s.pwr.request d 4 }).powerStep

/-! ## Parking (R462 to R466, R373) -/

/-- The slices that hold an engine's sources (R207, R208). -/
def Acq.slices (a : Acq) : List Nat :=
  match a.cfg with
  | some c => (c.srcA / 16) :: (if c.srcB == 0xFFFF then [] else [c.srcB / 16])
  | none => []

/-- Whether an engine is armed on a slice (R208). -/
def State.acqOn (s : State) (sl : Nat) : Bool := s.acqs.any (fun p => p.2.armed && p.2.slices.contains sl)

/-- Whether an ARMED or RUNNING batch owns a slice. -/
def State.sliceActive (s : State) (sl : Nat) : Bool := s.isActive (s.sliceOwner.get 0 sl)

/-- Whether a RACK or CAL_RUN in progress holds a cell of the slice (R466, R216). -/
def State.heldSlice (s : State) (sl : Nat) : Bool :=
  s.cal.runs.any (fun r => r.cells.any (fun p => p.pcell / 17 == sl)) ||
  s.rep.ops.any (fun r => (r.2.2.2.kind == 1 && r.2.2.2.unit / 17 == sl) || (r.2.2.2.kind == 2 && r.2.2.2.unit == sl))

/-- Whether a park of PD d meets a batch or an engine in action (R296, R208). -/
def State.parkBusy (s : State) (d : Nat) : Bool :=
  if within d 3 34 then s.sliceActive (d - 3) || s.acqOn (d - 3)
  else if within d 35 38 then s.actives.any (fun b => (s.slices b).any (fun sl => sl / 8 == d - 35))
  else if within d 39 46 then s.actives.any (fun b => s.holdsStack b ((d - 39) % 4))
  else false

/-- Whether another powered domain requires PD d (R462); the park of PD43 + Q parks PD39 + Q itself. -/
def State.required (s : State) (d : Nat) : Bool :=
  (List.range 52).any (fun e => s.powered e && (requires e).contains d && !(within d 43 46 && e + 4 == d))

/-- A slice domain loses its caches and what its pins drove (R459, R465). -/
def State.parkSlice (s : State) (sl : Nat) : State :=
  let own := fun (p : Nat × Bool) => p.1 / 17 != sl
  { s with
    batches := s.batches.map (fun p => (p.1, { p.2 with caches := p.2.caches.filter (fun c => c.1 / 16 != sl) }))
    tdcs := s.tdcs.filter (fun p => p.1 / 2 / 17 != sl)
    drvPins := s.drvPins.filter own
    denPins := s.denPins.filter own }

/-- What the other domains lose (R459, R373, R463, R402). -/
def State.parkLoss (s : State) (d : Nat) : State :=
  if within d 3 34 then s.parkSlice (d - 3)
  else if within d 35 38 then
    State.swapsAtDisarm { s with acqs := (s.acqs.filter (fun p => p.1 / 3 != d - 35 || p.2.cfg.isSome)).map (fun p =>
        if p.1 / 3 == d - 35 then (p.1, { Acq.zero with cfg := p.2.cfg }) else p) }
  else if within d 39 42 then s.emptyStack (d - 39) false
  else if within d 43 46 then s.emptyStack (d - 43) true
  else if d == 48 then { s with eths := s.eths.map (fun p => (p.1, { p.2 with link := false })) }
  else if d == 49 then
    { s with cellar := { s.cellar with
        up := { Port.zero with lanes := s.cellar.up.lanes }
        dn := { Port.zero with lanes := s.cellar.dn.lanes } } }
  else if d == 50 then
    s.setTb { s.tb with locked := false, holdover := false, buildOut := none, epochValid := false, todValid := false }
  else if d == 51 then { s with clks := s.clks.map (fun p => (p.1, { p.2.stopped s.now with acts := [] })) }
  else s

/-- PD d parked; nothing for a parked one. -/
def State.park1 (s : State) (d : Nat) : State :=
  if s.powered d then { s.parkLoss d with pwr := { s.pwr with on := clrBit s.pwr.on d } } else s

/-- A park; that of PD43 + Q parks PD39 + Q first (R462). -/
def State.park (s : State) (d : Nat) : State := if within d 43 46 then (s.park1 (d - 4)).park1 d else s.park1 d

/-- POWER (R296, R462, R464, R473). -/
def cmdPower (h : Hdr) (domain action : Nat) (s : State) : State :=
  s.runCmd h 0x0005 [] none fun s =>
    let ok := within domain 3 46 || within domain 48 51
    let on := s.powered domain
    checked s
      [(!ok || decide (1 < action), eRange),
       (action == 0 && (s.pwr.pwrfailLow || decide (h.t < s.pwr.wakeBlock)), eState),
       (action == 1 && on && (s.parkBusy domain || s.required domain), eBusy)]
      (if action == 1 then Res.ok (s.park domain) [0] []
       else if on then Res.ok s [2] []
       else Res.wait_ (s.wake domain) (.power domain))

def execPower (h : Hdr) (domain action : Nat) (s : State) : Step := .next (cmdPower h domain action s)

/-- WAKE_BUDGET (R304). -/
def cmdWakeBudget (h : Hdr) (budget : Nat) (s : State) : State :=
  s.runCmd h 0x0011 [] none fun s =>
    checked s [(budget == 0 || decide (1000 < budget), eRange)]
      (Res.ok { s with pwr := { s.pwr with budgetNext := budget } } (le 2 s.pwr.budgetNext) [])

def execWakeBudget (h : Hdr) (budget : Nat) (s : State) : Step := .next (cmdWakeBudget h budget s)

/-! ## Wakes (R468 to R471) -/

/-- The tokens of a new slot: the old slot's lapse (R468). -/
def Power.slot (p : Power) : Power :=
  { p with lapsed := p.lapsed + p.avail, budget := p.budgetNext, avail := p.budgetNext, issued := p.issued + p.budgetNext }

/-- WAKE_SLOT: a whole multiple of 10 µs. -/
def wakeSlot (s : State) (t : Nat) : State :=
  if t % (10 * us) ≠ 0 then s
  else
    let s := s.at_ t
    let s := (s.count 0x0903 s.pwr.avail Ev.dev).count 0x0900 s.pwr.budgetNext Ev.dev
    ({ s with pwr := s.pwr.slot }).powerStep

/-- DUE on every DELAY item of a slice (R463, R215). -/
def State.delayDue (s : State) (sl : Nat) : State :=
  let items := (List.range 51).foldl (fun m i => upd CalItem.zero m (0x1000 + 51 * sl + i) (fun x => { x with due := true })) s.cal.items
  { s with cal := { s.cal with items := items } }

/-- The loss of stack q's contents at the wake of its supplies (R373). -/
def State.contentLost (s : State) (q : Nat) : State :=
  let bs := (s.batches.map Prod.fst).filter (fun b => s.holdsStack b q)
  let s := bs.foldl (fun s b => s.count 0x0708 1 (Ev.ofB b)) s
  bs.foldl (fun s b => s.onBatch b (fun x =>
    { x with segs := x.segs.map (fun p => (p.1, { p.2 with sls := p.2.sls.filter (fun r => r.sl / 8 != q) })) })) s

/-- The Ethernet links train (R477, R459; log 28). -/
def State.ethsUp (s : State) : State :=
  { s with eths := [0, 1].foldl (fun m p => upd Eth.zero m p (fun e => { e with link := true })) s.eths }

/-- A start that waited for PD51 takes effect at the end of its wake (R402). -/
def State.clksAwake (s : State) : State :=
  let late := fun (a : ClkAct) => if a.action == 1 then { a with at_ := max a.at_ s.now } else a
  { s with clks := s.clks.map (fun p => (p.1, { p.2 with acts := p.2.acts.map late })) }

/-- What the end of a wake brings with it (R463, R373, R367). -/
def State.woken (s : State) (d : Nat) : State :=
  if within d 3 34 then s.delayDue (d - 3)
  else if within d 39 42 then (if (s.stack (d - 39)).offline then s else s.trainStack (d - 39) false)
  else if within d 43 46 then (s.contentLost (d - 43)).wake (d - 4)
  else if d == 48 then s.ethsUp
  else if d == 51 then s.clksAwake
  else s

/-- WAKE_RAMP_END: 20 µs after the ramp began (R468, R469). -/
def wakeRampEnd (s : State) (pd t : Nat) : State :=
  match s.pwr.ramps.find? (fun w => w.pd == pd && w.ramp) with
  | none => s
  | some w =>
    let s' := s.at_ t
    if t < w.began + 20 * us then s
    else
      let p := s'.pwr
      let s := ({ s' with pwr := { p with on := setBit p.on pd, ramps := p.ramps.filter (fun v => v.pd != pd) } }.woken pd).powerStep
      let woke := s.waits.any (fun v => v.what == .power pd)
      let s := s.release (fun v => v.what == .power pd) OK 0 [2]
      if woke then s.msi 0 2 else s

def execWakeRampEnd (pd t : Nat) (s : State) : Step := .next (wakeRampEnd s pd t)

/-- Requests dropped: the tokens they hold lapse (R471, R473). -/
def Power.drop (p : Power) (out : Wake → Bool) : Power :=
  let gone := fun (w : Wake) => out w && !w.ramp
  let n := ((p.queue.filter gone).map (fun w => w.got)).sum + ((p.ramps.filter gone).map (fun w => w.got)).sum
  { p with queue := p.queue.filter (fun w => !gone w), ramps := p.ramps.filter (fun w => !gone w), lapsed := p.lapsed + n }

/-- Whether PD d requires PD r, directly or through another (R459). -/
def needs (d r : Nat) : Bool := (requires d).contains r || (requires d).any (fun e => (requires e).contains r)

/-- Requests that cannot go on, with the POWER commands that wait for them (E_HW without PARTIAL). -/
def State.dropWakes (s : State) (out : Wake → Bool) : State :=
  let ds := ((s.pwr.queue ++ s.pwr.ramps).filter (fun w => out w && !w.ramp)).map (fun w => w.pd)
  let p := s.pwr.drop out
  let s := ({ s with pwr := p }).count 0x0903 (p.lapsed - s.pwr.lapsed) Ev.dev
  s.release (fun v => match v.what with
    | .power d => ds.contains d
    | _ => false) eHw 0 [0]

/-- WAKE_FAIL (R471): a ramp that ended 10 µs ago, with the domain's rails not in range; its tokens stay USED. -/
def wakeFail (s : State) (pd t : Nat) : State :=
  if s.pwr.ramps.any (fun w => w.pd == pd && w.ramp && decide (w.began + 30 * us ≤ t)) then
    let s := s.at_ t
    let s := { s with pwr := { s.pwr with ramps := s.pwr.ramps.filter (fun w => w.pd != pd) } }
    let s := s.raise 0x002 0x0004 pd false
    let s := s.release (fun v => v.what == .power pd) eHw 0 [0]
    s.dropWakes (fun w => needs w.pd pd)
  else s

def execWakeFail (pd t : Nat) (s : State) : Step := .next (wakeFail s pd t)

/-! ## Idle parking (R466, R467) -/

/-- Whether a domain is idle (R466). -/
def State.idle (s : State) (d : Nat) : Bool :=
  if within d 3 34 then !s.sliceActive (d - 3) && !s.acqOn (d - 3) && !s.heldSlice (d - 3)
  else if within d 35 38 then
    (List.range 8).all (fun i => !s.powered (3 + 8 * (d - 35) + i)) && !s.acqs.any (fun p => p.2.armed && p.1 / 3 == d - 35)
  else if d == 51 then s.clks.all (fun p => !p.2.running && p.2.acts.isEmpty)
  else false

/-- IDLE_PARK: the domain has stayed idle for 10 ms and its job is dispatched; where it is idle no longer the park lapses. -/
def idlePark (s : State) (pd t : Nat) : State :=
  if s.pwr.idlepark.testBit pd && s.powered pd && s.idle pd then (s.at_ t).park pd else s

def execIdlePark (pd t : Nat) (s : State) : Step := .next (idlePark s pd t)

end Sys2Proof.Machine
end

