-- ==== Sys2Proof/Machine/Cal.lean ====
section
/-! DEFINITION. Calibration: external and in-service runs, what the measurements give, acceptance by repeat, swaps, status
(08_calibration.md R213 to R233; R301, R302, R506), fixture values (R45, R47, R54), and the end of a phase build-out (R377). -/

namespace Sys2Proof.Machine
open Sys2Proof

/-! ## Swaps (R229 to R232) -/

/-- The items of a list of kinds that wait for their swap on a batch's slices. -/
def State.pendingItems (s : State) (b : Nat) (kinds : List Nat) : List Nat :=
  (s.cal.items.filter (fun p => p.2.pending && kinds.contains (itemKind p.1) && s.cellOwner (itemCell p.1) == b)).map Prod.fst

/-- One swap at a segment boundary, VNUM v, with its CAL_SWAP post; with the event queue full the swap moves to the next
segment boundary (R231, R340). -/
def State.swapPost (s : State) (b v i : Nat) : State :=
  if s.queueFull b 0 then s else (s.swapItem i).postEvent b 0 6 (le 8 v ++ le 2 i ++ le 6 0)

/-- Swaps at the first vector of a segment, VNUM v (R230, R231): MOVE ≤ 0.5 ps. -/
def State.swapsAtBoundary (s : State) (b v : Nat) : State :=
  ((s.pendingItems b [1, 3]).filter (fun i => decide ((s.item i).move ≤ 500))).foldl (fun s i => s.swapPost b v i) s

/-- R54 for every set of a batch, each marked where it breaks R53 (R232). -/
def Batch.recheck (x : Batch) : Batch :=
  { x with sets := x.sets.map (fun p => (p.1, { p.2 with marked := p.2.marked || !p.2.legal x.periods x.factors })) }

/-- Swaps held to the stop boundary (R230, R232). -/
def State.swapsAtStop (s : State) (b : Nat) : State :=
  let is := s.pendingItems b [1, 3]
  let s := is.foldl State.swapItem s
  if is.any (fun i => itemKind i == 3) then s.onBatch b Batch.recheck else s

/-- An accepted correction swaps at once, or waits (R230). -/
def State.swapOrHold (s : State) (i : Nat) : State :=
  let x := s.item i
  if itemKind i == 4 then s
  else if itemKind i == 2 then (if s.acqOnCell (itemCell i) then s else s.swapItem i)
  else if !s.isActive (s.cellOwner (itemCell i)) then s.swapItem i
  else if 500 < x.move then s.count 0x0402 1 (s.itemEv i)
  else s

/-! ## What is being calibrated (R216 to R221) -/

/-- The lines whose in-service calibration has started, or that a CAL_RUN of mode 4 names (R220, R224). -/
def Cal.lines (c : Cal) : List Nat := (c.started ++ (c.runs.filter (fun r => r.mode == 4)).flatMap (fun r => r.left)).filter (fun i => itemKind i == 1)

/-- The line that a slice's observer switch routes to its TDC, one at a time (R220, R228), while the reserve cell is not racked and its
TDCs are CALIBRATED (R27, R215). -/
def State.watched (s : State) (sl : Nat) : Option Nat :=
  if s.observerLost sl || !s.tdcsOk (17 * sl + 16) then none
  else s.cal.lines.find? (fun i => itemCell i / 17 == sl && (s.item i).state != 2)

/-- Whether the events of a TDC's input count in service (R221): ASYNCMASK names its cell, or it is the observer's, which stamps the crystal
while REFIN is the reference and no line is routed to it. -/
def State.asynchronous (s : State) (pcell : Nat) : Bool :=
  s.cal.asyncMask.testBit pcell ||
    (pcell % 17 == 16 && !s.tb.crystal && !s.observerLost (pcell / 17) && (s.watched (pcell / 17)).isNone)

/-- The external run and the item that it calibrates on a slice: up to 32 cells at a time, one per slice, a cell's items in their
order (R218, R219, R301). -/
def State.external (s : State) (sl : Nat) : Option (CalRun × Nat) :=
  ((s.cal.runs.filter (fun r => r.mode != 4)).flatMap (fun r => r.left.map (fun i => (r, i)))).find? (fun q => itemCell q.2 / 17 == sl)

/-- Whether an item is being calibrated, by an external CAL_RUN or in service. -/
def State.calibrating (s : State) (item : Nat) (ext : Bool) : Bool :=
  itemValid item &&
  if ext then (s.external (itemCell item / 17)).any (fun q => q.2 == item)
  else
    (s.item item).state != 2 &&
    match itemKind item with
    | 1 => s.watched (itemCell item / 17) == some item
    | 2 => s.asynchronous (itemCell item)
    | _ => false

/-! ## Histograms (R222) -/

/-- Events that a histogram counts: 2^20. -/
def histFull : Nat := 1048576

/-- The counts of the 128 bins of a TDC's histogram. -/
def Tdc.bins (x : Tdc) : List Nat := (List.range 128).map (x.hist.get 0)

/-- dnl_b of every bin, in 2^-12 TDC unit. -/
def dnlTable (bins : List Nat) : List Int := bins.map (fun (c : Nat) => rhe (4096 * (128 * (c : Int) - histFull)) histFull)

/-- Whether every count lies within half to one and a half times the mean. -/
def binsOk (bins : List Nat) : Bool := bins.all (fun c => within c 4096 12288)

/-- The result of a histogram, and whether it is not discarded. -/
def histVal (bins : List Nat) : Option CalVal × Bool := (some (.dnl (dnlTable bins)), binsOk bins)

/-- A TDC stamp in its histogram (R221, R222), with the grid time of the first event, from which the 10 s of R222 count (DESIGN CHOICE,
log 70). -/
def Tdc.counted (x : Tdc) (bin fs : Nat) : Tdc :=
  if histFull ≤ x.bins.sum then x else { x with hist := upd 0 x.hist bin (· + 1), since := some (x.since.getD fs) }

/-- Vernier trim j after an accepted DNL table (R223). -/
def vernier (trims : List Nat) (dnl : List Int) (j : Nat) : Nat :=
  let sum := ((List.range 16).map (fun p => dnl.getD (8 * p + j) 0)).sum
  (max 0 (min 63 ((trims.getD j 32 : Int) - rhe (64 * sum) 65536))).toNat

/-! ## Models (R213, R214, R224) -/

/-- Model values of s in 2^-16 fs. -/
def modelS (ds : Int) : Nat := max 1 (500000 + ds).toNat

/-- One edge added: physical code x, measured position y in 2^-16 fs. -/
def FitSum.add (f : FitSum) (x : Nat) (y : Int) : FitSum := ⟨f.n + 1, f.x + x, f.y + y, f.xx + x * x, f.xy + x * y⟩

/-- The sums of one phase over its four quarters. -/
def phaseSum (m : Tab FitSum) (p : Nat) : FitSum :=
  (List.range 4).foldl (fun f q => let g := m.get FitSum.zero (4 * p + q); ⟨f.n + g.n, f.x + g.x, f.y + g.y, f.xx + g.xx, f.xy + g.xy⟩) FitSum.zero

/-- The model y = s × x + off[p] of the edges by least squares (R224), none where they decide none: s is the quotient of the sums, over
the phases, of the covariances and variances within each phase; off[p] is the mean of y less s times that of x. -/
def fitModel (m : Tab FitSum) : Option (Int × List Int) :=
  let fs := (List.range 16).map (phaseSum m)
  let n : Nat := (fs.map (fun f => f.n)).foldl (· * ·) 1
  let num := (fs.map (fun (f : FitSum) => f.xy * (n : Int) - (f.x : Int) * f.y * ((n / f.n : Nat) : Int))).sum
  let den := (fs.map (fun (f : FitSum) => ((f.xx * n : Nat) : Int) - ((f.x * f.x * (n / f.n) : Nat) : Int))).sum
  if n == 0 || den ≤ 0 then none
  else
    let s := rhe num den.toNat
    some (s - 500000, fs.map (fun f => rhe (f.y - s * f.x) (65536 * f.n)))

/-- The model of a fit, none where the edges decide none, and whether it is usable (R214). -/
def fitVal (m : Tab FitSum) : Option CalVal × Bool :=
  match fitModel m with
  | some q => (some (.model q.1 q.2), usableModel (modelS q.1) q.2)
  | none => (none, false)

/-- The measured position in 2^-16 fs of an edge due at (phase, fine): its nominal position, moved by its error in 2^-16 fs. -/
def placed (fine : Nat) (err : Int) : Int := fine * 500000 + err

/-- An edge fires on the line that its slice's observer has routed to its TDC (R220). -/
def State.observe (s : State) (e : Edge) : State :=
  let sl := e.lch / 16
  let item := 0x1000 + 3 * s.pcell e.lch + e.line
  if s.watched sl == some item then
    let g := s.cal.gather.get Gather.zero sl
    let g := if g.item == item then g else ⟨item, none, []⟩
    { s with cal := { s.cal with gather := s.cal.gather.set Gather.zero sl { g with last := some e } } }
  else s

/-- A stamp, unwrapped, of a slice's observer: that of the edge fired last on the line routed to it (log 58). -/
def State.observed (s : State) (sl stamp : Nat) : State :=
  let g := s.cal.gather.get Gather.zero sl
  match g.last with
  | some e =>
    if s.watched sl != some g.item then s
    else
      let fine := (quantise e.fs e.n e.d).2 % 1024
      let err := rhe (((2 * stamp + 1 : Nat) : Int) * 32000000 * e.d - 65536 * (e.fs * e.d + e.n : Nat)) e.d
      let sums := upd FitSum.zero g.sums (4 * e.phase + fine / 256) (fun f => f.add e.code (placed fine err))
      { s with cal := { s.cal with gather := s.cal.gather.set Gather.zero sl { g with last := none, sums := sums } } }
  | none => s

/-- Whether the edges gathered reach every cell of (phase, quarter): at least 256 in each (R224). -/
def Gather.full (g : Gather) : Bool := (List.range 64).all (fun k => decide (256 ≤ (g.sums.get FitSum.zero k).n))

/-! ## External measurements (R217 to R219) -/

/-- R217. -/
def prefOk (p : Per) : Bool :=
  p.d != 0 && p.num * 4096 % (125000 * p.d) == 0 && p.num * 4096 / (125000 * p.d) % 2 == 1

/-- 2^47: the stamps wrap there. -/
def wrap47 : Nat := 140737488355328

/-- x modulo m as a signed value. -/
def signedMod (x : Int) (m : Nat) : Int := let r := x % m; if (m : Int) ≤ 2 * r then r - m else r

/-- The units that R184 subtracts from the stamps of a cell with deskew and fixture in fs. -/
def stampUnits (deskew fixture : Int) : Int := rhe ((deskew + fixture) * 1024) 1000000

/-- The fixture value of a direction, 0 drive and 1 compare, of the channel that a cell serves. -/
def State.cellFixture (s : State) (pcell dir : Nat) : Int := ((s.cellLch pcell).map (fun l => s.fixture.get 0 (2 * l + dir))).getD 0

/-- Errors of 4,096 stamps against edges due at t0 + i × P + delay, i from `first` on, in 1/(32 × D) fs: stamp spans stand for their centres, and the
difference is signed modulo 2^47 units. -/
def stampErrs (raws : List Nat) (fix : Int) (t0 first : Nat) (delay : Int) (p : Per) : List Int :=
  raws.mapIdx (fun i (r : Nat) => signedMod ((2 * ((r : Int) - fix) + 1) * 15625 * p.d - 32 * ((t0 + delay) * p.d + (first + i) * p.num)) (wrap47 * 31250 * p.d))

/-- The mean error in fs, rounded half-even (R218). -/
def meanErr (errs : List Int) (p : Per) : Int := rhe errs.sum (errs.length * 32 * p.d)

/-- The sums of a loopback run on a line (R219): edge i at the phase and fine code where it fires, which the drive deskew and fixture move
by `shift` (R45), its error less the mean error `e`. -/
def loopSums (x : CalItem) (t0 : Nat) (shift : Int) (p : Per) (errs : List Int) (e : Int) : Tab FitSum :=
  (errs.mapIdx (fun i r => (i, r))).foldl (fun m q =>
    let n : Nat := q.1 * p.num
    let u := (quantise ((t0 + n / p.d : Nat) + shift).toNat (n % p.d) p.d).2
    let err := rhe (2048 * q.2) p.d - 65536 * e
    upd FitSum.zero m (4 * (u / 1024) + u % 1024 / 256) (fun f => f.add (x.code (u / 1024) (u % 1024)) (placed (u % 1024) err))) []

/-- What a measurement gives: none where none has completed, else its result and whether that is usable. The mean residual of a loopback run
moves the drive deskew, and the models keep the rest (log 58). -/
def State.measured (s : State) (item : Nat) (r : CalRes) (ext : Bool) : Option (Option CalVal × Bool) :=
  let cell := itemCell item
  let fix := stampUnits (s.item (0x3000 + 2 * cell + 1)).value (s.cellFixture cell 1)
  let run := (s.external (cell / 17)).map (fun q => q.1)
  let path := (run.bind (fun q => q.cells.find? (fun k => k.pcell == cell))).getD ⟨cell, 0, 0⟩
  match r with
  | .hist =>
    let bins := (s.tdcs.get Tdc.zero (item % 4096)).bins
    if itemKind item == 2 && bins.sum == histFull then some (histVal bins) else none
  | .fit =>
    let g := s.cal.gather.get Gather.zero (cell / 17)
    if itemKind item == 1 && !ext && g.item == item && g.full then some (fitVal g.sums) else none
  | .refs first raws =>
    match run with
    | some q => if itemKind item == 3 && item % 2 == 1 && ext && raws.length == 4096 then
        some (some (.err (meanErr (stampErrs raws fix q.t0 first path.dpath q.pref) q.pref)), true) else none
    | none => none
  | .loop t0 p raws =>
    let errs := stampErrs raws fix t0 0 path.tloop p
    let e := meanErr errs p
    if !ext || !prefOk p || raws.length != 4096 then none
    else if itemKind item == 1 then some (fitVal (loopSums (s.item item) t0 ((s.item (0x3000 + 2 * cell)).value + s.cellFixture cell 0) p errs e))
    else if itemKind item == 3 && item % 2 == 0 then some (some (.err e), true)
    else none

/-- What an item gathers, emptied for its next measurement. -/
def State.freshMeasure (s : State) (item : Nat) : State :=
  if itemKind item == 2 then { s with tdcs := upd Tdc.zero s.tdcs (item % 4096) (fun x => { x with hist := [], since := none }) }
  else if itemKind item == 1 then { s with cal := { s.cal with gather := upd Gather.zero s.cal.gather (itemCell item / 17) (fun g => ⟨g.item, none, []⟩) } }
  else s

/-! ## Acceptance by repeat (R226 to R228) -/

/-- Tolerances of R226: fs for DELAY and DESKEW, 2^-12 TDC unit for TDC; the PLL's bands are equal. -/
def tolerance (kind : Nat) : Nat :=
  match kind with
  | 1 => 400
  | 2 => 205
  | 3 => 800
  | _ => 0

/-- The codes of a line's active table at the ends of its phases: |a × code + b| is greatest over a phase's codes at its least or greatest. -/
def CalItem.ends (x : CalItem) : List (Nat × Nat) := (List.range 16).flatMap (fun p => [(p, x.code p 0), (p, x.code p 1023)])

/-- The difference of R226 between two results in the item's own units, positions in fs rounded up (log 52). -/
def CalItem.differ (x : CalItem) (u v : CalVal) : Nat :=
  match u, v with
  | .dnl a, .dnl b => ((a.zip b).map (fun q => (q.1 - q.2).natAbs)).foldl max 0
  | .model a os, .model b ps =>
    (x.ends.map (fun q => cdiv ((a - b) * q.2 + (os.getD q.1 0 - ps.getD q.1 0) * 65536).natAbs 65536)).foldl max 0
  | .err a, .err b => (a - b).natAbs
  | .lock _ a, .lock _ b => if a = b then 0 else 1
  | _, _ => 1

/-- The mean of two numbers, rounded half-even. -/
def mean2 (a b : Int) : Int := rhe (a + b) 2

/-- The mean of two results, rounded half-even in the item's own units (R227). -/
def CalVal.mean (u v : CalVal) : CalVal :=
  match u, v with
  | .dnl a, .dnl b => .dnl ((a.zip b).map (fun q => mean2 q.1 q.2))
  | .model a os, .model b ps => .model (mean2 a b) ((os.zip ps).map (fun q => mean2 q.1 q.2))
  | .err a, .err b => .err (mean2 a b)
  | .lock a c, .lock b _ => .lock (mean2 a b).toNat c
  | _, _ => u

/-- LASTDIFF of a difference: 0 for the PLL (R233). -/
def lastDiff (item diff : Nat) : Nat := if itemKind item == 4 then 0 else min 0xFFFFFFFF diff

/-- The deskew that an error gives (R218, R219). -/
def newDeskew (item : Nat) (old e : Int) : Int := if item % 2 == 1 then old + e else old - e

/-- MOVE of a model's swap (R229): the largest distance over the 16,384 entries between the positions that it predicts for the old and the new
code, in fs rounded up. -/
def CalItem.moveOf (x : CalItem) (ds : Int) (offs : List Int) : Nat :=
  let s := modelS ds
  let far := (List.range 16).foldl (fun m p => (List.range 1024).foldl (fun m f =>
    max m ((x.code p f : Int) - tableCode s (offs.getD p 0) f).natAbs) m) 0
  cdiv (s * far) 65536

/-- The item leaves every CAL_RUN that named it (R301): `failed` with the outcome RANGE or DISAGREE, `missed` without a measurement. -/
def State.itemLeaves (s : State) (item : Nat) (failed missed : Bool) : State :=
  { s with cal := { s.cal with
      started := s.cal.started.filter (fun i => i != item)
      runs := s.cal.runs.map (fun r =>
        if r.left.contains item then
          { r with left := r.left.filter (fun i => i != item), failed := if failed then r.failed ++ [item] else r.failed, missed := r.missed || missed }
        else r) } }

/-- The calibration of an item has ended; the line that the observer routes in its place has its interval from now on (R224). -/
def State.itemEnds (s : State) (item : Nat) (failed missed : Bool) : State :=
  let sl := itemCell item / 17
  let u := s.itemLeaves item failed missed
  if s.watched sl == some item then
    match u.watched sl with
    | some i => u.setItem i { u.item i with begun := some u.now }
    | none => u
  else u

/-- The item after an acceptance (R223, R227, R229). -/
def CalItem.accept (x : CalItem) (item : Nat) (m : CalVal) (diff now : Nat) : CalItem :=
  let x := { x with
    state := 1, due := false, range := false, count := min 0xFFFFFFFF (x.count + 1), tlast := now, lastdiff := lastDiff item diff
    disagree := 0, tries := 0, first := none }
  match m with
  | .dnl d => { x with offs := d, pending := true, pendO := (List.range 8).map (fun j => (vernier x.trims d j : Int)) }
  | .model ds offs => { x with pending := true, pendV := ds, pendO := offs, move := x.moveOf ds offs }
  | .err e =>
    let v := newDeskew item x.value e
    { x with pending := true, pendV := v, move := (v - x.value).natAbs }
  | .lock a b => { x with trims := [a, b] }

/-- The engine accepts the mean (R227); the PLL's trims show at once. -/
def acceptItem (s : State) (item : Nat) (m : CalVal) (diff : Nat) : State :=
  let s := s.setItem item ((s.item item).accept item m diff s.now)
  let sl := itemCell item / 17
  let s := if itemKind item == 1 then { s with cal := { s.cal with calTemps := s.cal.calTemps.set 0 sl (s.cal.temps.get 0 sl) } } else s
  let s := if itemKind item == 4 then s.checkHead item else s.swapOrHold item
  s.itemEnds item false false

/-- The engine keeps the old correction (R227); when DISAGREE reaches 3 the item is WORN, with CAL_WORN (R228). -/
def disagreeItem (s : State) (item diff : Nat) : State :=
  let x := s.item item
  let worn := x.disagree == 2
  let s := s.setItem item { x with
    lastdiff := lastDiff item diff
    disagree := min 3 (x.disagree + 1)
    state := if worn then 2 else x.state
    range := false, tries := 0, first := none }
  let s := s.count 0x0401 1 (s.itemEv item)
  let s := if worn then s.raiseFree (itemSrc item) 0x0201 false else s
  s.itemEnds item true false

/-- The calibration of an item ends with the outcome RANGE (R214, R219, R233). -/
def rangeItem (s : State) (item : Nat) : State :=
  (s.setItem item { s.item item with range := true, tries := 0, first := none }).itemEnds item true false

/-- Trims of a line moved from the model that has been fitted toward the one that has code(p, 0) = 64 and code(p, 1,023) = 1,088 (R214,
R212): 24% of the delay per code over the gain's range, 2,000 fs over an interpolator's (log 59). -/
def movedTrims (item : Nat) (x : CalItem) (ds : Int) (offs : List Int) : List Nat :=
  let s := 500000 * 1023 / 1024
  let fit := modelS ds
  let old := (trimRanges item).mapIdx (fun i p => x.trims.getD i (startTrim item i p))
  let lim := fun (hi : Nat) (v : Int) => (max 0 (min (hi : Int) v)).toNat
  old.mapIdx (fun i (t : Nat) =>
    if i == 0 then lim 255 (t + rhe (((s : Int) - fit) * 25500) (24 * fit))
    else lim 63 (t + rhe ((-(64 * (s : Int)) - offs.getD (i - 1) 0 * 65536) * 63) (2000 * 65536)))

/-- A measurement without a usable result: a TDC histogram discarded and started again (R222), or an attempt of R214, after which the
trims move and the line is measured again; a fit that decides no model moves none. -/
def unusableItem (s : State) (item : Nat) (v : Option CalVal) : State :=
  let x := s.item item
  if itemKind item == 2 then s.count 0x0400 1 (s.itemEv item)
  else if 4 ≤ x.tries + 1 then rangeItem s item
  else
    let trims := match v with
      | some (.model ds offs) => movedTrims item x ds offs
      | _ => x.trims
    (s.setItem item { x with tries := x.tries + 1, first := none, trims := trims }).checkHead item

/-- Both results of an item are there (R226, R227); a deskew outside ±10,000,000 fs ends with RANGE (R219, R47). -/
def settleItem (s : State) (item : Nat) (u v : CalVal) : State :=
  let x := s.item item
  let diff := x.differ u v
  let m := u.mean v
  let wide := match m with
    | .err e => decide (10000000 < (newDeskew item x.value e).natAbs)
    | _ => false
  if tolerance (itemKind item) < diff then disagreeItem s item diff
  else if wide then rangeItem (s.setItem item { x with lastdiff := lastDiff item diff }) item
  else acceptItem s item m diff

/-- The measurement of an item that has completed: the first waits for its repeat, and ends the succession of attempts (R214). -/
def State.takeMeasure (s : State) (item : Nat) (m : Option CalVal × Bool) : State :=
  match m, (s.item item).first with
  | (some v, true), none => s.setItem item { s.item item with first := some v, tries := 0 }
  | (some v, true), some u => settleItem s item u v
  | (v, _), _ => unusableItem s item v

/-- CAL_MEASUREMENT_DONE (R214, R218, R219, R222, R224, R226, R227). -/
def calMeasurement (s : State) (item : Nat) (r : CalRes) (ext : Bool) (t : Nat) : State :=
  if !s.calibrating item ext then s
  else match s.measured item r ext with
    | none => s
    | some m => ((s.at_ t).freshMeasure item).takeMeasure item m

def execCalMeasurementDone (item : Nat) (r : CalRes) (ext : Bool) (t : Nat) (s : State) : Step := .next (calMeasurement s item r ext t)

/-- TDC_HISTOGRAM_TIMEOUT (R222): a histogram short of 2^20 events 10 s of grid time after its first is given up without a count, and
the item's calibration ends without a result. -/
def histTimeout (s : State) (item t : Nat) : State :=
  let x := s.tdcs.get Tdc.zero (item % 4096)
  if itemKind item == 2 && itemValid item && x.since.any (fun f => decide (f + 10 * second ≤ t)) && decide (x.bins.sum < histFull) then
    (((s.at_ t).setItem item { s.item item with first := none }).freshMeasure item).itemEnds item false true
  else s

def execTdcHistogramTimeout (e : HistEnd) (s : State) : Step := .next (histTimeout s e.item e.t)

/-! ## Temperature and interval (R224, R225, R506) -/

/-- The DELAY items of the lines of a slice that its crossbar serves, 3 per channel. -/
def State.delayItems (s : State) (sl : Nat) : List Nat :=
  (List.range 16).flatMap (fun c => (List.range 3).map (fun l => 0x1000 + 3 * s.pcell (16 * sl + c) + l))

/-- TJ_HIGH: above 105 °C on any slice sensor, until every one reads below 103 °C (R506). -/
def State.dieTemp (s : State) : State :=
  let ts := (List.range 32).map (fun i => s.cal.temps.get 0 i)
  if ts.any (fun x => decide (840 < x)) then s.condition 0x004 0x0002 true
  else if ts.all (fun x => decide (x < 824)) then s.condition 0x004 0x0002 false
  else s

/-- In-service calibration of a line starts; one that is under way goes on (R224). -/
def State.startLine (s : State) (i : Nat) : State :=
  if s.cal.started.contains i then s
  else
    let s := s.setItem i { s.item i with begun := some s.now }
    { s with cal := { s.cal with started := addOnce i s.cal.started } }

/-- In-service calibration of every DELAY item of a slice starts (R225). -/
def State.startSlice (s : State) (sl : Nat) : State := (s.delayItems sl).foldl State.startLine s

/-- What a drift above 2.0 °C does (R225). -/
def State.drift (s : State) (sl : Nat) : State :=
  if s.observerLost sl then (s.delayDue sl).raiseFree (0x100 + 17 * sl + 16) 0x0202 false else s.startSlice sl

/-- SLICE_TEMP_READING in 0.125 °C (R225, R506). -/
def sliceTemp (s : State) (sl : Nat) (temp : Int) (t : Nat) : State :=
  if !s.powered (3 + sl) then s
  else
    let c := s.cal
    let s := ({ s.at_ t with cal := { c with temps := c.temps.set 0 sl temp } }).dieTemp
    if 16 < (temp - c.calTemps.get 0 sl).natAbs then s.drift sl else s

def execSliceTempReading (sl : Nat) (temp : Int) (t : Nat) (s : State) : Step := .next (sliceTemp s sl temp t)

/-- Whether CAL_INTERVAL has passed since in-service calibration of a line last started (R224). -/
def State.lineDue (s : State) (i t : Nat) : Bool := (s.item i).begun.all (fun b => decide (b + s.cal.interval * second ≤ t))

/-- CAL_INTERVAL_DUE (R224, R215, R228): a line routed for the whole interval whose live pattern has not reached every cell keeps its
model and sets DUE; then the observer starts the line whose turn it is, which it starts once per interval. The row names that line, 0 to
47, and one whose turn it is not changes nothing. -/
def calInterval (s : State) (sl line t : Nat) : State :=
  if !s.powered (3 + sl) || s.observerLost sl || line != s.cal.slTurn.get 0 sl then s
  else
    let s := s.at_ t
    if !s.tdcsOk (17 * sl + 16) then s.delayDue sl
    else
      let s := match s.watched sl with
        | some i => if s.lineDue i t then
            ((s.setItem i { s.item i with due := true, first := none }).freshMeasure i).itemEnds i false true else s
        | none => s
      let cur := (s.delayItems sl).getD line 0
      if !s.lineDue cur t then s
      else
        let s := { s with cal := { s.cal with slTurn := s.cal.slTurn.set 0 sl ((line + 1) % 48) } }
        if (s.item cur).state == 2 then s else s.startLine cur

def execCalIntervalDue (sl line t : Nat) (s : State) : Step := .next (calInterval s sl line t)

/-! ## CAL_RUN and CAL_STATUS (R216 to R219, R301, R302) -/

/-- The 16-byte cell entries of modes 1 to 3. -/
def cellEntries (bs : List Byte) (n : Nat) : List (List Byte) := pieces 16 n bs

/-- PCELL, d_path and t_loop of an entry, both signed fs (R301). -/
def calCell (e : List Byte) : CalCell := ⟨fld e 0 2, sext 32 (fld e 4 4), sext 32 (fld e 8 4)⟩

/-- The items that a mode calibrates on a cell, in their order (R216, R218, R219). -/
def modeItems (mode cell : Nat) : List Nat :=
  (if mode == 1 || mode == 3 then [0x2000 + 2 * cell, 0x2000 + 2 * cell + 1, 0x3000 + 2 * cell + 1] else []) ++
  (if mode == 2 || mode == 3 then [0x1000 + 3 * cell, 0x1000 + 3 * cell + 1, 0x3000 + 2 * cell] else [])

/-- Whether an item can be calibrated in service now (R220, R221, R228). -/
def State.inService (s : State) (item : Nat) : Bool :=
  (s.item item).state != 2 &&
  match itemKind item with
  | 1 => (s.cellLch (itemCell item)).isSome && !s.observerLost (itemCell item / 17)
  | 2 => s.cal.asyncMask.testBit (itemCell item) ||
      (itemCell item % 17 == 16 && !s.tb.crystal && !s.observerLost (itemCell item / 17))
  | _ => false

/-- Every item with an in-service source (R301, mode 4 with N = 0). -/
def State.allInService (s : State) : List Nat :=
  (((List.range 1632).map (fun i => 0x1000 + i)) ++ ((List.range 1088).map (fun i => 0x2000 + i))).filter s.inService

/-- The items of a cell start an external calibration anew. -/
def State.restartCell (s : State) (cell : Nat) : State :=
  (modeItems 3 cell).foldl (fun s i => (s.setItem i { s.item i with first := none, tries := 0 }).freshMeasure i) s

/-- CAL_RUN. -/
def cmdCalRun (h : Hdr) (p : CalRunP) (s : State) : State :=
  s.runCmd h 0x000C [(p.data, true)] none fun s =>
    let bs := s.dataIn h p.data
    let ext := within p.mode 1 3
    let timed := p.mode == 1 || p.mode == 3
    let es := cellEntries bs p.n
    let cells := es.map (fun e => fld e 0 2)
    let ids := (List.range p.n).map (fun i => fld bs (72 + 2 * i) 2)
    let need := if ext then 16 * p.n else 72 + 2 * p.n
    let pref0 := p.pref.i == 0 && p.pref.n == 0 && p.pref.d == 0
    checked s
      [(!within p.mode 1 4, eRange),
       (decide (bs.length < need), eLength),
       (ext && es.any (fun e => !(zeros e 2 2) || !(zeros e 12 4)), eReserved),
       (ext && (p.n == 0 || decide (544 < p.n)), eRange),
       ((ext && p.calint != 0) || (!timed && (!pref0 || p.t0.nz)) || (timed && p.t0.bad), eRange),
       (ext && (cells.any (fun c => decide (543 < c)) || cells.eraseDups.length != cells.length), eRange),
       (decide (3600 < p.calint) || (timed && !prefOk p.pref), eRange),
       (p.mode == 4 && (!(zeros bs 68 4) || ids.any (fun i => !itemValid i)), eRange),
       (ext && cells.any (fun c => s.isActive (s.cellOwner c)), eBusy),
       (p.mode == 2 && cells.any (fun c => (s.item (0x3000 + 2 * c + 1)).state != 1 || !s.tdcsOk c), eState)]
      (let s := if ext then cells.foldl State.restartCell s else
          { s with cal := { s.cal with asyncMask := fld bs 0 68, interval := if p.calint == 0 then s.cal.interval else p.calint } }
       let left := if ext then cells.flatMap (modeItems p.mode) else if p.n == 0 then s.allInService else ids.filter s.inService
       let s := if ext then s else (left.filter (fun i => itemKind i == 1)).foldl State.startLine s
       Res.acc { s with cal := { s.cal with runs := s.cal.runs ++
         [⟨h.tap, h.seq, p.mode, left, [], false, if ext then es.map calCell else [], p.pref, p.t0.time.getD 0, p.data⟩] } })

def execCalRun (h : Hdr) (p : CalRunP) (s : State) : Step := .next (cmdCalRun h p s)

/-- CAL_RUN_DONE: the first run whose items have all ended posts its final completion (R301, R348). -/
def calRunDone (s : State) (t : Nat) : State :=
  match s.cal.runs.find? (fun r => r.left.isEmpty) with
  | none => s
  | some r =>
    let s := s.at_ t
    let s := { s with cal := { s.cal with runs := s.cal.runs.erase r } }
    let data := r.failed.flatMap (le 2)
    let s := s.putData (some r.data) data
    let s := if r.failed.isEmpty && !r.missed then s.finish r.tap r.seq OK 0 []
      else s.finishData r.tap r.seq eHw 4 [] data.length (if r.data.inl then data else [])
    s.msi 0 3

def execCalRunDone (t : Nat) (s : State) : Step := .next (calRunDone s t)

/-- A status record (R233). DUE shows on a DELAY item while the slice's reserve cell lacks a TDC calibration (R215); OBSERVER_LOST shows
on DELAY items, which alone the observer calibrates (DESIGN CHOICE, log 52). -/
def State.calRecord (s : State) (item : Nat) : List Byte :=
  let x := s.item item
  let sl := itemCell item / 17
  let lost := itemKind item == 1 && s.observerLost sl
  let due := x.due || (itemKind item == 1 && !s.tdcsOk (17 * sl + 16))
  le 2 item ++ le 1 x.state ++
    le 1 (b2n due + 2 * b2n x.pending + 4 * b2n x.lowHead + 8 * b2n lost + 16 * b2n x.range) ++
    le 4 x.count ++ timeBytes x.tlast ++ le 4 x.lastdiff ++ le 2 (headroom item x.trims x.value) ++ le 1 x.disagree ++ le 1 0

/-- CAL_STATUS. -/
def cmdCalStatus (h : Hdr) (nitem : Nat) (data : DRef) (s : State) : State :=
  s.runCmd h 0x000D [(data, true)] (some data) fun s =>
    let ids := (List.range nitem).map (fun i => fld (s.dataIn h data) (2 * i) 2)
    checked s
      [(nitem == 0 || decide (3809 < nitem), eRange), (ids.any (fun i => !itemValid i), eRange),
       (decide (data.len < 32 * nitem), eLength)]
      (Res.ok s [] (ids.flatMap s.calRecord))

def execCalStatus (h : Hdr) (nitem : Nat) (data : DRef) (s : State) : Step := .next (cmdCalStatus h nitem data s)

/-! ## Fixture values (R45, R47, R54) -/

/-- FIXTURE_WRITE of a channel and direction (0 drive, 1 compare) with the status that it completes with: E_RANGE outside
±20,000,000 fs, E_TIMING when a loaded set of the batch that owns the channel would break R53, both without effect. -/
def fixtureWrite (s : State) (lch dir : Nat) (v : Int) : State :=
  let sets := match s.batch (s.sliceOwner.get 0 (lch / 16)) with
    | some x => x.sets.all (fun p => p.2.legal x.periods x.factors)
    | none => true
  match firstErr [(decide (20000000 < v.natAbs), eRange), (!sets, eTiming)] with
  | some st => s.emit (.fixture st)
  | none => ({ s with fixture := s.fixture.set 0 (2 * lch + dir) v }).emit (.fixture OK)

def execFixtureWrite (lch dir : Nat) (v : Int) (s : State) : Step := .next (fixtureWrite s lch dir v)

/-! ## BUILD_OUT_DONE (R377, R382, R215) -/

/-- A build-out completes: the active reference changes; when REFIN becomes active the calibration of reserve-cell TDCs that
are not CALIBRATED may begin (R215), which `calibrating` allows from then on. -/
def buildOutDone (s : State) (t : Nat) : State :=
  match s.tb.buildOut with
  | none => s
  | some crystal =>
    let s := s.at_ t
    s.setTb (s.tb.rcorrFrom { s.tb with crystal := crystal, holdover := false, buildOut := none, epochValid := false })

def execBuildOutDone (t : Nat) (s : State) : Step := .next (buildOutDone s t)

end Sys2Proof.Machine
end

