-- ==== Sys2Proof/Machine/Jobs.lean ====
section
/-! DEFINITION. What the events of a batch give a flow run to do: the end of a step, the end of a run (12_site_services.md
R329 to R335). Running jobs stands in Flow.lean. -/

namespace Sys2Proof.Machine
open Sys2Proof

/-- The defined sites of a batch, ascending (R156). -/
def SiteCfg.ids (c : SiteCfg) : List Nat := (List.range 512).filter (fun i => c.siteOf.contains i)

/-- A change of a batch's flow. -/
def State.onFlow (s : State) (b : Nat) (f : Flow → Flow) : State := s.onBatch b (fun x => { x with flow := f x.flow })

def State.flow (s : State) (b : Nat) : Flow :=
  match s.batch b with
  | some x => x.flow
  | none => Flow.zero

/-- A check order of R333: a MARK with the check code of the PATTERN step in progress. -/
def Flow.checks (f : Flow) (code : Nat) : Bool :=
  f.active && f.phase == 1 && (f.steps[f.step]?).any (fun st => st.arg1.testBit 16 && st.arg1 % 65536 == code)

/-- Flow control becomes a job of flow (b, BATCH), priority 2 (R341), an entry of that flow's queue 0 (DESIGN CHOICE, log 16). -/
def State.control (s : State) (b : Nat) : State := s.enqueue ⟨b, 0, 2, 0, .control, none⟩

/-- Whether a job of batch b is left in a site's flow. -/
def State.siteJobs (s : State) (b : Nat) : Bool :=
  let c := s.sched
  (c.ready ++ c.outside ++ c.delayed ++ c.cores.map Prod.snd).any (fun j => j.b == b && decide (1 ≤ j.flow) && decide (j.flow ≤ 512))

/-- The bin of a site, none before one is set. -/
def Flow.binOf (f : Flow) (i : Nat) : Option (Nat × Nat × Nat) := assoc f.bins i

/-- Payload of SITE_BIN (R335): SBIN, HBIN, the step; the manual states no bins for a site that the run has left without them:
`u` supplies them (log 18). -/
def Flow.binBody (f : Flow) (i u : Nat) : List Byte :=
  let v := (f.binOf i).getD (u % 256, u / 256 % 16, 0xFFFF)
  le 2 i ++ le 1 v.1 ++ le 1 v.2.1 ++ le 2 v.2.2 ++ le 2 0

/-- Payload of FLOW_END (R335). -/
def Flow.endBody (f : Flow) : List Byte :=
  let o := f.outcome.getD (0, 0)
  le 4 f.runNo ++ le 1 o.1 ++ le 1 0 ++ le 2 o.2 ++
    (List.range 16).flatMap (fun h => le 4 (f.bins.filter (fun p => p.2.2.1 == h)).length)

/-- An ending run whose sites have no job left writes SITE_BIN for every defined site in ascending order, then FLOW_END
(R335). -/
def State.closeRun (s : State) (b : Nat) : State :=
  match s.batch b with
  | none => s
  | some x =>
    if x.flow.phase != 5 || s.siteJobs b then s
    else
      let s := s.onFlow b (fun f => { f with phase := 6 })
      let s := x.site.ids.foldl (fun s i =>
        let (u, s) := s.fresh
        s.enqueue ⟨b, 0, 3, 0, .write 3 0 (x.flow.binBody i u), none⟩) s
      s.enqueue ⟨b, 0, 3, 0, .write 8 0 x.flow.endBody, none⟩

/-- The run ends with an outcome of R335 and a status. A control job that still waits finds the run ended and does nothing. -/
def State.endRun (s : State) (b outcome status : Nat) : State :=
  (s.onFlow b (fun f => { f with phase := 5, outcome := some (outcome, status) })).closeRun b

/-- The step's action has ended: each site of E is evaluated by a job of its own queue; with E empty flow control goes on
(R329, R331, R338); an ABORT ends the run here (R326). -/
def State.stepEnds (s : State) (b : Nat) : State :=
  let f := s.flow b
  let s := s.onFlow b (fun f => { f with phase := 4, left := f.e, failed := [] })
  if f.abort then s.endRun b 3 0
  else if f.e.isEmpty then s.control b else f.e.foldl (fun s i => s.enqueue ⟨b, 1 + i, 2, 2 + i, .eval i, none⟩) s

/-- A pattern step meets the stop of its batch (R329, R333). -/
def State.flowStop (s : State) (b reason v : Nat) : State :=
  let f := s.flow b
  if !f.active || f.phase != 1 then s
  else
    let s := s.onFlow b (fun f => { f with stopV := v })
    if reason == 1 || reason == 3 then s.stepEnds b
    else s.endRun b (if reason == 2 then 1 else 2) 0

end Sys2Proof.Machine
end

