-- ==== Sys2Proof/Machine/Acq.lean ====
section
/-! DEFINITION. Edge timestamping, triggers, records and averages (07_measurement.md R182 to R203, R58 to R60). A stamp counts
TDC units of 15,625/16 fs; times on the scale of the stamps are in 1/16 fs. Arming, level searches and MEAS_READ stand in
AcqRun.lean. -/

namespace Sys2Proof.Machine
open Sys2Proof

/-! ## Stamps and events (R182 to R186) -/

/-- A 47-bit stamp unwrapped to the count nearest the present, 2^47 above the count since the epoch. -/
def State.unwrap (s : State) (raw : Nat) : Nat :=
  let now := s.now * 16 / 15625 + wrap47
  let x := now / wrap47 * wrap47 + raw % wrap47
  if x + wrap47 / 2 < now then x + wrap47 else if now + wrap47 / 2 < x then x - wrap47 else x

/-- The units that R184 subtracts for a channel on a cell. -/
def State.stampFix (s : State) (lch pcell : Nat) : Int :=
  stampUnits (s.item (0x3000 + 2 * pcell + 1)).value (s.fixture.get 0 (2 * lch + 1))

/-- Whether an event is still to judge as a trigger. -/
def Event.open_ (e : Event) : Bool := !e.srcB && !e.judged

/-- What is kept of events that have all been judged, latest first (R192): the last 4,096 of each source, beside the latest of each type
of source A, which pulses and slews still to come start from. `a` and `b` count the events kept of each source, `seen` lists types. -/
def keepLast : Nat → Nat → List Nat → List Event → List Event
  | _, _, _, [] => []
  | a, b, seen, e :: es =>
    if e.old then keepLast a b seen es
    else if e.srcB then (if b < 4096 then e :: keepLast a (b + 1) seen es else keepLast a b seen es)
    else if a < 4096 || !seen.contains e.type then e :: keepLast (a + 1) b (addOnce e.type seen) es
    else keepLast a b seen es

/-- The events that an engine without a window holds: what has not been judged yet, and what R192 keeps of the rest. -/
def keepEvents (l : List Event) : List Event :=
  let n := (l.findIdx? Event.open_).getD l.length
  (keepLast 0 0 [] (l.take n).reverse).reverse ++ l.drop n

/-- An event reaches an engine, which loses none (R187). -/
def Acq.take (a : Acq) (e : Event) : Acq :=
  let l := a.events ++ [e]
  { a with events := if a.window.isSome then l else keepEvents l }

/-- An event of a cell goes to every engine armed on its channel (R187). The reserve cell's own events reach none (R186). An engine that is
not armed takes no event, so no pulse, slew or quiet interval that began before it armed qualifies (DESIGN CHOICE, log 39). -/
def State.emitEvent (s : State) (pcell : Nat) (cml rise merged : Bool) (raw : Nat) : State :=
  match s.cellLch pcell with
  | none => s
  | some lch =>
    let stamp := ((s.unwrap raw : Int) - s.stampFix lch pcell).toNat
    let e := fun (b : Bool) => (⟨stamp, (if cml then 2 else 0) + (if rise then 0 else 1), merged, b, false, false⟩ : Event)
    { s with acqs := s.acqs.map (fun p => match p.2.cfg with
        | some c =>
          if !p.2.armed then p
          else
            let a := if c.srcA == lch then p.2.take (e false) else p.2
            (p.1, if c.srcB == lch then a.take (e true) else a)
        | none => p) }

/-- The TDC of an input. -/
def tdcKey (pcell : Nat) (cml : Bool) : Nat := 2 * pcell + b2n cml

def State.tdc (s : State) (k : Nat) : Tdc := s.tdcs.get Tdc.zero k

/-- Whether the histogram of input `key` counts an event (R221): of an asynchronous cell, or by reference edges of an external run (R218). -/
def State.histCounts (s : State) (key : Nat) : Bool := s.asynchronous (key / 2) || s.calibrating (0x2000 + key) true

/-- A stamp reaches the histogram of its TDC, and the fit of the line that a slice's observer watches. -/
def State.gathers (s : State) (pcell key raw : Nat) : State :=
  let u := s.unwrap raw - wrap47
  let s := if s.histCounts key then { s with tdcs := upd Tdc.zero s.tdcs key (fun x => x.counted (raw % 128) (u * 15625 / 16)) } else s
  if pcell % 17 == 16 then s.observed (pcell / 17) u else s

/-- TDC_STAMP (R182 to R185): a transition on an input whose TDC is not blind, against the level it left; the first one shows the level. -/
def tdcStamp (s : State) (pcell : Nat) (cml rise : Bool) (raw : Nat) : State :=
  let k := tdcKey pcell cml
  let x := s.tdc k
  if x.blind || x.level == some rise || !s.powered (3 + pcell / 17) then s
  else
    let s := ({ s with tdcs := s.tdcs.set Tdc.zero k { x with level := some rise, blind := true } }).gathers pcell k raw
    s.emitEvent pcell cml rise false raw

def execTdcStamp (pcell : Nat) (cml rise : Bool) (raw : Nat) (s : State) : Step := .next (tdcStamp s pcell cml rise raw)

/-- TDC_BLIND_END (R185): `level` of the input, `moved` whether the detector registered a transition. -/
def tdcBlindEnd (s : State) (pcell : Nat) (cml level moved : Bool) (raw : Nat) : State :=
  let k := tdcKey pcell cml
  let x := s.tdc k
  if !x.blind then s
  else
    let s := if moved then
      s.count 0x0300 1 ⟨some (s.cellOwner pcell), some (pcell / 17), s.cellLch pcell, none⟩ else s
    if some level == x.level then { s with tdcs := s.tdcs.set Tdc.zero k { x with blind := false } }
    else ({ s with tdcs := s.tdcs.set Tdc.zero k { x with level := some level } }).emitEvent pcell cml level true raw

def execTdcBlindEnd (pcell : Nat) (cml level moved : Bool) (raw : Nat) (s : State) : Step :=
  .next (tdcBlindEnd s pcell cml level moved raw)

/-! ## Triggers (R190, R191) -/

/-- An event's time in 1/16 fs. -/
def Event.at16 (e : Event) : Nat := e.stamp * 15625

def Event.rise (e : Event) : Bool := e.type % 2 == 0
def Event.cml (e : Event) : Bool := decide (2 ≤ e.type)

/-- The stamps' scale at a grid time in fs. -/
def scale16 (fs : Nat) : Nat := (fs + wrap47 * 15625 / 16) * 16

/-- Whether w lies in [TLIM1, TLIM2], w in units (R188). -/
def inLims (c : AcqCfg) (w : Nat) : Bool := decide (16 * c.tlim1 ≤ 15625 * w) && decide (15625 * w ≤ 16 * c.tlim2)

/-- The latest earlier event of source A on an input. -/
def prevOn (cml : Bool) (before : List Event) : Option Event := before.find? (fun e => !e.srcB && !e.old && e.cml == cml)

/-- Whether source-A event e qualifies (R190): `before` latest first, `after` in order, all events up to `t` arrived; none while
that depends on events still to come. -/
def qualifies (c : AcqCfg) (before : List Event) (e : Event) (after : List Event) (t : Nat) : Option Bool :=
  let input := e.cml == c.tsel.testBit 0
  let neg := c.tsel.testBit 3
  let pol := bits c.tsel 2 1
  let lim := e.at16 + 16 * c.tlim1
  let later := after.filter (fun x => !x.srcB && !x.old)
  if e.old then some true
  else match c.ttype with
  | 0 => some (input && (pol == 2 || e.rise == (pol == 0)))
  | 1 | 2 =>
    match prevOn e.cml before with
    | some p => some (input && e.rise == neg && p.rise != neg && (inLims c (e.stamp - p.stamp) == (c.ttype == 1)))
    | none => some false
  | 3 =>
    let starts := if neg then !e.cml && !e.rise else e.cml && e.rise
    if !starts then some false
    else if later.any (fun x => x.cml != e.cml && x.rise == e.rise && decide (e.stamp < x.stamp) && decide (x.at16 ≤ lim)) then some false
    else if lim ≤ t then some true else none
  | 4 =>
    if !input then some false
    else match later.find? (fun x => x.cml == e.cml) with
      | some x => some (decide (lim < x.at16))
      | none => if lim ≤ t then some true else none
  | _ =>
    let ends := if neg then e.cml && !e.rise else !e.cml && e.rise
    match prevOn (!e.cml) before with
    | some p =>
      let again := before.any (fun x => !x.srcB && !x.old && x.cml == e.cml && x.rise == e.rise && decide (p.stamp < x.stamp))
      some (ends && p.rise == e.rise && !again && (inLims c (e.stamp - p.stamp) == (c.ttype == 5)))
    | none => some false

/-- The first event still to judge that qualifies, with the events before it latest first; those before it judged. -/
def judge (c : AcqCfg) (t : Nat) : List Event → List Event → List Event × Option (Event × List Event)
  | _, [] => ([], none)
  | before, e :: es =>
    if !e.open_ then
      let r := judge c t (e :: before) es
      (e :: r.1, r.2)
    else
      match qualifies c before e es t with
      | none => (e :: es, none)
      | some true => (e :: es, some (e, before))
      | some false =>
        let r := judge c t (e :: before) es
        ({ e with judged := true } :: r.1, r.2)

/-- The first event still to judge is judged. -/
def judgeFirst : List Event → List Event
  | [] => []
  | e :: es => if e.open_ then { e with judged := true } :: es else e :: judgeFirst es

/-- The events of a pulse or slew that ends with e (R190): those of source A since the event it starts from. -/
def spanOf (c : AcqCfg) (before : List Event) (e : Event) : List Event :=
  let start := if c.ttype == 1 || c.ttype == 2 then prevOn e.cml before else if c.ttype == 5 || c.ttype == 6 then prevOn (!e.cml) before else none
  match start with
  | none => [e]
  | some p => e :: before.filter (fun x => !x.srcB && !x.old && decide (p.stamp ≤ x.stamp) && (decide (5 ≤ c.ttype) || x.cml == e.cml))

/-- The trigger point of a qualifying event in 1/16 fs (R190). -/
def trigPoint (c : AcqCfg) (e : Event) : Nat := if c.ttype == 4 then e.at16 + 16 * c.tlim1 else e.at16

/-- The time of the earliest event that source b holds for a window: the oldest of its last 4,096 up to the trigger point, 0 where it
has fewer (R192). -/
def Acq.oldest (a : Acq) (b : Bool) (tp : Nat) : Nat :=
  let l := a.events.filter (fun e => e.srcB == b && decide (e.at16 ≤ tp))
  if l.length < 4096 then 0 else ((l.drop (l.length - 4096)).map Event.at16).foldl min tp

/-- The engine after a qualification: skipped, or a window opens (R191); none where the window before it still stands open. -/
def Acq.qualify (a : Acq) (c : AcqCfg) (q : Event × List Event) (now : Nat) : Option (Acq × Bool) :=
  let tp := trigPoint c q.1
  let byCount := c.flags.testBit 0
  let hold := if byCount then 0 else c.holdoff % 281474976710656
  let early := match a.lastTrig with
    | some l => decide (tp < l + 16 * max c.post (max c.recint hold))
    | none => false
  let b := { a with events := judgeFirst a.events }
  if early then some ({ b with skips := a.skips + 1, quals := a.quals + 1 }, true)
  else if byCount && decide (0 < a.skip) then some ({ b with skip := a.skip - 1, skips := a.skips + 1, quals := a.quals + 1 }, true)
  else if a.window.isSome then none
  else
    let fa := a.oldest false tp
    let fb := a.oldest true tp
    let start := tp - 16 * c.pre
    some ({ b with
      window := some ⟨q.1.stamp, tp, decide (start < fa) || decide (start < fb), fa, fb, (spanOf c q.2 q.1).any (fun e => e.merged), now, false⟩
      lastTrig := some tp
      skip := if byCount then c.holdoff % two32 else 0 }, false)

/-- The engine of a number. -/
def State.acq (s : State) (n : Nat) : Acq := s.acqs.get Acq.zero n

def State.setAcq (s : State) (n : Nat) (a : Acq) : State := { s with acqs := s.acqs.set Acq.zero n a }

/-- Where an engine's events count. -/
def State.acqEv (s : State) (n : Nat) : Ev := Ev.ofA (s.acqOwner.get 0 n) n

/-- TRIGGER_QUALIFICATION (R190, R191): every event stamped up to t has reached the engine. A qualification that opens a window waits
until the record before it is written. -/
def triggerQual (s : State) (n t : Nat) : State :=
  let a := s.acq n
  match a.cfg with
  | none => s
  | some c =>
    if !a.armed then s
    else
      let s := s.at_ t
      let r := judge c (scale16 t) [] a.events
      let a := { a with events := r.1 }
      match r.2.bind (fun q => a.qualify c q s.now) with
      | none => s.setAcq n a
      | some (a, skipped) =>
        let s := s.setAcq n a
        if skipped then (s.count 0x0304 1 (s.acqEv n)).count 0x0301 1 (s.acqEv n) else s

def execTriggerQualification (acq t : Nat) (s : State) : Step := .next (triggerQual s acq t)

/-! ## Markings (R199, R200) -/

/-- A change at the present marks the record in progress and n more with a reason. An open window that has ended by now is not in
progress any more, unless its trigger was confirmed at this same moment (R200). -/
def Acq.mark (a : Acq) (now reason n : Nat) : Acq :=
  let ended := match a.window, a.cfg with
    | some w, some c => decide (w.trig + 16 * c.post ≤ scale16 now) && decide (w.at_ < now)
    | _, _ => false
  let first := a.recno + b2n ended
  { a with marks := (reason, first, first + n) :: a.marks }

/-- A change of a threshold of a channel, made by a script with a settle time in ns (0 for the default 2 µs), marks the records of
every engine that has the channel as a source, and ends a level search on it that did not make the change (R199, R206). -/
def State.thresholdMarks (s : State) (lch settle : Nat) (by_ : Option Nat) : State :=
  let settle := if settle == 0 then 2000 else settle
  { s with acqs := s.acqs.map (fun p => match p.2.cfg with
      | some c =>
        if !p.2.armed || !(c.srcA == lch || c.srcB == lch) then p
        else
          let a := p.2.mark s.now 2 (cdiv (settle * ns) (max 1 c.recint))
          let hit := a.ls.any (fun x => x.lch == lch) && by_ != some p.1
          (p.1, { a with ls := a.ls.map (fun x => if hit && x.status == 4 then { x with status := 3 } else x) })
      | none => p) }

/-! ## Measurements (R198) -/

/-- One sample: status and value; the value is formed for status 0 and 3. -/
structure Sample where
  st : Nat
  v : Int

def Sample.few : Sample := ⟨2, 0⟩

/-- A formed sample from events, MERGED when one of them is, OVF when it leaves 64 bits. -/
def formed (v : Int) (used : List Event) : Sample :=
  if v < -9223372036854775808 || 9223372036854775807 < v then ⟨4, 0⟩ else ⟨if used.any (fun e => e.merged) then 3 else 0, v⟩

def gap (a b : Event) : Int := (b.stamp : Int) - a.stamp

/-- The first pair of a start event and the next event of the goal with no spoiler between (slots 5, 6). -/
def firstPair (start goal spoil : Event → Bool) : List Event → Option Event → Option (Event × Event)
  | [], _ => none
  | e :: es, cur =>
    match cur with
    | some x =>
      if goal e then some (x, e) else if spoil e then firstPair start goal spoil es none else firstPair start goal spoil es cur
    | none => firstPair start goal spoil es (if start e then some e else none)

/-- What the slots of a record are computed from: events of source A in the window, of source B, the input, the configuration, the
trigger point, ΔV in µV. -/
structure Meas where
  a : List Event
  b : List Event
  c : AcqCfg
  trig : Nat
  dv : Int

/-- Rising and falling events on MEAS_IN. -/
def Meas.edges (m : Meas) : List Event := m.a.filter (fun e => e.cml == m.c.flags.testBit 1)
def Meas.rises (m : Meas) : List Event := m.edges.filter Event.rise
def Meas.falls (m : Meas) : List Event := m.edges.filter (fun e => !e.rise)

/-- First event of a list at or after the position of x: the next of the other polarity on the input. -/
def Meas.nextAfter (m : Meas) (x : Event) (rise : Bool) : Option Event :=
  m.edges.find? (fun e => e.rise == rise && decide (x.stamp ≤ e.stamp) && (e.stamp != x.stamp || e.type != x.type))

def Meas.riseTime (m : Meas) : Option (Event × Event) :=
  firstPair (fun e => e.type == 2) (fun e => e.type == 0) (fun e => e.type == 3) m.a none

def Meas.fallTime (m : Meas) : Option (Event × Event) :=
  firstPair (fun e => e.type == 1) (fun e => e.type == 3) (fun e => e.type == 0) m.a none

/-- A rate of slots 9 and 10. -/
def Meas.rate (m : Meas) (p : Option (Event × Event)) : Sample :=
  match p with
  | none => .few
  | some (x, y) =>
    if m.dv ≤ 0 || gap x y ≤ 0 then ⟨4, 0⟩ else formed (rhe (m.dv * 262144) (1000 * (gap x y).toNat)) [x, y]

/-- The source-B event nearest the trigger point; at equal distance the earlier (slot 8). SKEW_POL 2 and 3, which the manual leaves
open, count as 1, fall (DESIGN CHOICE, log 40). -/
def Meas.nearest (m : Meas) : Option Event :=
  let l := m.b.filter (fun e => e.cml == m.c.flags.testBit 2 && e.rise == (bits m.c.flags 4 3 == 0))
  let d := fun (e : Event) => ((e.at16 : Int) - m.trig).natAbs
  l.foldl (fun best e => match best with
    | none => some e
    | some x => if d e < d x || (d e == d x && decide (e.stamp < x.stamp)) then some e else some x) none

/-- The sample of a slot (R198). `u` supplies the SKEW of a TIMEOUT trigger that lies between two units (log 18). -/
def Meas.slot (m : Meas) (u : Nat) (k : Nat) : Sample :=
  match k with
  | 0 => match m.rises with
    | x :: y :: _ => formed (gap x y) [x, y]
    | _ => .few
  | 1 =>
    if m.c.pre + m.c.post < 1000000000 then ⟨5, 0⟩
    else match m.rises with
      | x :: y :: l =>
        let z := l.getLastD y
        if gap x z = 0 then .few
        else
          let n := l.length + 1
          formed (rhe ((n : Int) * 1048576 * 1024000000000) (gap x z).toNat) m.rises
      | _ => .few
  | 2 => match m.rises.head? with
    | some x => match m.nextAfter x false with
      | some y => formed (gap x y) [x, y]
      | none => .few
    | none => .few
  | 3 => match m.falls.head? with
    | some x => match m.nextAfter x true with
      | some y => formed (gap x y) [x, y]
      | none => .few
    | none => .few
  | 4 => match m.rises.head? with
    | some x => match m.nextAfter x false with
      | some y => match m.nextAfter y true with
        | some z => if gap x z = 0 then .few else formed (rhe (gap x y * 16777216) (gap x z).toNat) [x, y, z]
        | none => .few
      | none => .few
    | none => .few
  | 5 => match m.riseTime with
    | some (x, y) => formed (gap x y) [x, y]
    | none => .few
  | 6 => match m.fallTime with
    | some (x, y) => formed (gap x y) [x, y]
    | none => .few
  | 7 => formed m.edges.length m.edges
  | 8 => match m.nearest with
    | some e =>
      if m.trig % 15625 = 0 then formed ((e.stamp : Int) - m.trig / 15625) [e]
      else ⟨if e.merged then 3 else 0, sext 64 u⟩
    | none => .few
  | 9 => m.rate m.riseTime
  | _ => m.rate m.fallTime

/-! ## Records and averages (R193, R201, R203) -/

/-- Whether an event belongs to a window's record: held for it (R192), and of a source that the record has (R200). -/
def Window.has (w : Window) (e : Event) : Bool :=
  (w.keepOld || !e.old) && decide ((if e.srcB then w.fromB else w.fromA) ≤ e.at16)

/-- Events of a window between two times in stamp order, source A first at equal stamps. -/
def windowEvents (l : List Event) (w : Window) (lo hi : Nat) : List Event :=
  let w := l.filter (fun e => w.has e && decide (lo ≤ e.at16) && decide (e.at16 ≤ hi))
  let before := fun (x y : Event) => decide (x.stamp < y.stamp) || (x.stamp == y.stamp && (!x.srcB || y.srcB))
  w.mergeSort before

/-- The coarse count of an event lies on the other side of its wrap than that of the trigger point, in 1/16 fs (R186). -/
def wrapped (e : Event) (trig : Nat) : Bool := e.stamp / wrap47 != trig / 15625 / wrap47

/-- An event word (R186). -/
def Event.word (e : Event) (trig : Nat) : Nat :=
  e.stamp % wrap47 + (if wrapped e trig then wrap47 else 0) + e.type * 2 ^ 48 + b2n e.merged * 2 ^ 50 + b2n e.srcB * 2 ^ 51

/-- The grid time of a trigger point rounded half-even to 1 fs: a stamp stands for the centre of its span (R183, R193). -/
def trigTime (trig : Nat) : Nat := ((rhe ((trig : Int) * 2 + 15625) 32) - (wrap47 * 15625 / 16 : Nat)).toNat

/-- The measurement block (R198): values of slots that form none hold a free value (log 18), slots not enabled zero. -/
def measBlock (ss : List Sample) (mask u : Nat) : List Byte :=
  let f := fun (k : Nat) (x : Sample) =>
    if !mask.testBit k then 0 else if x.st == 0 || x.st == 3 then toField 64 x.v else Config.freeValue (u + k) % 2 ^ 64
  let st := fun (k : Nat) (x : Sample) => if mask.testBit k then x.st else 1
  (ss.mapIdx (fun k x => le 8 (f k x))).flatten ++ le 8 ((ss.mapIdx (fun k x => st k x * 16 ^ k)).sum)

/-- Bytes of one ring slot (R193). -/
def slotBytes (c : AcqCfg) : Nat := 160 + 8 * c.evtmax

/-- The sum of samples with the limits of R58. -/
def satAdd (p : Int × Bool) (v : Int) : Int × Bool :=
  let x := p.1 + v
  if 9223372036854775807 < x then (9223372036854775807, true) else if x < -9223372036854775808 then (-9223372036854775808, true) else (x, p.2)

/-- y of R58 over n samples, oldest first, with OVF. -/
def average (vs : List Int) : Int × Bool :=
  let a := vs.foldl satAdd (0, false)
  let y := rhe (a.1 * 256) (max 1 vs.length)
  if 9223372036854775807 < y then (9223372036854775807, true)
  else if y < -9223372036854775808 then (-9223372036854775808, true) else (y, a.2)

/-- Samples of a slot in the boxcar with their record numbers, newest first. -/
def Acq.boxOf (a : Acq) (k : Nat) : List (Nat × Int × Bool) := (a.box.filter (fun p => p.1 == k)).map Prod.snd

/-- One result per slot whose boxcar holds enough samples (R201), with the number of the last record covered and RCORR and ε at the end of
the interval (R381); `trunc` closes every boxcar that holds a sample (R203, log 66). -/
def Acq.results (a : Acq) (c : AcqCfg) (scale : Int × Int) (trunc : Bool) : List AvgRes :=
  (List.range 11).filterMap (fun k =>
    let l := a.boxOf k
    if !c.measmask.testBit k || l.isEmpty || (!trunc && decide (l.length < 2 ^ c.avgk)) then none
    else
      let y := average (l.map (fun p => p.2.1)).reverse
      some ⟨(l.headD (0, 0, false)).1, k, y.2, l.any (fun p => p.2.2), trunc, l.length, y.1, scale.1, scale.2⟩)

/-- The valid samples of a record enter the boxcars, which keep the last 2^k. -/
def Acq.fill (a : Acq) (c : AcqCfg) (recno : Nat) (ss : List Sample) : Acq :=
  let new := (ss.mapIdx (fun k x => (k, x))).filter (fun p => c.measmask.testBit p.1 && (p.2.st == 0 || p.2.st == 3))
  let box := (List.range 11).flatMap (fun k =>
    ((new.filter (fun p => p.1 == k)).map (fun p => (k, recno, p.2.v, p.2.st == 3)) ++ a.box.filter (fun p => p.1 == k)).take (2 ^ c.avgk))
  { a with box := box }

/-- Results formed: held for MEAS_READ, and the last of each slot (R317, R327). -/
def Acq.addRes (a : Acq) (l : List AvgRes) : Acq :=
  { a with res := a.res ++ l, last := l.foldl (fun m r => put m r.slot r) a.last }

/-- A power-fail warning (R199, R203): the record in progress is marked, open boxcars close with what they hold, also those of an engine
disarmed since. -/
def Acq.powerFail (a : Acq) (now : Nat) (tb : TimeBase) : Acq :=
  match a.cfg with
  | none => a
  | some c =>
    let a := { a.addRes (a.results c (tb.scaleAt now) true) with box := [] }
    if a.armed then a.mark now 4 0 else a

end Sys2Proof.Machine
end

