-- ==== Sys2Proof/Machine/Counters.lean ====
section
/-! DEFINITION. Event counters and the counter window (18_counters_latency.md R487 to R497), the interrupt controller and
MSI-X (12_site_services.md R345 to R348), the DEVTIME latch (R521). -/

namespace Sys2Proof.Machine
open Sys2Proof

/-! ## Sources (R488, R490) -/

/-- The class of a counter source. -/
inductive SrcClass where
  | c | s | b | a | f | d | l
deriving DecidableEq, Repr

/-- The catalogue of R490. -/
def srcClass (n : Nat) : Option SrcClass :=
  if n ∈ [0x0200, 0x0202, 0x0300, 0x0400, 0x0401, 0x0402] then some .c
  else if n ∈ [0x0103, 0x0104, 0x0105, 0x0201] then some .s
  else if n ∈ [0x0100, 0x0101, 0x0102, 0x0106, 0x0107, 0x0108, 0x0203, 0x0204, 0x0600, 0x0601, 0x0602, 0x0708] then some .b
  else if within n 0x0301 0x0305 then some .a
  else if within n 0x0500 0x0506 || n == 0x0508 then some .f
  else if n == 0x0507 || n == 0x0603 || n == 0x0604 || within n 0x0700 0x0707 || within n 0x0800 0x0807 || n ∈ [0x0900, 0x0901, 0x0903] then some .d
  else if n == 0x0902 || n == 0x0904 then some .l
  else none

/-- Whether a class allows a scope kind to a batch counter, or to a device counter (R488). -/
def SrcClass.allows (k : SrcClass) (batch : Bool) (kind : Nat) : Bool :=
  kind == 0 || (batch && match k with
    | .c => true
    | .s => kind == 1
    | .a => kind == 2
    | _ => false)

/-- Whether a batch owns what SCOPE names (R488). -/
def State.ownsScope (s : State) (b : Nat) (k : SrcClass) (kind scope : Nat) : Bool :=
  match kind with
  | 0 => true
  | 1 => (ones scope 32).all (fun sl => s.sliceOwner.get 0 sl == b)
  | _ => if k == .a then s.acqOwner.get 0 scope == b && decide (scope < 12) else decide (scope < 512) && s.sliceOwner.get 0 (scope / 16) == b

/-- What a counter shows: a class-L counter shows its level (R489). -/
def State.ctrValue (s : State) (c : Ctr) : Nat :=
  if c.source == 0x0902 then s.pwr.held
  else if c.source == 0x0904 then s.pwr.avail
  else c.value

/-- Value [47:0] with OVF in [63] (R314, R318). -/
def ctrWord (value : Nat) (ovf : Bool) : Nat := value + if ovf then 9223372036854775808 else 0

def State.ctr (s : State) (n : Nat) : Ctr := s.ctrs.get Ctr.zero n

/-- COUNTER_SELECT (R487, R488, R495): a field SCOPE that is not zero with SCOPEKIND 0 gives E_RANGE (R529). -/
def cmdCounterSelect (h : Hdr) (counter kind source scope : Nat) (s : State) : State :=
  s.runCmd h 0x0110 [] none fun s =>
    let b := cmdBatch h
    let c := s.ctr counter
    let cls := srcClass source
    checked s
      [(c.owner != b, eOwner),
       (decide (2 < kind) || (source != 0 && cls.isNone) || (kind == 0 && scope != 0), eRange),
       (b != 0 && (cls == some .d || cls == some .l), eOwner),
       (cls.any (fun k => !k.allows (b != 0) kind), eRange),
       (cls.any (fun k => !s.ownsScope b k kind scope), eOwner)]
      (let v := s.ctrValue c
       Res.ok { s with ctrs := s.ctrs.set Ctr.zero counter ⟨0, false, source, kind, scope, v, c.ovf, c.owner⟩ } (le 8 (ctrWord v c.ovf)) [])

def execCounterSelect (h : Hdr) (counter kind source scope : Nat) (s : State) : Step := .next (cmdCounterSelect h counter kind source scope s)

/-! ## The counter window (R493, R494) -/

def State.win (s : State) (fn : Nat) : Window64 := s.wins.get Window64.zero fn

def State.setWin (s : State) (fn : Nat) (w : Window64) : State := { s with wins := s.wins.set Window64.zero fn w }

/-- The counter that a slot shows (R493). -/
def Window64.ctr (w : Window64) (slot : Nat) : Nat := w.map.get 0 slot ^^^ slot

/-- Whether a function reaches a counter: a virtual function only those of its batch. -/
def State.reaches (s : State) (fn n : Nat) : Bool := fn == 0 || (s.ctr n).owner == fn

/-- CNT_LO_READ (R493, R494): the read latches VALUE_HI and OVF of the slot. -/
def cntLoRead (s : State) (fn slot : Nat) : State :=
  let w := s.win fn
  let n := w.ctr slot
  let v := if s.reaches fn n then (s.ctrValue (s.ctr n) / 4294967296, (s.ctr n).ovf) else (0, false)
  if !s.pcie.up fn then s else s.setWin fn { w with latch := w.latch.set (0, false) slot v }

def execCntLoRead (fn slot : Nat) (s : State) : Step := .next (cntLoRead s fn slot)

/-- CNT_OVF_CLEAR (R493). -/
def cntOvfClear (s : State) (fn slot : Nat) : State :=
  let n := (s.win fn).ctr slot
  if s.pcie.up fn && s.reaches fn n then { s with ctrs := upd Ctr.zero s.ctrs n (fun c => { c with ovf := false }) } else s

def execCntOvfClear (fn slot : Nat) (s : State) : Step := .next (cntOvfClear s fn slot)

/-- DEVTIME_READ (R521): the latch takes the start of the present phase-clock cycle. -/
def devtimeRead (s : State) (fn t : Nat) : State :=
  if !s.pcie.up fn then s
  else
    let s := s.at_ t
    s.setWin fn { s.win fn with devtime := s.now / cycle * cycle }

def execDevtimeRead (fn t : Nat) (s : State) : Step := .next (devtimeRead s fn t)

/-! ## The interrupt controller (R345 to R347) -/

/-- Numbers that have a source (R345). -/
def irqSource (n : Nat) : Bool :=
  (decide (n < 0x800) && srcAssigned n) || within n 0x800 0x810 || within n 0x820 0x830 || within n 0x840 0x850 || n == 0xFFF

/-- IRQ_SIGNAL: a number without a source is ignored and counted. -/
def irqSignal (s : State) (n : Nat) : State := if irqSource n then s.signal n else s.count 0x0603 1 Ev.dev

def execIrqSignal (n : Nat) (s : State) : Step := .next (irqSignal s n)

/-- MALTSTER_TIMER signals source 0xFFF. -/
def maltsterTimer (s : State) (t : Nat) : State := (s.at_ t).signal 0xFFF

def execMaltsterTimer (t : Nat) (s : State) : Step := .next (maltsterTimer s t)

/-- The least of a list of numbers. -/
def least (l : List Nat) : Option Nat := l.foldl (fun m n => match m with
  | none => some n
  | some k => some (min k n)) none

/-- IRQ_CLAIM (R346): the core reads the lowest pending source targeted at it with VALID, and the source becomes active; with none it reads
the spurious number without VALID. Core 0 is the Maltster, 1 to 9 are the logical service cores 0 to 8. -/
def irqClaim (s : State) (core : Nat) : State :=
  match least (s.irq.pending.filter (fun n => (s.irq.mask n).testBit core)) with
  | none => s.emit (.claim core 0xFFF false)
  | some n =>
    ({ s with irq := { s.irq with pending := s.irq.pending.filter (fun m => m != n), active := addOnce n s.irq.active } }).emit (.claim core n true)

def execIrqClaim (core : Nat) (s : State) : Step := .next (irqClaim s core)

/-- IRQ_COMPLETE (R347): an active-and-pending source becomes pending again. -/
def irqComplete (s : State) (_core n : Nat) : State :=
  if n ∈ s.irq.active then
    { s with irq := { s.irq with
        active := s.irq.active.filter (fun m => m != n)
        again := s.irq.again.filter (fun m => m != n)
        pending := if n ∈ s.irq.again then addOnce n s.irq.pending else s.irq.pending } }
  else s

def execIrqComplete (core n : Nat) (s : State) : Step := .next (irqComplete s core n)

/-- MSIX_UNMASK (R348): the message of a pending vector follows at the unmask. -/
def msixUnmask (s : State) (fn vec : Nat) : State :=
  let k := 4 * fn + vec
  let q := s.irq
  if !s.pcie.up fn then s
  else
    let s := { s with irq := { q with masked := q.masked.filter (fun m => m != k), msiPend := q.msiPend.filter (fun m => m != k) } }
    if k ∈ q.msiPend then s.emit (.msix fn vec) else s

def execMsixUnmask (fn vec : Nat) (s : State) : Step := .next (msixUnmask s fn vec)

end Sys2Proof.Machine
end

