-- ==== Sys2Proof/Machine/PatCheck.lean ====
section
/-! DEFINITION. The checks of a program: the proof of R104, the period trace of R75 and R108, the loop check of R118, the
length rule of R74 and the fetch share of R87 (04_sequencer.md, 03_vector_data.md). -/

namespace Sys2Proof

/-- Whether a condition can fail to act: any but ALWAYS. -/
def Cond.may (c : Cond) : Bool := c.cond != 0 || c.inv

end Sys2Proof

namespace Sys2Proof.Machine
open Sys2Proof

/-! ## Instructions one by one (R90 to R92, R107) -/

/-- The condition byte of an instruction that takes one. -/
def condByte (i : PInstr) : Option Cond :=
  match i with
  | .call c _ | .jmp c _ | .ret c | .halt c => some c
  | _ => none

/-- Values of COND that R92 lists. -/
def condListed (c : Nat) : Bool :=
  c == 0 || c == 1 || c == 2 || (decide (0x10 ≤ c) && decide (c ≤ 0x1F)) || c == 0x20 || c == 0x21 || c == 0x30 || c == 0x38 ||
    c == 0x39 || c == 0x3A

/-- Rows of R107 on one instruction: an illegal COND, INV with ALWAYS, a FLAG bit in both masks. -/
def badCode (i : PInstr) : Bool :=
  (match condByte i with
    | some c => !condListed c.cond || (c.cond == 0 && c.inv)
    | none => false) ||
  match i with
  | .flag a b => a &&& b != 0
  | _ => false

/-- Cost in microwords: ENDL taken, TSET hit (R90, R118). -/
def cost : PInstr → Nat
  | .nop => 1
  | .vec .. => 4
  | .rpt .. => 2
  | .loop .. => 3
  | .endl => 2
  | .call .. => 5
  | .ret .. => 4
  | .jmp .. => 2
  | .mtch .. => 12
  | .tset .. => 3
  | .per .. => 6
  | .waitt .. => 4
  | .sync .. => 6
  | .trig .. => 2
  | .mark .. => 3
  | .flag .. => 1
  | .sitemask .. => 3
  | .peact .. => 8
  | .halt .. => 4

/-! ## Brackets (R104) -/

/-- The open LOOP addresses at every address in address order, innermost first; none where LOOP and ENDL do not pair. The
chain at a LOOP is the one outside its body, the chain at an ENDL the one inside. -/
def chainsFrom : List PInstr → Nat → List Nat → Option (List (List Nat))
  | [], _, st => if st.isEmpty then some [] else none
  | i :: is, a, st =>
    (match i, st with
      | .loop _, _ => chainsFrom is (a + 1) (a :: st)
      | .endl, [] => none
      | .endl, _ :: st' => chainsFrom is (a + 1) st'
      | _, _ => chainsFrom is (a + 1) st).map (fun m => st :: m)

/-! ## Exploration (R104, R75, R108) -/

/-- A point of a path: the entry of the subroutine (0 for the main program), the abstract value at that entry, the address,
and the abstract value there. -/
structure PNode where
  e : Nat
  v0 : Nat
  a : Nat
  v : Nat
deriving DecidableEq, Repr

/-- The points that a point leads to, taking each condition both ways; `nodes` gives the returns found so far. -/
def succs (prog : List PInstr) (chains : List (List Nat)) (tr : PInstr → Nat → Nat) (nodes : List PNode) (n : PNode) : List PNode :=
  match prog[n.a]? with
  | none => []
  | some i =>
    let go := fun a => ({ n with a := a, v := tr i n.v } : PNode)
    let next := go (n.a + 1)
    match i with
    | .jmp c t => (if t < prog.length then [go t] else []) ++ (if c.may then [next] else [])
    | .call c t =>
      (if t < prog.length then
        ⟨t, n.v, t, n.v⟩ ::
          (nodes.filter (fun m => m.e == t && m.v0 == n.v && (match prog[m.a]? with
            | some (.ret _) => true
            | _ => false))).map (fun m => { n with a := n.a + 1, v := m.v })
        else []) ++ (if c.may then [next] else [])
    | .ret c | .halt c => if c.may then [next] else []
    | .endl => next :: (match (chains.getD n.a []).head? with
        | some l => [go (l + 1)]
        | none => [])
    | _ => [next]

/-- The points reached so far with those they lead to, until none is new. -/
def explore (prog : List PInstr) (chains : List (List Nat)) (tr : PInstr → Nat → Nat) : Nat → List PNode → List PNode
  | 0, nodes => nodes
  | k + 1, nodes =>
    let new := nodes.foldl (fun l n => (succs prog chains tr nodes n).foldl (fun l m => if m ∈ nodes then l else addOnce m l) l) []
    if new.isEmpty then nodes else explore prog chains tr k (nodes ++ new)

/-- Every point that some path from address 0 reaches. Each round finds a new point or ends, and an address has at most one
subroutine in a legal program. -/
def reach (prog : List PInstr) (chains : List (List Nat)) (tr : PInstr → Nat → Nat) (v0 : Nat) : List PNode :=
  explore prog chains tr (prog.length * 1048576) [⟨0, v0, 0, v0⟩]

/-- The value of R104's fourth property: whether a VEC or MATCH has come. -/
def vecSeen (i : PInstr) (v : Nat) : Nat :=
  match i with
  | .vec .. | .mtch .. => 1
  | _ => v

/-- The local chain of open loops at an address of a subroutine: those opened since its entry; none where the entry's own
loops are not still around it. -/
def localChain (chains : List (List Nat)) (e a : Nat) : Option (List Nat) :=
  let ca := chains.getD a []
  let ce := chains.getD e []
  if ce.length ≤ ca.length && ca.drop (ca.length - ce.length) == ce then some (ca.take (ca.length - ce.length)) else none

/-- The CALL edges among points: caller's entry, its local loop depth, callee. -/
def callEdges (prog : List PInstr) (chains : List (List Nat)) (nodes : List PNode) : List (Nat × Nat × Nat) :=
  (nodes.filterMap (fun (n : PNode) => match (prog[n.a]? : Option PInstr) with
    | some (.call _ t) => if t < prog.length then some (n.e, ((localChain chains n.e n.a).getD []).length, t) else none
    | _ => none)).eraseDups

/-- Entries that a subroutine reaches through calls. -/
def callsTo (edges : List (Nat × Nat × Nat)) : Nat → List Nat → List Nat
  | 0, l => l
  | k + 1, l =>
    let l' := edges.foldl (fun l e => if e.1 ∈ l then addOnce e.2.2 l else l) l
    if l'.length == l.length then l else callsTo edges k l'

/-- The greatest depth on a chain of callers up to an entry, each edge adding what `w` gives. -/
def callDepth (edges : List (Nat × Nat × Nat)) (w : Nat → Nat) : Nat → Nat → Nat
  | 0, _ => 0
  | k + 1, e => ((edges.filter (fun x => x.2.2 == e)).map (fun x => w x.2.1 + callDepth edges w k x.1)).foldl max 0

/-- Whether some chain of callers leaves no loop open at an entry. -/
def noLoopAt (edges : List (Nat × Nat × Nat)) : Nat → Nat → Bool
  | 0, _ => false
  | k + 1, e => e == 0 || edges.any (fun x => x.2.2 == e && x.2.1 == 0 && noLoopAt edges k x.1)

/-- The points among `nodes` from which `leads` goes to a good one, with the good ones. -/
def backward (leads : PNode → List PNode) (nodes : List PNode) : Nat → List PNode → List PNode
  | 0, good => good
  | k + 1, good =>
    let more := nodes.filter (fun n => !good.contains n && (leads n).any (fun m => good.contains m))
    if more.isEmpty then good else backward leads nodes k (good ++ more)

/-- Whether a point ends a path: an acting HALT, or a TARGET beyond the program (E_RANGE). -/
def stopsHere (prog : List PInstr) (n : PNode) : Bool :=
  match prog[n.a]? with
  | some (.halt _) => true
  | some (.jmp _ t) | some (.call _ t) => decide (prog.length ≤ t)
  | _ => false

/-- The points that a point leads to in its own subroutine, after the calls it makes have returned; at a RET, also those where its callers
continue. -/
def inFrame (prog : List PInstr) (chains : List (List Nat)) (nodes : List PNode) (n : PNode) : List PNode :=
  (succs prog chains vecSeen nodes n).filter (fun m => m.e == n.e && m.v0 == n.v0) ++
  match prog[n.a]? with
  | some (.ret _) => nodes.filterMap (fun (c : PNode) => match (prog[c.a]? : Option PInstr) with
      | some (.call _ t) => if t == n.e && c.v == n.v0 then some { c with a := c.a + 1, v := n.v } else none
      | _ => none)
  | _ => []

/-- Points from which a path continues to a HALT that acts: within the subroutine and those it calls, or by its return (R104). -/
def ending (prog : List PInstr) (chains : List (List Nat)) (nodes : List PNode) : List PNode :=
  backward (inFrame prog chains nodes) nodes nodes.length
    (backward (succs prog chains vecSeen nodes) nodes nodes.length (nodes.filter (stopsHere prog)))

/-- A property of R92 and R104 that every instruction of the program keeps, reached or not: a JMP stays in its innermost loop body; LOOP_FIRST
and LOOP_LAST stand inside a loop, where no path reaches them by their brackets alone. The subroutine of a JMP that no path reaches is not
tested: the manual does not say which subroutine it belongs to (DESIGN CHOICE, log 70). -/
def bracketBreaks (prog : List PInstr) (chains : List (List Nat)) (nodes : List PNode) : Bool :=
  (prog.mapIdx (fun a i => (a, i))).any (fun p =>
    (match condByte p.2 with
      | some c => (c.cond == 1 || c.cond == 2) && (chains.getD p.1 []).isEmpty && !nodes.any (fun n => n.a == p.1)
      | none => false) ||
    match p.2 with
    | .jmp _ t => decide (t < prog.length) && chains.getD t [] != chains.getD p.1 []
    | _ => false)

/-- A property of R104 other than depth broken, or LOOP_FIRST or LOOP_LAST outside an open loop (R92, R107). -/
def breaks (prog : List PInstr) (chains : List (List Nat)) (nodes : List PNode) : Bool :=
  let edges := callEdges prog chains nodes
  let one := fun (n : PNode) =>
    match prog[n.a]? with
    | none => true
    | some i =>
      let lc := localChain chains n.e n.a
      lc.isNone || nodes.any (fun m => m.a == n.a && m.e != n.e) ||
      (match condByte i with
        | some c => (c.cond == 1 || c.cond == 2) && lc == some [] && noLoopAt edges (edges.length + 1) n.e
        | none => false) ||
      match i with
      | .rpt _ | .waitt .. | .sync .. | .peact .. => n.v == 0
      | .endl => lc == some []
      | .ret _ => n.e == 0 || lc != some []
      | .call _ t => t == 0
      | _ => false
  nodes.any one || bracketBreaks prog chains nodes ||
  edges.any (fun x => (callsTo edges (edges.length + 1) [x.2.2]).contains x.1) ||
  decide ((ending prog chains nodes).length < nodes.length)

/-- The loop or call depth of R104 exceeded. -/
def tooDeep (prog : List PInstr) (chains : List (List Nat)) (nodes : List PNode) : Bool :=
  let edges := callEdges prog chains nodes
  let k := edges.length + 1
  edges.any (fun x => decide (16 < callDepth edges (fun _ => 1) k x.2.2)) ||
  nodes.any (fun n => match prog[n.a]? with
    | some (.loop _) =>
      decide (8 < callDepth edges (fun l => l) k n.e + ((localChain chains n.e n.a).getD []).length + 1)
    | _ => false)

/-! ## Periods (R75, R108, R148) -/

/-- The override last written, which the checks of later commands use (R148 to R150). -/
def Batch.written (x : Batch) : Option Ovr :=
  match x.ovrNext.getLast? with
  | some (_, o) => o
  | none => x.ovr

/-- The period at which vectors of an entry play under an override (R148). -/
def effPer (periods : List (Nat × Per)) (o : Option Ovr) (idx : Nat) : Option Per :=
  match o with
  | some v => if v.idx == idx || v.idx == 0xFF then some v.per else assoc periods idx
  | none => assoc periods idx

/-- The abstract value of the period trace: 65,537 times the source of the period in force (an entry, or 64 + a set), plus 1 + SEGID after
a vector of a TSSEL segment, plus 0 after any other (R95, R96). -/
def perTrace (segs : List (Nat × Seg)) (i : PInstr) (v : Nat) : Nat :=
  match i with
  | .per p => 65537 * p + v % 65537
  | .tset s => 65537 * (64 + s) + v % 65537
  | .vec g _ => v / 65537 * 65537 + (match assoc segs g with
      | some d => if d.tssel then 1 + g else 0
      | none => 0)
  | .mtch .. => v / 65537 * 65537
  | _ => v

/-- The source of the period in force in a traced value. -/
def traceSrc (v : Nat) : Nat := v / 65537

/-- The TSSEL segment whose vector came last in a traced value. -/
def traceSeg (v : Nat) : Option Nat := if v % 65537 == 0 then none else some (v % 65537 - 1)

/-- The period entry of a source, none where its set is not loaded. -/
def srcEntry (sets : List (Nat × TSet)) (k : Nat) : Option Nat := if k < 64 then some k else (assoc sets (k - 64)).map (fun t => t.peridx)

/-- What the checks of periods, lengths and shares read of a batch: period table, override, sets, segments, program with its
bracket chains and period trace. -/
structure PerView where
  periods : List (Nat × Per)
  ovr : Option Ovr
  sets : List (Nat × TSet)
  segs : List (Nat × Seg)
  prog : List PInstr
  trace : List PNode
deriving Repr

/-- The view of a program beside a batch's tables. -/
def PerView.of (periods : List (Nat × Per)) (ovr : Option Ovr) (sets : List (Nat × TSet)) (segs : List (Nat × Seg))
    (prog : List PInstr) : PerView :=
  ⟨periods, ovr, sets, segs, prog, if prog.isEmpty then [] else reach prog ((chainsFrom prog 0 []).getD []) (perTrace segs) 0⟩

def Batch.view (x : Batch) : PerView := PerView.of x.periods x.written x.sets x.segs x.prog

/-- The shortest entry of the period table. -/
def PerView.tableMin (w : PerView) : Option Per := shortest ((List.range 64).filterMap (fun i => effPer w.periods w.ovr i))

/-- The shortest of the periods of traced sources; the table's shortest where the trace cannot tell (R75). -/
def PerView.least (w : PerView) (srcs : List Nat) : Option Per :=
  let ps := srcs.map (fun k => (srcEntry w.sets k).bind (effPer w.periods w.ovr))
  if srcs.isEmpty || ps.contains none then w.tableMin else shortest (ps.filterMap id)

/-- The sources of the period in force at the instructions that a test names. -/
def PerView.at_ (w : PerView) (p : PInstr → Bool) : List Nat :=
  ((w.trace.filter (fun n => (w.prog[n.a]?).any p)).map (fun n => traceSrc n.v)).eraseDups

/-- The shortest period at which a segment can play (R75). -/
def PerView.segPer (w : PerView) (id : Nat) (g : Seg) : Option Per :=
  if g.tssel then effPer w.periods w.ovr g.peridx
  else w.least (w.at_ (fun i => match i with
    | .vec s _ => s == id
    | _ => false))

/-- M_min of R74. -/
def minLength (p : Per) : Nat := 64 * max 1 (cdiv (480000000 * p.d) (64 * p.num))

/-- The length rules of R74 to R76. M_min counts from the second of PAT_LOAD and SEG_MAP on: with no program loaded only the multiple of
64 does. -/
def PerView.lenOk (w : PerView) (id : Nat) (g : Seg) : Bool :=
  if g.loopStore then g.length % 8 == 0 && decide (8 ≤ g.length)
  else g.length % 64 == 0 && (w.prog.isEmpty || match w.segPer id g with
    | some p => decide (minLength p ≤ g.length)
    | none => true)

/-- Every mapped segment keeps its length rule. -/
def PerView.lensOk (w : PerView) : Bool := w.segs.all (fun p => w.lenOk p.1 p.2)

/-- Instructions that put vectors out at the period in force. -/
def emits (i : PInstr) : Bool :=
  match i with
  | .rpt _ | .waitt .. | .sync .. | .peact .. | .mtch .. => true
  | _ => false

/-- Whether every vector that can play has a loaded period entry (R108). -/
def PerView.entriesLoaded (w : PerView) : Bool :=
  let loaded := fun (e : Option Nat) => match e with
    | some k => (assoc w.periods k).isSome
    | none => false
  w.trace.all (fun n => match w.prog[n.a]? with
    | some (.per p) => loaded (some p)
    | some (.tset s) => loaded (srcEntry w.sets (64 + s))
    | some (.vec g _) => (match assoc w.segs g with
        | some d => if d.tssel then loaded (some d.peridx) else loaded (srcEntry w.sets (traceSrc n.v))
        | none => true)
    | some i => !emits i || ((traceSeg n.v).isSome && (match i with
        | .mtch .. => false
        | _ => true)) || loaded (srcEntry w.sets (traceSrc n.v))
    | none => true)

/-! ## The fetch share (R86, R87) -/

/-- Bits that one vector of a segment draws. -/
def Seg.drawn (g : Seg) : Nat := 16 * g.m * (if g.full then 4 else 2) + 8 * b2n g.tssel

/-- Whether n slices that play a segment at a period keep within the share w of sum of 5,242.88 Gbit/s. -/
def shareOk (n w sum bitsPerVec : Nat) (p : Per) : Bool :=
  decide (n * bitsPerVec * p.d * 1000000000000000 * sum ≤ w * 5242880000000 * p.num)

/-- The sum of the weights of the batches that hold regions in stack q, with `weight` for batch b. -/
def State.weightSum (s : State) (q b weight : Nat) : Nat :=
  ((s.batches.filter (fun p => s.holdsStack p.1 q)).map (fun p => if p.1 == b then weight else p.2.weight)).sum

/-- Whether a view can play a DRAM or sparge segment in its program. -/
def PerView.plays (w : PerView) (id : Nat) : Bool :=
  w.trace.any (fun n => match w.prog[n.a]? with
    | some (.vec s _) => s == id
    | _ => false)

/-- The check of R87 in one stack for a batch with a view and a weight. -/
def State.shareIn (s : State) (b : Nat) (w : PerView) (weight q sum : Nat) : Bool :=
  let n := ((s.slices b).filter (fun sl => sl / 8 == q)).length
  n == 0 || w.segs.all (fun p => p.2.loopStore || !w.plays p.1 || match w.segPer p.1 p.2 with
    | some per => shareOk n weight sum p.2.drawn per
    | none => true)

/-- The check of R87 in every stack. -/
def State.shares (s : State) (b : Nat) (w : PerView) (weight : Nat) : Bool :=
  (List.range 4).all (fun q => s.shareIn b w weight q (s.weightSum q b weight))

/-! ## The loop check (R118) -/

/-- What a loop path carries: instructions passed in this activation, cost, play time as num / den fs, the segment whose vector the path
has emitted last, and the callers' places. -/
structure LPath where
  a : Nat
  seen : List Nat
  cost : Nat
  num : Nat
  den : Nat
  last : Option Nat
  rets : List (Nat × List Nat)

/-- The shortest period at which the last vector emitted can repeat at an address (R75, R96): PERIDX of its segment under TSSEL, else the
shortest traced there; a path that has emitted none yet takes what the trace shows. -/
def PerView.repeatPer (w : PerView) (last : Option Nat) (a : Nat) : Option Per :=
  let vs := (w.trace.filter (fun n => n.a == a)).map (fun n => n.v)
  let own := fun (v : Nat) => match last.or (traceSeg v) with
    | some g => match assoc w.segs g with
      | some d => if d.tssel then effPer w.periods w.ovr d.peridx else w.least [traceSrc v]
      | none => w.least [traceSrc v]
    | none => w.least [traceSrc v]
  if vs.isEmpty then w.tableMin else shortest (vs.filterMap own)

/-- The play time of an instruction: none where the path is not checked. -/
def PerView.play (w : PerView) (last : Option Nat) (a : Nat) : PInstr → Option (Nat × Nat)
  | .vec g c => match assoc w.segs g with
    | none => none
    | some d => (w.segPer g d).map (fun p => (c * d.length * p.num, p.d))
  | .rpt c => (w.repeatPer last a).map (fun p => (c * p.num, p.d))
  | .mtch .. | .waitt .. | .sync .. | .peact .. => none
  | _ => some (0, 1)

/-- The segment of the last vector after an instruction. -/
def lastSeg (i : PInstr) (last : Option Nat) : Option Nat :=
  match i with
  | .vec g _ => some g
  | _ => last

/-- Whether some path of a loop body to its ENDL costs more than it plays: cost × 5/6 ns against the play time. A path passes no
instruction twice in one activation; a CALL counts with one path through its subroutine. The first argument bounds the path. -/
def PerView.slow (w : PerView) (term : Nat) : Nat → LPath → Bool
  | 0, _ => false
  | k + 1, p =>
    match w.prog[p.a]? with
    | none => false
    | some i =>
      if p.seen.contains p.a then false
      else match w.play p.last p.a i with
        | none => false
        | some (n, d) =>
          let p := { p with
            seen := p.a :: p.seen, cost := p.cost + cost i, num := p.num * d + n * p.den, den := p.den * d, last := lastSeg i p.last }
          let go := fun a => w.slow term k { p with a := a }
          if p.a == term && p.rets.isEmpty then decide (3 * p.num < p.cost * 2500000 * p.den)
          else match i with
            | .jmp c t => go t || (c.may && go (p.a + 1))
            | .call c t => w.slow term k { p with a := t, seen := [], rets := (p.a + 1, p.seen) :: p.rets } || (c.may && go (p.a + 1))
            | .ret c => (match p.rets with
                | (r, sn) :: rs => w.slow term k { p with a := r, seen := sn, rets := rs }
                | [] => false) || (c.may && go (p.a + 1))
            | .halt c => c.may && go (p.a + 1)
            | _ => go (p.a + 1)

/-- The instructions that a path of a program of n instructions can pass: n at each of 17 call depths, each of which may call n times. -/
def pathBound (n : Nat) : Nat := (n + 1) ^ 18

/-- The matching ENDL of each LOOP: its address is the first ENDL whose chain starts with the LOOP. -/
def loopsOf (prog : List PInstr) (chains : List (List Nat)) : List (Nat × Nat) :=
  (List.range prog.length).filterMap (fun a => match (prog[a]? : Option PInstr), (chains.getD a []).head? with
    | some .endl, some l => some (l, a)
    | _, _ => none)

/-- Whether every loop body keeps the loop check. -/
def PerView.loopsOk (w : PerView) (chains : List (List Nat)) : Bool :=
  (loopsOf w.prog chains).all (fun l => !w.slow l.2 (pathBound w.prog.length) ⟨l.1 + 1, [], 0, 0, 1, none, []⟩)

end Sys2Proof.Machine
end

