-- ==== Sys2Proof/Machine/Taps.lean ====
section
/-! DEFINITION. The taps' own events: doorbells, taking a command into the dispatch queue, tap frames, mode changes,
CANCEL and the reset of a tap (10_taps.md R259 to R287). COMMAND_DISPATCH stands in Commands.lean. -/

namespace Sys2Proof.Machine
open Sys2Proof

/-- a − b mod 2^32. -/
def sub32 (a b : Nat) : Nat := (a + two32 - b % two32) % two32

/-- Whether a change of the tap's mode waits (R262): until it is made the tap takes no command from either path. -/
def State.modePending (s : State) (t : Nat) : Bool := s.netTaps.testBit t != (s.tap t).netMode

/-- The completion slots a command in a slot needs (R266): two when it can complete asynchronously (R269). -/
def slotNeed (slot : List Byte) : Nat :=
  let op := fld slot 0 2
  match opInfo op with
  | some i =>
    if i.kind == 1 || (i.kind == 2 && (fld slot 2 2).testBit 2) || (op == 0x0111 && (fld slot 18 1).testBit 0) then 2 else 1
  | none => 1

/-- Completion slots reserved (R266): by queued commands, by the synchronous one that waits, by asynchronous ones, by
resubmissions held. -/
def Tap.reserved (x : Tap) : Nat :=
  (x.dq.map (fun q => slotNeed q.slot)).sum + (if x.running.isSome then 1 else 0) + x.asyncs.length +
    (x.hist.map (fun e => e.dups.length)).sum + (x.old.map (fun e => e.dups.length)).sum

/-- Free completion slots less those reserved (R266). -/
def Tap.freeSlots (x : Tap) : Nat := 64 - sub32 x.cplTail x.cplHead - x.reserved

/-- A doorbell value acted on (R265, R262); an accepted value signals source 0x800 + t (R345). -/
def State.ringDoorbell (s : State) (tap v : Nat) : State :=
  let x := s.tap tap
  if x.netMode then s.count 0x0500 1 (Ev.ofT tap)
  else if sub32 v x.cmdTail ≤ 64 - sub32 x.cmdTail x.cmdHead then (s.setTap tap { x with cmdTail := v % two32 }).signal (0x800 + tap)
  else (s.setTap tap { x with dbErr := true }).count 0x0500 1 (Ev.ofT tap)

/-- TAP_DOORBELL of a function that exists (R405): a write that arrives before READY is held until then (R287). -/
def doorbell (s : State) (tap v : Nat) : State :=
  if !s.pcie.up tap then s
  else if s.boot.ready then s.ringDoorbell tap v
  else s.setTap tap { s.tap tap with heldDb := (s.tap tap).heldDb ++ [v] }

/-- READY goes high: the doorbells held are acted on, those of each tap in order (R287). -/
def State.heldDoorbells (s : State) : State :=
  (List.range 17).foldl (fun s t =>
    let vs := (s.tap t).heldDb
    vs.foldl (fun s v => s.ringDoorbell t v) (s.setTap t { s.tap t with heldDb := [] })) s

def execTapDoorbellWrite (tap v : Nat) (s : State) : Step := .next (doorbell s tap v)

/-- CPL_HEAD (R265). -/
def cplHeadWrite (s : State) (tap w : Nat) : State :=
  let x := s.tap tap
  if !s.pcie.up tap then s
  else if sub32 w x.cplHead ≤ sub32 x.cplTail x.cplHead then s.setTap tap { x with cplHead := w % two32 }
  else s.setTap tap { x with cplErr := true }

def execCplHeadWrite (tap w : Nat) (s : State) : Step := .next (cplHeadWrite s tap w)

/-- The CRC-32 of a slot with FLAGS[0] taken as zero, and of the inline data (R274). -/
def slotCrc (slot inl : List Byte) : Nat :=
  crc32 (slot.take 2 ++ [(slot.getD 2 0) &&& 0xFE] ++ slot.drop 3 ++ inl)

/-- What CANCEL does once its checks have passed (R279, R280). A CANCEL taken before the dispatch of its target wins the
element of the target's queue entry. -/
def cancelOwn (tap seq tseq : Nat) (s : State) : Res :=
  let x := s.tap tap
  if tseq == seq then Res.err s eRange
  else if x.dq.any (fun q => q.seq == tseq) then
    let slot := ((x.dq.filter (fun q => q.seq == tseq)).map (fun q => q.slot)).headD []
    let s := s.setTap tap { x with dq := x.dq.filter (fun q => q.seq != tseq) }
    Res.ok (s.post tap ⟨tseq, eCancelled, 2, fld slot 0 2, fld slot 10 2, 0, []⟩ []) [] []
  else match x.histOf tseq with
    | none => Res.err s eRange
    | some e => if e.cpl.any (fun c => c.opcode == 0x0115) then Res.err s eRange else Res.err s eTooLate

/-- CANCEL (R279, R321). -/
def cmdCancel (h : Hdr) (tseq : Nat) (s : State) : State := s.runCmd h 0x0115 [] none (cancelOwn h.tap h.seq tseq)

def execCancel (h : Hdr) (tseq : Nat) (s : State) : Step := .next (cmdCancel h tseq s)

/-- The checks of R276 on a slot that need no state but the tap: OPCODE, LENGTH, header reserved fields. -/
def slotErr (slot : List Byte) : Option Nat :=
  match opInfo (fld slot 0 2) with
  | none => some eOpcode
  | some i =>
    firstErr [(decide (fld slot 8 2 ≠ i.length), eLength),
      (!(zeros slot 12 4) || decide (7 < fld slot 2 2), eReserved)]

/-- The header of a slot as the Maltster dispatches it at grid time t; `rsv` is filled in by the opcode. -/
def slotHdr (tap : Nat) (slot inl : List Byte) (t : Nat) : Hdr :=
  ⟨tap, fld slot 4 4, fld slot 10 2, (fld slot 2 2).testBit 1, (fld slot 2 2).testBit 2, false, inl, t⟩

/-- Whether a history entry's command still owes its final completion. -/
def Hist.open_ (e : Hist) : Bool :=
  match e.cpl with
  | none => true
  | some c => c.status == ACCEPTED

/-- An accepted command: EXPSEQ, the history and the dispatch queue (R274, R275, R278); CANCEL runs at once (R279), in the
boot-safe state with E_AUTH whatever its header (R287). -/
def acceptSlot (s : State) (tap : Nat) (slot inl : List Byte) (net : Option NetSrc) : State :=
  let x := s.tap tap
  let seq := fld slot 4 4
  let e : Hist := ⟨seq, slotCrc slot inl, none, [], [], net⟩
  let n := x.hist.length + 1 - 64
  let x := { x with
    expSeq := (x.expSeq + 1) % two32
    hist := (x.hist ++ [e]).drop n
    old := x.old ++ (x.hist.take n).filter Hist.open_ }
  if fld slot 0 2 == 0x0115 then
    let s := s.setTap tap x
    let h := slotHdr tap slot inl s.now
    match (if s.boot.bootSafe then some eAuth else slotErr slot) with
    | some st => s.post tap ⟨seq, st, 0, 0x0115, h.target, 0, []⟩ []
    | none => cmdCancel { h with rsv := !(zeros slot 20 4) } (fld slot 16 4) s
  else s.setTap tap { x with dq := x.dq ++ [⟨seq, slot, inl, net⟩] }

/-- A command whose SEQ is not acceptable (R275): E_SEQUENCE with EXPSEQ in RESULT. -/
def refuseSeq (s : State) (tap : Nat) (slot : List Byte) (net : Option NetSrc) : State :=
  let x := s.tap tap
  (s.deliver tap ⟨fld slot 4 4, eSequence, 0, fld slot 0 2, fld slot 10 2, 4, le 4 x.expSeq⟩ [] net).count 0x0503 1 (Ev.ofT tap)

/-- The tap classifies a command by its SEQ (R275, R277). -/
def classify (s : State) (tap : Nat) (slot inl : List Byte) (net : Option NetSrc) : State :=
  let x := s.tap tap
  let seq := fld slot 4 4
  if seq == x.expSeq then acceptSlot s tap slot inl net
  else match x.histOf seq with
    | none => refuseSeq s tap slot net
    | some e =>
      if (fld slot 2 2).testBit 0 && e.crc == slotCrc slot inl then
        let s := s.setTap tap { x with hist := x.hist.map (fun e => if e.seq == seq then { e with net := net } else e) }
        match e.cpl with
        | some c => s.deliverDups tap c e.inl [net]
        | none =>
          let x := s.tap tap
          s.setTap tap { x with hist := x.hist.map (fun e => if e.seq == seq then { e with dups := e.dups ++ [net] } else e) }
      else refuseSeq s tap slot net

/-- The 128 bytes of ring slot k mod 64 (R263). -/
def Tap.slot (x : Tap) (k : Nat) : List Byte := Memory.reads x.ring (128 * (k % 64)) 128

/-- COMMAND_TAKE (R266, R275): the next command of the ring, when the tap takes commands, no mode change waits and the
completion ring has free slots for it. -/
def takeNext (s : State) (tap : Nat) : State :=
  let x := s.tap tap
  let slot := x.slot x.cmdHead
  if s.takes tap && !x.netMode && !s.modePending tap && x.cmdTail != x.cmdHead && decide (slotNeed slot ≤ x.freeSlots) then
    classify (s.setTap tap { x with cmdHead := (x.cmdHead + 1) % two32 }) tap slot [] none
  else s

def execCommandTake (tap : Nat) (s : State) : Step := .next (takeNext s tap)

/-- TAP_MODE_CHANGE (R262): made only while the tap holds no taken command that lacks its final completion. -/
def modeChange (s : State) (tap : Nat) : State :=
  let x := s.tap tap
  if s.modePending tap && x.dq.isEmpty && x.running.isNone && x.asyncs.isEmpty then s.setTap tap { x with netMode := !x.netMode }
  else s

def execTapModeChange (tap : Nat) (s : State) : Step := .next (modeChange s tap)

/-- A tap frame discarded (R262, R283). -/
def netDrop (s : State) (tap : Nat) : State := s.count 0x0501 1 (Ev.ofT tap)

/-- SEQ_REPLY (R284): EXPSEQ and ASYNC_OUT, zero-filled to 16 bytes. -/
def seqReply (s : State) (src : NetSrc) (tap : Nat) : State :=
  let x := s.tap tap
  if x.netMode && decide (tap ≤ 16) then
    s.emit (.frame src.port src.addr 4 (be 2 src.udp ++ tapHead 4 tap 0 ++ le 4 x.expSeq ++ le 1 x.asyncs.length ++ List.replicate 11 0))
  else netDrop s tap

/-- SEQ_QUERY (R284): a frame to another UDP port than UDPPORT is no tap frame (R283, R411). -/
def seqQuery (s : State) (src : NetSrc) (dport tap : Nat) : State :=
  if dport == s.udpPort then seqReply s src tap else s.ethDrop

def execSeqQuery (via : NetVia) (tap : Nat) (s : State) : Step := .next (seqQuery s via.src via.dport tap)

/-- TAP_FRAME_RX (R283, R262, R284, R411): the UDP port, the checks of the frame, then the classification of its command, or
SEQ_REPLY. A frame of another TYPE, or shorter than its TYPE and DLEN say, is discarded like one with a bad header (log 11). -/
def tapFrame (s : State) (src : NetSrc) (dport : Nat) (f : List Byte) : State :=
  if dport != s.udpPort then s.ethDrop
  else
  let tap := fld f 4 1
  let dlen := fld f 6 2
  if decide (f.length < 16) || fld f 0 2 != 0xA71C || fld f 2 1 != 1 || !(zeros f 5 1) || !(zeros f 8 8) || decide (16 < tap) ||
      !(s.tap tap).netMode then netDrop s tap
  else if fld f 3 1 == 3 then seqReply s src tap
  else if fld f 3 1 != 1 || decide (8960 < dlen) || decide (f.length < 144 + dlen) || !s.takes tap || s.modePending tap then netDrop s tap
  else
    let s := s.setTap tap { s.tap tap with lastSrc := some src }
    classify s tap ((f.drop 16).take 128) ((f.drop 144).take dlen) (some src)

def execTapFrameRx (via : NetVia) (f : List Byte) (s : State) : Step := .next (tapFrame s via.src via.dport f)

/-- The keys of LEVELS in the runs of a bus changed. -/
def Bus.retap (x : Bus) (k : Nat × Nat → Nat × Nat) : Bus :=
  { x with
    run := x.run.map (fun r => { r with key := k r.key })
    queue := x.queue.map (fun r => { r with key := k r.key })
    settling := x.settling.map (fun p => ({ p.1 with key := k p.1.key }, p.2)) }

/-- What tap t had dispatched moves to the tap number 32 + t, where nothing completes (R286). -/
def State.retap (s : State) (t : Nat) : State :=
  let k := fun (p : Nat × Nat) => if p.1 == t then (32 + t, p.2) else p
  { s with
    waits := s.waits.map (fun w => if w.tap == t then { w with tap := 32 + t } else w)
    batches := s.batches.map (fun p => (p.1, { p.2 with startKey := p.2.startKey.map k, ep := { p.2.ep with fin := p.2.ep.fin.map k } }))
    commits := s.commits.map (fun c => { c with key := c.key.map k })
    cal := { s.cal with runs := s.cal.runs.map (fun r => if r.tap == t then { r with tap := 32 + t } else r) }
    rep := { s.rep with ops := s.rep.ops.map (fun r => if r.1 == t then (32 + t, r.2) else r) }
    buses := s.buses.map (fun p => (p.1, p.2.retap k)) }

/-- A tap reset (R286): ring counts, completion slots, sequence and history; commands not yet dispatched are removed and
counted. The tap keeps its mode, the ring's slots and the error bits, which R286 does not name and R475 keeps. -/
def resetTap (s : State) (t : Nat) : State :=
  let x := s.tap t
  let s := s.retap t
  let s := s.setTap t { Tap.zero with ring := x.ring, netMode := x.netMode, dbErr := x.dbErr, cplErr := x.cplErr }
  s.discarded t x.dq.length

/-- The sequence state of a tap reset (R286): EXPSEQ 0 and an empty history (R274). -/
def resetSeq (s : State) (t : Nat) : State :=
  let x := s.tap t
  s.setTap t { x with expSeq := 0, hist := [], old := x.old ++ x.hist.filter Hist.open_ }

end Sys2Proof.Machine
end

