-- ==== Sys2Proof/Machine/Batch.lean ====
section
/-! DEFINITION. Creating and destroying batches and giving them resources (09_batches.md R236 to R239, R247; R294, R295,
R286, R458). -/

namespace Sys2Proof.Machine
open Sys2Proof

/-- The safe state of R138 on cells: DEN off, DRV low. -/
def State.safeCells (s : State) (cells : List Nat) : State :=
  { s with
    drvPins := cells.foldl (fun m c => m.set false c false) s.drvPins
    denPins := cells.foldl (fun m c => m.set false c false) s.denPins }

/-- The cells of a batch's channels. -/
def State.cells (s : State) (b : Nat) : List Nat := (s.channels b).map s.pcell

/-! ## BATCH_CREATE (R236, R294) -/

/-- BATCH_CREATE. -/
def cmdBatchCreate (h : Hdr) (weight : Nat) (s : State) : State :=
  s.runCmd h 0x0002 [] none fun s =>
    checked s [(h.target == 0 || weight == 0, eRange), ((s.batch h.target).isSome, eState)]
      (Res.ok (resetSeq (s.setBatch h.target (Batch.new weight)) h.target) [] [])

def execBatchCreate (h : Hdr) (weight : Nat) (s : State) : Step := .next (cmdBatchCreate h weight s)

/-! ## BATCH_DESTROY (R239, R294) -/

/-- Whether an asynchronous command of Bb lacks its final completion: on tap b, or on tap 0 with TARGET b. -/
def State.asyncOf (s : State) (b : Nat) : Bool :=
  !(s.tap b).asyncs.isEmpty || (s.tap 0).asyncs.any (fun a => a.target == b)

/-- Every command still queued on tap b completes with E_STATE (R294). -/
def drainTap (s : State) (b : Nat) : State :=
  let x := s.tap b
  let s := s.setTap b { x with dq := [] }
  x.dq.foldl (fun s q => s.post b ⟨q.seq, eState, 0, fld q.slot 0 2, fld q.slot 10 2, 0, []⟩ []) s

/-- Records of the datalog ring that nobody has consumed. -/
def Flow.waitingRecords (f : Flow) : Nat := f.produced - f.consumed

/-- The entries left in the queues of Bb, each counted as discarded (R239, R339). -/
def dropQueues (s : State) (b : Nat) : State :=
  let c := s.sched
  let mine := fun (j : Job) => j.b == b
  let held := ((c.ready ++ c.delayed ++ c.cores.map Prod.snd).filter (fun j => mine j && j.queue != 1)).length
  let ring := match s.batch b with
    | some x => x.flow.waitingRecords
    | none => 0
  let s := { s with sched := { c with
      ready := c.ready.filter (fun j => !mine j)
      outside := c.outside.filter (fun j => !mine j)
      delayed := c.delayed.filter (fun j => !mine j)
      cores := c.cores.filter (fun p => !mine p.2) } }
  s.count 0x0507 (held + ring) Ev.dev

/-- Granules of Bb, by index. -/
def State.granules (s : State) (b : Nat) : List Nat := (List.filter (fun (p : Nat × Nat) => p.2 == b) s.dram.owner).map Prod.fst

/-- Granules go to CLEARING (R353). -/
def Dram.clears (d : Dram) (gs : List Nat) : Dram := { d with clearing := gs.foldl (fun l g => addOnce g l) d.clearing }

/-- A granule withdrawn by ASSIGN goes to CLEARING and leaves its owner (R295, R353). -/
def State.startClearing (s : State) (gs : List Nat) : State :=
  { s with dram := { s.dram.clears gs with owner := gs.foldl (fun m g => m.del g) s.dram.owner } }

/-- An acquisition engine at rest, without the configuration of a batch that no longer owns it (log 17). -/
def State.restAcq (s : State) (a : Nat) : State := { s with acqs := s.acqs.del a }

/-- The engines a batch owns. -/
def State.engines (s : State) (b : Nat) : List Nat := (List.range 12).filter (fun a => s.acqOwner.get 0 a == b)

/-- Channels that must be in the safe state of R138 and have no edge queued: those of a batch stopped for a fault or being
destroyed, and those of sites in fail-off (R110, R165, R239). -/
def State.safeChannels (s : State) (b : Nat) (x : Batch) : List Nat :=
  let cs := s.channels b
  let stopped := ((x.state == 4 || x.state == 5) && decide (3 < x.reason)) || x.destroying.isSome
  let off := (cs.mapIdx (fun i l => (i, l))).filter (fun p => stopped || (decide (0 < x.seq.begun) && x.site.offAt (x.site.siteAt p.1) (x.seq.begun - 1)))
  (off.map Prod.snd).filter (fun l => !x.edges.any (fun e => e.lch == l))

/-- The edge that sets DRV low 2 ns after the first cycle from a grid time on (R138), of the vector before the boundary. -/
def safeEdge (lch vnum now : Nat) : Edge :=
  let fs := (now / cycle + 1) * cycle + 2 * ns
  ⟨lch, 0, vnum, fs / cycle, 0, 0, fs, 0, 1, 0⟩

/-- Those channels take their safe state (R138): DEN off in the next cycle, then DRV low 2 ns later where it is high. -/
def State.settlePins (s : State) (b : Nat) : State :=
  match s.batch b with
  | none => s
  | some x =>
    let ls := s.safeChannels b x
    let high := ls.filter (fun l => s.drvPins.get false (s.pcell l))
    let s := { s with denPins := ls.foldl (fun m l => m.set false (s.pcell l) false) s.denPins }
    s.setBatch b { x with edges := x.edges ++ high.map (fun l => safeEdge l (x.seq.begun - 1) s.now) }

/-- What BATCH_DESTROY does at its dispatch (R239), steps 1 to 4: the engines rest, which brings TDC trims that waited for them into force
(R230), the edges already queued fire before the safe state, and the granules are
zeroed one by one. -/
def destroyNow (s : State) (b : Nat) : State :=
  let gs := s.granules b
  let s := dropQueues ((s.engines b).foldl State.restAcq s).swapsAtDisarm b
  let s := { s with
    dram := s.dram.clears gs
    ctrs := s.ctrs.map (fun (p : Nat × Ctr) => if p.2.owner == b then (p.1, { Ctr.zero with owner := b }) else p)
    syncs := s.syncs.filter (fun r => !(r.b == b && r.dev == s.cdev)) }
  let new := match s.batch b with
    | some x => { Batch.new x.weight with edges := x.edges }
    | none => Batch.new 1
  (resetSeq (s.setBatch b { new with destroying := some gs }) b).settlePins b

/-- A command of Bb that waits for a judgement or a boundary of the batch that BATCH_DESTROY ends: it completes with E_STATE (DESIGN CHOICE,
log 55). -/
def Waiter.endsWith (w : Waiter) (b : Nat) : Bool :=
  w.b == b && match w.what with
    | .power _ | .levels _ _ _ _ _ => false
    | _ => true

/-- BATCH_DESTROY. -/
def cmdBatchDestroy (h : Hdr) (s : State) : State :=
  s.runCmd h 0x0003 [] none fun s =>
    let b := h.target
    checked s [(b == 0, eRange), (s.isActive b, eState), (s.asyncOf b, eBusy)]
      (Res.acc (destroyNow ((drainTap s b).release (fun w => w.endsWith b) eState 0 []) b))

def execBatchDestroy (h : Hdr) (s : State) : Step := .next (cmdBatchDestroy h s)

/-- The owners of one kind of unit without batch b. -/
def release (m : Tab Nat) (b : Nat) : Tab Nat := List.filter (fun (p : Nat × Nat) => p.2 != b) m

/-- The resources of Bb released, and Bb gone (R239). -/
def releaseAll (s : State) (b : Nat) : State :=
  { s with
    batches := s.batches.filter (fun p => p.1 != b)
    sliceOwner := release s.sliceOwner b
    busOwner := release s.busOwner b
    acqOwner := release s.acqOwner b
    clkOwner := release s.clkOwner b
    trigOutOwner := release s.trigOutOwner b
    trigInOwner := release s.trigInOwner b
    dram := { s.dram with owner := release s.dram.owner b }
    ctrs := s.ctrs.filter (fun p => p.2.owner != b) }

/-- BATCH_DESTROY_DONE: once the channels are safe and no granule is left to clear, Bb is released and the final completion posts on tap 0. -/
def batchDestroyDone (s : State) (b t : Nat) : State :=
  match s.batch b with
  | none => s
  | some x =>
    if x.destroying.isNone || (x.destroying.getD []).any s.dram.clearing.contains || !x.edges.isEmpty then s
    else
      let s := releaseAll (s.at_ t) b
      match (s.tap 0).asyncs.find? (fun a => a.opcode == 0x0003 && a.target == b) with
      | some a => s.finish 0 a.seq OK 0 []
      | none => s.discarded 0 1

def execBatchDestroyDone (b t : Nat) (s : State) : Step := .next (batchDestroyDone s b t)

/-- GRANULE_CLEAR_DONE (R239, R295, R353). -/
def granuleClearDone (s : State) (g t : Nat) : State :=
  if g ∈ s.dram.clearing then
    let s := (s.at_ t).clearMem (g * 2097152) 2097152
    { s with dram := { s.dram with clearing := s.dram.clearing.filter (fun k => k != g) } }
  else s

def execGranuleClearDone (g t : Nat) (s : State) : Step := .next (granuleClearDone s g t)

/-! ## ASSIGN (R238, R247, R295) -/

/-- Units of each RTYPE on the device. -/
def unitCount (rtype : Nat) : Nat :=
  match rtype with
  | 0 => 32
  | 1 => 32768
  | 2 => 256
  | 3 => 12
  | 7 => 16
  | _ => 8

/-- Whether a held unit lies in slice sl, or in stack q (R458). -/
def State.sliceHeld (s : State) (sl : Nat) : Bool :=
  s.rep.heldOut.any (fun p => (p.1 == 1 && p.2.1 / 17 == sl) || (p.1 == 2 && p.2.1 == sl))

def State.stackHeld (s : State) (q : Nat) : Bool := s.rep.heldOut.any (fun p => (p.1 == 5 || p.1 == 6) && p.2.1 / 32 == q)

/-- Whether a unit is a reserve not racked, or retired, or held out (R238, R458). -/
def State.unusable (s : State) (rtype u : Nat) : Bool :=
  match rtype with
  | 0 => s.sliceHeld u
  | 1 => s.stackHeld (u / 8192)
  | 3 => (u % 3 == 2 && !s.rep.acqRes.contains (u / 3)) || (3, u, 0) ∈ s.rep.retired || (3, u, 0) ∈ s.rep.heldOut
  | _ => false

/-- The owner of a unit, 0 for none. -/
def State.ownerOf (s : State) (rtype u : Nat) : Nat :=
  match rtype with
  | 0 => s.sliceOwner.get 0 u
  | 1 => s.dram.owner.get 0 u
  | 2 => (s.ctr u).owner
  | 3 => s.acqOwner.get 0 u
  | 4 => s.clkOwner.get 0 u
  | 5 => s.trigOutOwner.get 0 u
  | 6 => s.trigInOwner.get 0 u
  | _ => s.busOwner.get 0 u

/-- A list that had one element for each of some channels, for the channels now: a channel new to the batch takes `d`. -/
def rekey {α : Type} (d : α) (old new : List Nat) (l : List α) : List α :=
  new.map (fun c => match old.idxOf? c with
    | some i => l.getD i d
    | none => d)

/-- A channel of a set that no TS_LOAD has given a record since its slice came: the record of zeros (log 17). -/
def ChanRec.zero : ChanRec := ⟨0, false, 0, 0, 0, 0, 0, 0, 0, 0⟩

/-- A batch whose slices change: sets and sites keep the channels that stay (log 17), caches lose the channels that go. The code maps and the
loop store of a slice that goes stay with the old batch, and the new one reads zeros; the manual does not say what becomes of them (DESIGN
CHOICE, log 70). -/
def Batch.rekeyed (x : Batch) (old new : List Nat) : Batch :=
  { x with
    sets := x.sets.map (fun p => (p.1, { p.2 with recs := rekey ChanRec.zero old new p.2.recs }))
    site := { x.site with siteOf := rekey 0x200 old new x.site.siteOf }
    caches := x.caches.filter (fun p => new.contains p.1) }

/-- One unit takes owner v (0 none); `b` is the batch of the command. -/
def assignUnit (b v rtype : Nat) (s : State) (u : Nat) : State :=
  match rtype with
  | 0 =>
    let old := s.channels b
    let s := { s with sliceOwner := s.sliceOwner.set 0 u v }
    s.onBatch b (fun x => x.rekeyed old (s.channels b))
  | 1 => if v == 0 then s.startClearing [u] else { s with dram := { s.dram with owner := s.dram.owner.set 0 u v } }
  | 2 => { s with ctrs := s.ctrs.set Ctr.zero u { Ctr.zero with owner := v } }
  | 3 => State.swapsAtDisarm { s.restAcq u with acqOwner := s.acqOwner.set 0 u v }
  | 4 => { s with clkOwner := s.clkOwner.set 0 u v }
  | 5 => { s with trigOutOwner := s.trigOutOwner.set 0 u v, trigOut := if v == 0 then s.trigOut else s.trigOut.del u }
  | 6 => { s with trigInOwner := s.trigInOwner.set 0 u v, trigIn := if v == 0 then s.trigIn else s.trigIn.del u }
  | _ => { s with busOwner := s.busOwner.set 0 u v }

/-- Units that change hands: those that do not have the new owner already. -/
def assignUnits (s : State) (b v rtype : Nat) (us : List Nat) : State :=
  (us.filter (fun u => s.ownerOf rtype u != v)).foldl (assignUnit b v rtype) s

/-- The check of R247 in a list of stacks: every ARMED or RUNNING batch with regions there keeps within its share. -/
def State.sharesHold (s : State) (qs : List Nat) : Bool :=
  qs.all (fun q => s.batches.all (fun p =>
    !p.2.active || !s.holdsStack p.1 q || s.shareIn p.1 p.2.view p.2.weight q (s.weightSum q p.1 p.2.weight)))

/-- ASSIGN on named units (R295): a granule being cleared gives E_BUSY, whoever owned it. -/
def assignOwn (b : Nat) (p : AssignP) (s : State) : Res :=
  let us := (List.range p.count).map (fun i => p.index + i)
  if p.op == 2 then
    let s' := s.onBatch b (fun x => { x with weight := p.weight })
    let qs := (List.range 4).filter (s.holdsStack b)
    checked s [(!s'.sharesHold qs, eBandwidth)] (Res.ok s' [] [])
  else
    let v := if p.op == 0 then b else 0
    let s' := assignUnits s b v p.rtype us
    let qs := (List.range 4).filter (fun q => !s.holdsStack b q && s'.holdsStack b q)
    checked s
      [(us.any (s.unusable p.rtype), eRange),
       (us.any (fun u => let o := s.ownerOf p.rtype u; if p.op == 0 then o != 0 && o != b && !(p.rtype == 1 && s.dram.clearing.contains u) else o != b), eOwner),
       (s.isActive b || (p.rtype == 1 && us.any (fun u => s.dram.clearing.contains u)), eBusy),
       (!s'.sharesHold qs, eBandwidth)]
      (Res.ok s' [] [])

/-- ASSIGN. Fields that are zero for an OP stand with the first E_RANGE check (R529). -/
def cmdAssign (h : Hdr) (p : AssignP) (s : State) : State :=
  s.runCmd h 0x0004 [] none fun s =>
    let unit := p.op < 2
    let bad := h.target == 0 || decide (2 < p.op) || decide (7 < p.rtype) || (unit && (p.count == 0 || p.weight != 0)) ||
      (p.op == 2 && (p.weight == 0 || p.rtype != 0 || p.count != 0)) ||
      (unit && (decide (unitCount p.rtype < p.index + p.count) ||
        (p.rtype == 1 && p.index / 8192 != (p.index + p.count - 1) / 8192)))
    if bad then Res.err s eRange else assignOwn h.target p s

def execAssign (h : Hdr) (p : AssignP) (s : State) : Step := .next (cmdAssign h p s)

end Sys2Proof.Machine
end

