-- ==== Sys2Proof/Machine/Pe.lean ====
section
/-! DEFINITION. PE control buses and their scripts, and LEVELS (15_links.md R430 to R433; R98, R199, R205, R303, R310,
R528). -/

namespace Sys2Proof.Machine
open Sys2Proof

/-! ## Scripts (R431) -/

/-- Fields of an op. -/
def opCode (o : List Byte) : Nat := fld o 0 1
def opBus (o : List Byte) : Nat := bits (fld o 0 4) 11 8
def opChan (o : List Byte) : Bool := (fld o 0 4).testBit 14
def opBits (o : List Byte) : Nat := bits (fld o 0 4) 20 16 + 1
def opCs (o : List Byte) : Nat := bits (fld o 0 4) 13 12
def opMode3 (o : List Byte) : Bool := (fld o 0 4).testBit 15
def opPsel (o : List Byte) : Nat := bits (fld o 0 4) 22 21
def opShift (o : List Byte) : Nat := bits (fld o 0 4) 27 23
def opData (o : List Byte) : Nat := fld o 4 4

/-- Ops that address a bus: WRITE, READ, CLOCK. -/
def addresses (o : List Byte) : Bool := opCode o == 1 || opCode o == 2 || opCode o == 5

/-- Ops that send bits: WRITE and READ. -/
def sends (o : List Byte) : Bool := opCode o == 1 || opCode o == 2

/-- The bus of an op, and the chip-select (R430, R431). -/
def busOf (o : List Byte) (lch : Nat) : Nat := if opChan o then lch / 32 else opBus o
def csOf (o : List Byte) (lch : Nat) : Nat := if opChan o then lch % 32 / 8 else opCs o

/-- The word that a WRITE or READ sends (R431): DATA or the shifted parameter, NBITS of it; the channel in the chip is LCH mod 8. -/
def sentWord (o : List Byte) (lch : Nat) (codes : Nat × Nat) : Nat :=
  let p := match opPsel o with
    | 0 => lch % 8
    | 1 => codes.1
    | 2 => codes.2
    | _ => 0
  (opData o ||| p <<< opShift o) % 2 ^ opBits o

/-- A script's format (R431): 1 to 512 ops of 8 bytes. -/
def scriptOk (busmask : Nat) (bs : List Byte) : Bool :=
  let ops := pieces 8 (bs.length / 8) bs
  bs.length % 8 == 0 && !ops.isEmpty && decide (ops.length ≤ 512) &&
  ops.all (fun o => decide (1 ≤ opCode o) && decide (opCode o ≤ 6) && bits (fld o 0 4) 31 28 == 0 &&
    (!addresses o || opChan o || busmask.testBit (opBus o)) && (opCode o != 5 || (decide (3 ≤ opData o) && decide (opData o ≤ 255)))) &&
  (ops.dropLast).all (fun o => opCode o != 6) && (ops.getLast?).any (fun o => opCode o == 6)

def State.script (s : State) (n : Nat) : Option Script := assoc s.scripts n

/-- Whether an op uses the channel or a parameter (R432). -/
def Script.perChannel (x : Script) : Bool := x.ops.any (fun o => (addresses o && opChan o) || (sends o && decide (opPsel o < 3)))

/-- Whether a script inserts threshold codes. -/
def Script.setsLevels (x : Script) : Bool := x.ops.any (fun o => sends o && (opPsel o == 1 || opPsel o == 2))

/-- The buses that a script uses for some channels; a bus outside BUSMASK is not one of them. -/
def Script.buses (x : Script) (chans : List Nat) : List Nat :=
  let l := x.ops.flatMap (fun o => if !addresses o then [] else if opChan o then chans.map (· / 32) else [opBus o])
  let l := (l.filter x.busmask.testBit).eraseDups
  if l.isEmpty then (ones x.busmask 16).take 1 else l

/-- Whether a code fits where a script inserts it: PSEL 1 VTH, 2 VTL (R310, R431). -/
def Script.codeFits (x : Script) (psel code : Nat) : Bool :=
  x.ops.all (fun o => !sends o || opPsel o != psel || decide (code * 2 ^ opShift o < 2 ^ opBits o))

/-- PE_SCRIPT_LOAD (R303). -/
def cmdPeScriptLoad (h : Hdr) (script busmask settle : Nat) (data : DRef) (s : State) : State :=
  s.runCmd h 0x000F [(data, true)] none fun s =>
    let bs := s.dataIn h data
    let named := s.batches.any (fun p => p.2.active && p.2.prog.any (fun i => match i with
      | .peact _ n => n == script
      | _ => false))
    let stored := ((s.scripts.filter (fun p => p.1 != script)).map (fun p => 8 * p.2.ops.length)).sum
    checked s
      [(decide (1023 < script) || busmask == 0 || data.len == 0 || decide (4096 < data.len), eRange),
       (!scriptOk busmask bs, eEncoding), (named, eBusy), (decide (262144 < stored + bs.length), eResource)]
      (Res.ok { s with scripts := put s.scripts script ⟨busmask, settle, pieces 8 (bs.length / 8) bs⟩ } [] [])

def execPeScriptLoad (h : Hdr) (script busmask settle : Nat) (data : DRef) (s : State) : Step :=
  .next (cmdPeScriptLoad h script busmask settle data s)

/-! ## Runs on the buses (R432, R433) -/

def State.bus (s : State) (n : Nat) : Bus := s.buses.get Bus.zero n

def State.setBus (s : State) (n : Nat) (x : Bus) : State := { s with buses := s.buses.set Bus.zero n x }

/-- An idle bus takes its next queued script. -/
def Bus.next (x : Bus) : Bus :=
  match x.run, x.queue with
  | none, r :: q => { x with run := some r, queue := q }
  | _, _ => x

/-- A run in a bus's queue, in the order of dispatch (R433). -/
def Bus.queued (x : Bus) (r : PeRun) : Bus :=
  ({ x with queue := x.queue.takeWhile (fun q => q.ord ≤ r.ord) ++ r :: x.queue.dropWhile (fun q => q.ord ≤ r.ord) } : Bus).next

/-- A run queued on every bus that it uses. -/
def State.queueRun (s : State) (r : PeRun) : State :=
  match s.script r.script with
  | none => s
  | some x => (x.buses r.chans).foldl (fun s n => s.setBus n ((s.bus n).queued r)) s

/-- A script dispatched: it runs once per channel in ascending order where it uses the channel or a code, else once only (R432). -/
def State.startRun (s : State) (r : PeRun) : State :=
  let s := { s with peOrd := s.peOrd + 1 }
  if (s.script r.script).any Script.perChannel then s.queueRun { r with chans := r.chans.take 1, left := r.chans.drop 1, ord := s.peOrd }
  else s.queueRun { r with ord := s.peOrd }

/-- Whether a run is still on some bus. -/
def State.onBus (s : State) (r : PeRun) : Bool := s.buses.any (fun p => p.2.run == some r || p.2.queue.contains r)

/-- A run taken off every bus. -/
def Bus.without (x : Bus) (r : PeRun) : Bus :=
  ({ x with run := if x.run == some r then none else x.run, queue := x.queue.filter (fun y => y != r) } : Bus).next

def State.dropRun (s : State) (r : PeRun) : State :=
  { s with buses := s.buses.map (fun p => (p.1, p.2.without r)) }

/-- A bus as it performs a script (R431): its DIV, the accumulator, whether the latest READ of the script stood on it, what MISO is still
to show, the ops of this bus performed, the transfers, whether no error has come. -/
structure PeBus where
  div : Nat
  acc : Nat
  mine : Bool
  miso : List Nat
  done : Nat
  sent : List Out
  ok : Bool

/-- An op of the script as bus n meets it: those of other buses pass, an EXPECT belongs to the bus of the latest READ. -/
def PeBus.op (n busmask lch : Nat) (codes : Nat × Nat) (readback : Option Nat) (y : PeBus) (o : List Byte) : PeBus :=
  if !y.ok then y
  else if addresses o then
    if opChan o && !busmask.testBit (lch / 32) then { y with ok := false }
    else if busOf o lch != n then (if opCode o == 2 then { y with mine := false } else y)
    else if readback == some y.done then { y with ok := false }
    else if opCode o == 5 then { y with div := opData o, done := y.done + 1 }
    else
      let y := { y with done := y.done + 1, sent := y.sent ++ [.spi n (csOf o lch) (opMode3 o) y.div (opBits o) (sentWord o lch codes)] }
      if opCode o == 2 then { y with acc := y.miso.headD 0 % 2 ^ opBits o, miso := y.miso.drop 1, mine := true } else y
  else if opCode o == 3 && y.mine && y.acc % 2 ^ opBits o != opData o then { y with ok := false }
  else y

/-- A script on bus n for a channel: an EXPECT before any READ meets a free value on the first bus of the script (log 67); a readback that
fails after the last op is met at END. -/
def Script.perform (x : Script) (n lch div : Nat) (codes : Nat × Nat) (first : Bool) (u : Nat) (e : PeEnd) : PeBus :=
  let y := x.ops.foldl (PeBus.op n x.busmask lch codes e.readback) ⟨div, u, first, e.miso, 0, [], true⟩
  { y with ok := y.ok && !e.readback.any (fun k => decide (y.done ≤ k)) }

/-! ## What the end of a run does -/

/-- The thresholds of a channel take codes (R199, R206): marked where they are sources. Codes already in force count as a change too (DESIGN
CHOICE, log 70). -/
def State.setLevel (s : State) (b lch vth vtl settle : Nat) (by_ : Option Nat) : State :=
  (s.onBatch b (fun x => { x with vth := x.vth.set 0 lch vth, vtl := x.vtl.set 0 lch vtl, thrSet := addOnce lch x.thrSet })).thresholdMarks
    lch settle by_

/-- LEVELS sets an entry's channel: its levels as LEVELS last set them, and its thresholds (R310, R198). -/
def State.setLvl (s : State) (b : Nat) (voff : Int) (vstep settle : Nat) (e : Nat × Nat × Nat) : State :=
  (s.onBatch b (fun x => { x with lvls := x.lvls.set Lvl.zero e.1 ⟨e.2.1, e.2.2, voff, vstep⟩ })).setLevel b e.1 e.2.1 e.2.2 settle none

/-- The waiting LEVELS of a run. -/
def State.levelsOf (s : State) (r : PeRun) : Option Waiter :=
  s.waits.find? (fun w => w.tap == r.key.1 && w.seq == r.key.2 && match w.what with
    | .levels .. => true
    | _ => false)

/-- A batch fault 8 whose stop lies at the first boundary at or after a grid time (R98, R528). -/
def State.scriptFault (s : State) (b bus at_ : Nat) : State :=
  match s.batch b with
  | none => s
  | some x =>
    let src := 0x700 + 16 * (b - 1) + 8
    let s := s.report src 0x0108 (0x0020 + bus) x.vh false false
    let s := if x.active then s.setSrc src { s.src src with stops := addOnce b (s.src src).stops } else s
    (s.onBatch b (fun x => if x.active then { x with thr := x.thr ++ [(4, at_)] } else x)).msi b 2

/-- The next run of a LEVELS, or its settling after the last. -/
def State.levelsNext (s : State) (r : PeRun) (bus : Nat) (left : List (Nat × Nat × Nat)) : State :=
  match left with
  | e :: _ => s.queueRun { r with chans := [e.1] }
  | [] => let x := s.bus bus; s.setBus bus { x with settling := x.settling ++ [(r, s.now + r.settle * ns)] }

/-- The waiting LEVELS with other entries left. -/
def State.setLevelsWait (s : State) (w : Waiter) (what : WaitFor) : State :=
  { s with waits := s.waits.map (fun v => if v == w then { w with what := what } else v) }

/-- An entry of LEVELS has been written, or all of them where the script runs once only (R310, R432). -/
def State.levelsStep (s : State) (r : PeRun) (bus : Nat) : State :=
  match s.levelsOf r, s.script r.script with
  | some w, some x =>
    match w.what with
    | .levels sc voff vstep left n =>
      let k := if x.perChannel then 1 else left.length
      let s := (left.take k).foldl (fun s e => s.setLvl w.b voff vstep r.settle e) s
      (s.setLevelsWait w (.levels sc voff vstep (left.drop k) (n + k))).levelsNext r bus (left.drop k)
    | _ => s
  | _, _ => s

/-- A LEVELS that met a bus error: E_HW with PARTIAL and the entries written (R310). -/
def State.levelsFail (s : State) (r : PeRun) : State :=
  match s.levelsOf r with
  | some w =>
    let n := match w.what with
      | .levels _ _ _ _ n => n
      | _ => 0
    ({ s with waits := s.waits.filter (fun v => v != w) }).finishWait w eHw 4 (le 2 n) [] false
  | none => s

/-- The script of a level search runs for its channel (R204, R205). -/
def State.searchRun (s : State) (n : Nat) (l : LSearch) : State :=
  let a := s.acq n
  let settle := ((s.script l.script).map (fun x => x.settle)).getD 0
  (s.setAcq n { a with ls := some { l with running := true } }).startRun ⟨l.script, 3, n, settle, [l.lch], [], (0, 0), 0⟩

/-- Searches that have ended DISTURBED restore the thresholds as soon as their script stands still (R206). -/
def State.restoreSearches (s : State) : State :=
  (List.range 12).foldl (fun s n => match (s.acq n).ls with
    | some l => if l.status == 3 && l.levels != 0 && !l.running then s.searchRun n { l with levels := 0 } else s
    | none => s) s

/-- The thresholds that a search's script has written: the code under test, or at the end of a search those before it (R205). -/
def LSearch.codes (l : LSearch) : Nat × Nat :=
  if l.levels == 0 then (l.oldVth, l.oldVtl) else if l.low then (l.oldVth, l.test) else (l.test, l.oldVtl)

def State.searchLevel (s : State) (n settle : Nat) : State :=
  let a := s.acq n
  match a.ls with
  | some l => (s.setAcq n { a with ls := some { l with running := false } }).setLevel (s.acqOwner.get 0 n) l.lch l.codes.1 l.codes.2 settle (some n)
  | none => s

/-- A PEACT's script has written the thresholds of the channel that it ran for: they are marked with the script's own settle time, and a
level search on the channel ends (R199, R206). -/
def State.peactMarks (s : State) (r : PeRun) : State :=
  match s.script r.script with
  | some x => if (r.use_ == 0 || r.use_ == 2) && x.setsLevels then r.chans.foldl (fun s c => s.thresholdMarks c x.settle none) s else s
  | none => s

/-- A run of a flow's PEACT step settles for max(SETTLE, 200 ns) (R329). -/
def State.settles (s : State) (r : PeRun) (bus : Nat) : State :=
  let y := s.bus bus
  s.setBus bus { y with settling := y.settling ++ [(r, s.now + max (r.settle * ns) (200 * ns))] }

/-- A run has ended without error on its last bus. -/
def State.runOk (s : State) (r : PeRun) (bus : Nat) : State :=
  match r.use_ with
  | 0 =>
    s.onBatch r.b (fun x => { x with seq := { x.seq with wait := match x.seq.wait with
        | some (.peact _) => some (.peact (some (Acc.start (s.now + max (r.settle * ns) (200 * ns)) 1)))
        | w => w } })
  | 1 => s.levelsStep r bus
  | 2 => s.settles r bus
  | 3 => s.searchLevel r.b r.settle
  | _ => s

/-- A run has ended with a bus error. The manual gives a level search no status of its own for one: it ends DISTURBED (log 19). -/
def State.runFail (s : State) (r : PeRun) (bus : Nat) : State :=
  match r.use_ with
  | 0 => s.scriptFault r.b bus (s.now + 200 * ns)
  | 1 => s.levelsFail r
  | 2 => (s.onFlow r.b (fun f => { f with busErr := true })).settles r bus
  | 3 =>
    let a := s.acq r.b
    s.setAcq r.b { a with ls := a.ls.map (fun l => { l with status := if l.status == 4 then 3 else l.status, levels := 0, running := false }) }
  | _ => s

/-- The codes of a run (R432): an entry's, those of a search's test, or the channel's current ones. -/
def State.runCodes (s : State) (r : PeRun) : Nat × Nat :=
  let c := r.chans.headD 0
  let now := ((s.batch (s.sliceOwner.get 0 (c / 16))).map (fun x => (x.vth.get 0 c, x.vtl.get 0 c))).getD (0, 0)
  match r.use_ with
  | 1 => match (s.levelsOf r).map (fun w => w.what) with
    | some (WaitFor.levels _ _ _ (e :: _) _) => e.2
    | _ => now
  | 3 => ((s.acq r.b).ls.map LSearch.codes).getD now
  | _ => now

/-- A run has ended on its last bus without error: the script runs for the next channel, or has run for all (R432). -/
def State.runEnd (s : State) (r : PeRun) (bus : Nat) : State :=
  let s := s.peactMarks r
  match r.left with
  | c :: cs => s.queueRun { r with chans := [c], left := cs }
  | [] => (s.runOk r bus).restoreSearches

/-- What the buses send. -/
def State.emits (s : State) (l : List Out) : State := l.foldl State.emit s

/-- PE_SCRIPT_DONE (R98, R430 to R433): bus n has performed the script that runs on it, to its END or to a bus error. -/
def peScriptDone (s : State) (n : Nat) (e : PeEnd) (t : Nat) : State :=
  let x := s.bus n
  match x.run with
  | none => s
  | some r =>
    let (u, s) := (s.at_ t).fresh
    let y := match s.script r.script with
      | some z => z.perform n (r.chans.headD 0) x.div (s.runCodes r) ((z.buses r.chans).head? == some n) u e
      | none => ⟨x.div, 0, false, [], 0, [], true⟩
    let s := (s.setBus n ({ x with div := y.div, run := none } : Bus).next).emits y.sent
    if y.ok then (if s.onBus r then s else s.runEnd r n)
    else ((s.dropRun r).raiseFree (0x550 + n) 0x0418 false).runFail r n

def execPeScriptDone (bus : Nat) (e : PeEnd) (t : Nat) (s : State) : Step := .next (peScriptDone s bus e t)

/-- The chip-selects that a bus holds between scripts: all high (R433). -/
def Bus.held (x : Bus) : Option Nat := if x.run.isNone then some 15 else none

/-- PE_BUS_FAULT (R433, R243): a mismatch of the readback between scripts. -/
def peBusFault (s : State) (n t : Nat) : State :=
  if (s.bus n).run.isSome then s else (s.at_ t).raiseFree (0x550 + n) 0x0419 false

def execPeBusFault (bus t : Nat) (s : State) : Step := .next (peBusFault s bus t)

/-- A run has settled (R310, R329). -/
def State.settled (s : State) (r : PeRun) : State :=
  match r.use_ with
  | 1 => match s.levelsOf r with
    | some w => ({ s with waits := s.waits.filter (fun v => v != w) }).finishWait w OK 0 [] [] false
    | none => s
  | 2 => if (s.flow r.b).phase == 3 then s.stepEnds r.b else s
  | _ => s

/-- SCRIPT_SETTLE_END: the first settling run of the bus whose time has come. -/
def scriptSettled (s : State) (n t : Nat) : State :=
  let x := s.bus n
  match x.settling.find? (fun p => decide (p.2 ≤ t)) with
  | none => s
  | some p => ((s.at_ t).setBus n { x with settling := x.settling.erase p }).settled p.1

def execScriptSettleEnd (bus t : Nat) (s : State) : Step := .next (scriptSettled s bus t)

/-! ## LEVELS (R310) -/

/-- The 8-byte entries of LEVELS: LCH, VTH code, VTL code. -/
def levelEntries (bs : List Byte) : List (Nat × Nat × Nat) :=
  (List.range (bs.length / 8)).map (fun i => (fld bs (8 * i) 2, fld bs (8 * i + 2) 2, fld bs (8 * i + 4) 2))

/-- Whether batch b owns every bus of a script. -/
def State.ownsBuses (s : State) (b : Nat) (x : Script) : Bool := (ones x.busmask 16).all (fun n => s.busOwner.get 0 n == b)

/-- LEVELS. A block that is no whole number of entries gives E_LENGTH (log 20). With no entry a script that uses a channel runs no time,
and its settle time alone passes (log 41). -/
def cmdLevels (h : Hdr) (voff : Int) (vstep script : Nat) (data : DRef) (s : State) : State :=
  let rsv := (List.range (data.len / 8)).any (fun i => !zeros (s.dataIn h data) (8 * i + 6) 2)
  s.runCmd { h with rsv := h.rsv || rsv } 0x0105 [(data, true)] none fun s =>
    let b := cmdBatch h
    let es := levelEntries (s.dataIn h data)
    let x := s.script script
    checked s
      [(data.len % 8 != 0, eLength),
       (es.any (fun e => decide (511 < e.1) || s.sliceOwner.get 0 (e.1 / 16) != b) || x.any (fun x => !s.ownsBuses b x), eOwner),
       (vstep == 0 || x.isNone || x.any (fun x => es.any (fun e => !x.codeFits 1 e.2.1 || !x.codeFits 2 e.2.2)) ||
         es.any (fun e => decide (e.2.1 < e.2.2)), eRange),
       (es.any (fun e => !s.powered (3 + e.1 / 16)), eState)]
      (let s := s.onBatch b (fun y => { y with voff := voff, vstep := vstep })
       let r : PeRun := ⟨script, 1, b, (x.map (fun x => x.settle)).getD 0, (es.take 1).map Prod.fst, [], (h.tap, h.seq), 0⟩
       let bus := ((x.map (fun x => x.buses [])).getD []).headD 0
       Res.wait_ (if es.isEmpty && x.any Script.perChannel then s.levelsNext r bus [] else s.startRun r) (.levels script voff vstep es 0))

def execLevels (h : Hdr) (voff : Int) (vstep script : Nat) (data : DRef) (s : State) : Step :=
  .next (cmdLevels h voff vstep script data s)

end Sys2Proof.Machine
end

