-- ==== Sys2Proof/Machine/Repair.lean ====
section
/-! DEFINITION. The repair map: what an entry does, writing a generation, deciding the map at start-up (16_faults_reserves.md
R453 to R458; R13, R14, R25). The RACK commands stand in Rack.lean. -/

namespace Sys2Proof.Machine
open Sys2Proof

/-- The unit that an entry retires, with ARG where it tells units of one UNIT apart. -/
def MapE.key (e : MapE) : Nat × Nat × Nat := (e.kind, e.unit, if 5 ≤ e.kind then e.arg else 0)

/-- The logical channel on a cell of slice sl, under a crossbar. -/
def lchOn (xbar : Tab Nat) (pcell : Nat) : Option Nat :=
  ((List.range 16).map (fun c => 16 * (pcell / 17) + c)).find? (fun l => xbar.get (l % 16) l == pcell % 17)

/-- What an entry of the map does (R453, R25): the unit is retired and its reserve serves in its place. -/
def Repair.apply (r : Repair) (e : MapE) : Repair :=
  let r := { r with retired := addOnce e.key r.retired }
  match e.kind with
  | 1 => match lchOn r.xbar e.unit with
    | some l => { r with xbar := r.xbar.set (l % 16) l (e.newunit % 17) }
    | none => r
  | 2 => { r with seqRes := r.seqRes.set 0 e.unit 1 }
  | 3 => { r with acqRes := addOnce (e.unit / 3) r.acqRes }
  | 4 => { r with coreRes := true }
  | _ => r

/-- The lanes of a port that a map retires, as (direction, lane) (R428). -/
def mapLanes (m : List MapE) (p : Nat) : List (Nat × Nat) :=
  (m.filter (fun e => e.kind == 7 && e.unit % 2 == p)).foldl (fun l e => addOnce (e.unit / 2, e.arg) l) []

/-- A port with the lanes that a map retires; other lanes than before are trained again. -/
def Port.relane (x : Port) (l : List (Nat × Nat)) : Port := if x.lanes = l then x else { x with lanes := l, retrain := x.up, audited := false }

/-- The reserve lanes of both ports as the working map has them (R14, R25, R428). The lanes of kind 5 and the rows of kind 6 need no
more than the map and the stack themselves. -/
def State.mapPorts (s : State) : State :=
  { s with cellar := { s.cellar with up := s.cellar.up.relane (mapLanes s.rep.map 0), dn := s.cellar.dn.relane (mapLanes s.rep.map 1) } }

/-- The repair state that a whole map gives, with nothing held out (R14). -/
def Repair.ofMap (r : Repair) (m : List MapE) : Repair :=
  m.foldl Repair.apply { r with map := m, retired := [], heldOut := [], conflict := false, xbar := [], seqRes := [], acqRes := [], coreRes := false }

/-- The seconds of TOD that an entry carries (R455). -/
def State.tods (s : State) : Nat := s.tb.todRaw / (4294967296 * second) % two32

/-- An entry joins the working map and takes effect. -/
def State.addEntry (s : State) (e : MapE) : State := { s with rep := { s.rep with map := s.rep.map ++ [e] }.apply e }

/-- The copies after a generation has been written into those of a mask (bits 0 to 2 for A, B, C), the others left not
intact. -/
def writtenCopies (copies : List MapCopy) (mask gen : Nat) (m : List MapE) : List MapCopy :=
  copies.mapIdx (fun i _ => if mask.testBit i then MapCopy.ok gen m else .bad)

/-- The working map written as the next generation (R456): a copy whose read-back fails raises MAP_WRITE_FAIL. -/
def State.writeMap (s : State) (mask : Nat) : State :=
  let g := s.rep.gen + 1
  let s := { s with rep := { s.rep with gen := g, copies := writtenCopies s.rep.copies mask g s.rep.map } }
  ((List.range 3).filter (fun i => !mask.testBit i)).foldl (fun s _ => s.raiseFree 0x031 0x0033 false) s

/-- The factory map (R455), as entries marked FACTORY. -/
def factoryEntries : List MapE := Config.factoryMap.map (fun p => ⟨p.1, 2, p.2.1, p.2.2.1, p.2.2.2, 0⟩)

/-- What R457 decides: the map and generation used, whether every copy is rewritten or how the copies stand after, MAP_REPAIRED,
the units held out by MAP_CONFLICT. -/
structure Decided where
  map : List MapE
  gen : Nat
  repaired : Bool
  held : Option (List (Nat × Nat × Nat))

/-- The units that intact copies name beyond the factory map. -/
def conflictUnits (copies : List MapCopy) : List (Nat × Nat × Nat) :=
  (copies.flatMap (fun c => match c with
    | .ok _ m => (m.filter (fun e => e ∉ factoryEntries)).flatMap (fun e =>
        if e.kind ≤ 4 then [e.key, (e.kind, e.newunit, 0)] else [e.key])
    | _ => [])).eraseDups

/-- The map from three copies, in the order of the rows of R457. -/
def decideMap (a b c : MapCopy) : Decided :=
  let conflict : Decided := ⟨factoryEntries, 0, false, some (conflictUnits [a, b, c])⟩
  match a, b, c with
  | .ok g m, .ok h n, .ok k o =>
    if g = h && m = n then ⟨m, g, !(h = k && n = o), none⟩
    else if h = k && n = o then ⟨n, h, true, none⟩
    else if g = k && m = o then ⟨m, g, true, none⟩
    else conflict
  | .ok g m, .ok h n, _ => if g = h && m = n then ⟨m, g, true, none⟩ else conflict
  | _, .ok h n, .ok k o => if h = k && n = o then ⟨n, h, true, none⟩ else conflict
  | .ok g m, _, .ok k o =>
    if g = k && m = o then ⟨m, g, true, none⟩ else if g = k + 1 then ⟨o, k, true, none⟩ else conflict
  | .ok g m, _, _ => ⟨m, g, true, none⟩
  | _, .ok h n, _ => ⟨n, h, true, none⟩
  | _, _, .ok k o => ⟨o, k, true, none⟩
  | .erased, .erased, .erased => ⟨factoryEntries, 1, false, none⟩
  | _, _, _ => conflict

/-- The repair map decided at a start (R457, R14). -/
def State.decideRepair (s : State) : State :=
  let c := s.rep.copies
  let d := decideMap (c.getD 0 .bad) (c.getD 1 .bad) (c.getD 2 .bad)
  let r := { (s.rep.ofMap d.map) with gen := d.gen, seqWorn := 0, ops := [] }
  match d.held with
  | some us =>
    let g := (c.map (fun x => match x with
      | .ok g _ => g
      | _ => 0)).foldl max 0
    (({ s with rep := { r with heldOut := us, conflict := true, gen := g } }).mapPorts).raiseFree 0x031 0x0031 true
  | none =>
    let s := ({ s with rep := { r with copies := List.replicate 3 (.ok d.gen d.map) } }).mapPorts
    if d.repaired then s.raiseFree 0x031 0x0032 false else s

end Sys2Proof.Machine
end

