-- ==== Sys2Proof/Machine/Sync.lean ====
section
/-! DEFINITION. The rendezvous of sync groups at the deciding consensus unit (04_sequencer.md R106). A report to another device, and
its decision, travel as messages (log 15); a report tells how many members its device holds (log 22). -/

namespace Sys2Proof.Machine
open Sys2Proof

/-- The batches of this device in a sync group: those whose START named it, also when they have stopped (R106); one
that stopped in an earlier run counts too (DESIGN CHOICE, log 70). -/
def State.syncMembers (s : State) (g : Nat) : List Nat :=
  (s.batches.filter (fun p => p.2.syncgrp == g && decide (2 ≤ p.2.state))).map Prod.fst

/-- The devices of a group's members: this one and those that the DMASKs of its members here name. -/
def State.syncDevices (s : State) (g : Nat) : Nat :=
  (s.syncMembers g).foldl (fun m b => m ||| ((s.batch b).map (fun x => x.dmask)).getD 0) (2 ^ s.cdev)

/-- Whether this device holds the lowest-numbered member. -/
def State.decides (s : State) (g : Nat) : Bool := (ones (s.syncDevices g) 64).head? == some s.cdev

/-- The reports of a group that the unit holds. -/
def State.syncReports (s : State) (g : Nat) : List SyncRep := s.syncs.filter (fun r => r.group == g)

/-- Whether every member has reported: each here, and of each other device as many as its reports name. -/
def State.allReported (s : State) (g : Nat) : Bool :=
  let rs := s.syncReports g
  (s.syncMembers g).all (fun b => rs.any (fun r => r.dev == s.cdev && r.b == b)) &&
  (ones (s.syncDevices g) 64).all (fun d => d == s.cdev ||
    (let m := rs.filter (fun r => r.dev == d)
     !m.isEmpty && m.all (fun r => decide (r.members ≤ m.length))))

/-- The earliest of some times, the first of a list standing before it. -/
def firstAcc (a : Acc) (l : List Acc) : Acc := l.foldl (fun m q => if q.le m then q else m) a

/-- The latest of them. -/
def lastAcc (a : Acc) (l : List Acc) : Acc := l.foldl (fun m q => if m.le q then q else m) a

/-- The earliest A_w and the TIMEOUT that goes with it: the least that is not zero among the earliest reports. -/
def syncDeadline (rs : List SyncRep) : Option (Acc × Nat) :=
  match rs with
  | [] => none
  | r :: t =>
    let aw := firstAcc r.aw (t.map (fun q => q.aw))
    let ts := ((rs.filter (fun q => q.aw.le aw)).map (fun q => q.timeout)).filter (fun v => v != 0)
    some (aw, ts.foldl (fun m v => if m == 0 then v else min m v) 0)

/-- An exact time in a message: 16 bytes of grid time, then the residue. -/
def accBytes (a : Acc) : List Byte := timeBytes a.fs ++ le 8 a.n ++ le 8 a.d

/-- The exact time at an offset of a message. -/
def accAt (m : List Byte) (off : Nat) : Acc := ⟨(pairAt m off).time.getD 0, fld m (off + 16) 8, max 1 (fld m (off + 24) 8)⟩

/-- A decision reaches the members on this device: 0 release at a grid time, 1 SYNC_MISMATCH, 2 SYNC_TIMEOUT. -/
def State.syncOutcome (s : State) (g outcome : Nat) (tr : Acc) : State :=
  (s.syncMembers g).foldl (fun s b =>
    if outcome == 0 then
      s.onBatch b (fun x => { x with seq := { x.seq with wait := match x.seq.wait with
          | some (.sync ..) => some (.peact (some tr))
          | w => w } })
    else if s.isActive b then s.batchFault b (3 + outcome) else s) s

/-- The unit's one decision for all members (R106). -/
def State.syncDecide (s : State) (g outcome : Nat) (tr : Acc) : State :=
  let devs := s.syncDevices g
  let s := { s with syncs := s.syncs.filter (fun r => r.group != g) }
  let s := s.syncOutcome g outcome tr
  (ones devs 64).foldl (fun s d =>
    if d == s.cdev then s else s.sendMsg (if d < s.cdev then 0 else 1) d 0 7 (le 1 g ++ le 1 outcome ++ accBytes tr)) s

/-- T_r (R106). -/
def State.syncRelease (s : State) (g : Nat) : Acc :=
  (lastAcc (Acc.start 0 1) ((s.syncReports g).map (fun r => r.aw))).plus (70 * ns + 95 * ns * hopsIn (s.syncDevices g))

/-- A report at the deciding unit: different RDVs end the rendezvous, the last report releases every member, and a deadline that
lies in the past falls due (R106). -/
def State.syncArrive (s : State) (r : SyncRep) : State :=
  let others := s.syncs.filter (fun q => !(q.group == r.group && q.dev == r.dev && q.b == r.b))
  let s := { s with syncs := others ++ [r] }
  let rs := s.syncReports r.group
  if rs.any (fun q => q.rdv != r.rdv) then s.syncDecide r.group 1 (Acc.start 0 1)
  else if s.allReported r.group then s.syncDecide r.group 0 (s.syncRelease r.group)
  else match syncDeadline rs with
    | some (aw, n) => if n != 0 && !(Acc.start s.now 1).le (aw.plus (n * us)) then s.syncDecide r.group 2 (Acc.start 0 1) else s
    | none => s

/-- A report by a member of this device: here when this device decides, by message otherwise. -/
def State.syncReport (s : State) (g b rdv timeout : Nat) (aw : Acc) : State :=
  let n := (s.syncMembers g).length
  if s.decides g then s.syncArrive ⟨g, s.cdev, b, rdv, timeout, aw, n⟩
  else
    let d := (ones (s.syncDevices g) 64).headD 0
    s.sendMsg (if d < s.cdev then 0 else 1) d 0 6 (le 1 g ++ le 1 b ++ le 2 rdv ++ le 4 timeout ++ le 1 n ++ accBytes aw)

/-! ## The message of a COMMIT (R250, R251) -/

/-- The commit instant T_c (R252). -/
def commitTc (t dmask : Nat) : Nat := t - 100 * ns - 100 * ns * hopsIn dmask

/-- GROUP, BMASK, EPOCH, DMASK, T and the deadline that the issuing device has fixed. -/
def CommitS.body (c : CommitS) : List Byte :=
  le 1 c.group ++ le 2 c.bmask ++ le 4 c.epoch ++ le 8 c.dmask ++ timeBytes c.t ++ timeBytes c.deadline

/-- A commit that another device has issued. One that comes while a commit of its GROUP is undecided here is dropped (DESIGN CHOICE,
log 70). -/
def State.commitArrive (s : State) (m : List Byte) : State :=
  let t := (pairAt m 15).time.getD 0
  let c : CommitS := ⟨fld m 0 1, fld m 3 4, fld m 1 2, fld m 7 8, t, (pairAt m 31).time.getD 0, commitTc t (fld m 7 8), none, 0, [], false, 0⟩
  if s.commits.any (fun d => d.group == c.group && d.state == 0) then s else { s with commits := s.commits ++ [c] }

/-- SYNC_REPORT: a report reaches this device's unit; another device's unit decides groups that this one does not. -/
def syncReportRx (s : State) (p : SyncRep) (t : Nat) : State :=
  if s.decides p.group then (s.at_ t).syncArrive p else s

def execSyncReport (group : Nat) (dev : SyncDev) (b rdv timeout : Nat) (aw : SyncAw) (t : Nat) (s : State) : Step :=
  .next (syncReportRx s ⟨group, dev.dev, b, rdv, timeout, ⟨aw.fs, aw.n, aw.d⟩, dev.members⟩ t)

/-- SYNC_TIMEOUT (R106): the last report has not come within TIMEOUT µs of the earliest A_w. -/
def syncTimeout (s : State) (g t : Nat) : State :=
  match syncDeadline (s.syncReports g) with
  | some (aw, n) => if n != 0 && (aw.plus (n * us)).le (Acc.start t 1) then (s.at_ t).syncDecide g 2 (Acc.start 0 1) else s
  | none => s

def execSyncTimeout (group t : Nat) (s : State) : Step := .next (syncTimeout s group t)

end Sys2Proof.Machine
end

