-- ==== Sys2Proof/Machine/Links.lean ====
section
/-! DEFINITION. Ethernet frames that the ports answer themselves, and the cellar links: flits, replay, credits, retraining,
the credit audit, enumeration (15_links.md R409 to R428; R387, R393, R397, R253, R449). -/

namespace Sys2Proof.Machine
open Sys2Proof

/-! ## Ethernet (R411, R412) -/

def execEthFrameDrop (_port : Nat) (s : State) : Step := .next s.ethDrop

def State.eth (s : State) (p : Nat) : Eth := s.eths.get Eth.zero p

/-- The IPv6 link-local address of a MAC address by modified EUI-64 (R409), as a number with the first byte most significant. -/
def linkLocal (mac : Nat) : Nat :=
  0xFE80 * 2 ^ 112 + (mac / 2 ^ 24 ^^^ 2 ^ 17) * 2 ^ 40 + 0xFFFE * 2 ^ 24 + mac % 2 ^ 24

/-- Whether a request is for an address of a port: with IPv6 its link-local address, with IPv4 the one that R410 enables (R411). -/
def State.forPort (s : State) (port : Nat) (r : EthReq) : Bool :=
  if r.v6 then r.target == linkLocal (Config.mac port % 2 ^ 48) else (s.eth port).en && r.target == (s.eth port).addr

/-- A request to a port answered to its source MAC address: on a port whose link is down none arrives, and one for another address is
dropped and counted (R411). -/
def State.answer (s : State) (port : Nat) (r : EthReq) (kind : Nat) (data : List Byte) : State :=
  if !(s.eth port).link then s
  else if !s.forPort port r then s.ethDrop
  else s.emit (.frame port r.mac kind data)

/-- ARP_REQUEST (R411): an ARP request or neighbour solicitation is answered with the port's MAC address, in network order (R5). -/
def arp (s : State) (port : Nat) (r : EthReq) : State := s.answer port r (if r.v6 then 0x86DD else 0x0806) (be 6 (Config.mac port))

def execArpRequest (port : Nat) (r : EthReq) (s : State) : Step := .next (arp s port r)

/-- ICMP_ECHO (R411): the echo reply carries the request's data. -/
def icmp (s : State) (port : Nat) (r : EthReq) (data : List Byte) : State := s.answer port r (if r.v6 then 129 else 1) data

def execIcmpEcho (port : Nat) (r : EthReq) (data : List Byte) (s : State) : Step := .next (icmp s port r data)

/-- ETH_LINK_DOWN (R412). -/
def ethLinkDown (s : State) (port t : Nat) : State :=
  let s := (s.at_ t).raiseFree (0x530 + port) 0x0410 false
  { s with eths := s.eths.set Eth.zero port { s.eth port with link := false } }

def execEthLinkDown (port t : Nat) (s : State) : Step := .next (ethLinkDown s port t)

/-- ETH_FEC_UNCORR (R412). -/
def execEthFecUncorr (port t : Nat) (s : State) : Step := .next ((s.at_ t).raiseFree (0x530 + port) 0x0411 false)

/-! ## Receiving flits (R415 to R421) -/

/-- A flit of no sequence: FTYPE and payload. -/
def plainFlit (ftype ack : Nat) (ackv : Bool) (payload : List Byte) : Flit := ⟨ftype, 0, 0, ackv, ack, 0, 0, payload⟩

/-- An ACK of the last accepted flit, with RELEASED (R421). -/
def State.sendAck (s : State) (p : Nat) : State :=
  let x := s.port p
  s.sendFlit p (plainFlit 5 ((x.exp + 4095) % 4096) true (x.released.flatMap (le 2)))

/-- A NAK of EXP unless one is outstanding (R417). -/
def State.sendNak (s : State) (p : Nat) : State :=
  let x := s.port p
  if x.nak then s else (s.setPort p { x with nak := true }).sendFlit p (plainFlit 6 0 false (le 2 x.exp))

/-- Flits of the replay buffer that an acknowledgement of s does not cover (R418). -/
def uncovered (l : List Flit) (s : Nat) : List Flit := l.filter (fun f => !decide ((s + 4096 - f.seq) % 4096 < 2048))

/-- An ACK of s (R418): the count of replays starts again once the oldest flit is covered. -/
def Port.acked (x : Port) (s : Nat) : Port :=
  let left := uncovered x.replay s
  { x with replay := left, replays := if left.length < x.replay.length then 0 else x.replays }

/-- Whether a port passes flits. -/
def Port.passes (x : Port) : Bool := x.up && !x.retrain

/-- FLIT_RX_ACK (R418, R421). -/
def rxAck (s : State) (p ack : Nat) (rel : List Nat) : State :=
  let x := s.port p
  if !x.passes then s
  else
    let x := x.acked ack
    (s.setPort p { x with relSeen := (List.range 4).map (fun vl => rel.getD vl (x.relSeen.getD vl 0) % 65536) }).pump p x.txq.length

def execFlitRxAck (port ack : Nat) (rel : List Nat) (s : State) : Step := .next (rxAck s port ack rel)

/-- The flits held are sent again, unchanged and in order; when four replays in succession have left the oldest flit
unacknowledged the port retrains instead (R418, R419). -/
def State.replay (s : State) (p : Nat) : State :=
  let x := s.port p
  if x.replay.isEmpty then s
  else if 4 ≤ x.replays then s.setPort p { x with retrain := true, audited := false }
  else x.replay.foldl (fun s f => s.sendFlit p f) (s.setPort p { x with replays := x.replays + 1 })

/-- The ACKSEQ that a flit of any kind carries (R414): it acts as an ACK flit would. -/
def State.piggy (s : State) (p : Nat) (ack : Option Nat) : State :=
  match ack with
  | some a => rxAck s p a []
  | none => s

/-- FLIT_RX_NAK (R418): covers every flit before s and orders a replay from s. After a retrain AUDIT_TX follows the replay (R423). -/
def rxNak (s : State) (r : FlitFrom) (nak : Nat) : State :=
  let p := r.port
  if !(s.port p).passes then s
  else
    let s := s.piggy p r.ack
    let s := (s.setPort p ((s.port p).acked ((nak + 4095) % 4096))).replay p
    let x := s.port p
    if x.audited || x.retrain then s else s.sendFlit p (plainFlit 8 0 false (x.sent.flatMap (le 2) ++ x.relSeen.flatMap (le 2)))

def execFlitRxNak (from_ : FlitFrom) (nak : Nat) (s : State) : Step := .next (rxNak s from_ nak)

/-- REPLAY_TIMEOUT (R418). -/
def replayTimeout (s : State) (p t : Nat) : State := if (s.port p).passes then (s.at_ t).replay p else s

def execReplayTimeout (port t : Nat) (s : State) : Step := .next (replayTimeout s port t)

/-- NAK_REPEAT (R417). -/
def nakRepeat (s : State) (p t : Nat) : State :=
  let x := s.port p
  if x.passes && x.nak then (s.at_ t).sendFlit p (plainFlit 6 0 false (le 2 x.exp)) else s

def execNakRepeat (port t : Nat) (s : State) : Step := .next (nakRepeat s port t)

/-- FLIT_CRC_FAIL (R416, R417). -/
def crcFail (s : State) (p : Nat) : State := if (s.port p).passes then (s.sendNak p).count 0x0800 1 Ev.dev else s

def execFlitCrcFail (port : Nat) (s : State) : Step := .next (crcFail s port)

/-- LINK_BAD_FLIT (R415). -/
def badFlit (s : State) (p : Nat) : State := if (s.port p).passes then s.count 0x0801 1 Ev.dev else s

def execLinkBadFlit (port : Nat) (s : State) : Step := .next (badFlit s port)

/-- n receive buffers of a virtual lane freed (R421). -/
def Port.free (x : Port) (vl n : Nat) : Port :=
  { x with released := atVl x.released vl (fun v => (v + n) % 65536), occ := atVl x.occ vl (fun v => v - n) }

/-! ## SYNC flits and numbering (R425, R427, R387, R393) -/

/-- SYNC_FLIT_SEND (R425): in the first free slot at or after a whole multiple of 10 µs of grid time, once for each; TX_T is the slot's
grid time. -/
def syncSend (s : State) (p t : Nat) : State :=
  if (s.port p).passes && decide ((s.port p).syncs * (10 * us) ≤ (s.at_ t).now) then
    let s := s.at_ t
    let s := s.setPort p { s.port p with syncs := s.now / (10 * us) + 1 }
    s.sendFlit p (plainFlit 7 0 false (timeBytes s.now ++ le 4 (toField 32 s.tb.gscale) ++ le 2 0))
  else s

def execSyncFlitSend (port t : Nat) (s : State) : Step := .next (syncSend s port t)

/-- SYNC_FLIT_RX (R387, R393, R425, R528): a GSCALE that differs from the scale in force here at TX_T stops the batches naming the sender with batch fault 14; a grid
time that differs by more than 500 ps warns with the signed difference in ps. `stamp` is the arrival less the flight time of
the link. -/
def syncRx (s : State) (r : FlitFrom) (sender txT : Nat) (gscale : Int) (stamp : Nat) : State :=
  let p := r.port
  if !(s.port p).passes then s
  else
    let s := s.piggy p r.ack
    let s := if gscale == (s.tb.scaleAt txT).2 then s else
      (s.reportFree (0x520 + p) 0x0405 (0x0030 + p) false false).batchFaults 14 (0x0030 + p) (s.batchesNaming [sender])
    let d : Int := (stamp : Int) - txT
    if 500000 < d.natAbs then s.raise (0x520 + p) 0x0406 (toField 64 (rhe d 1000)) false else s

def execSyncFlitRx (from_ : FlitFrom) (sender txT : Nat) (gscale : Int) (stamp : Nat) (s : State) : Step :=
  .next (syncRx s from_ sender txT gscale stamp)

/-- A device number taken, and ENUM sent on DN (R427). -/
def State.takeCdev (s : State) (c : Nat) : State :=
  let s := { s with cellar := { s.cellar with cdev := c, dn := { s.cellar.dn with partner := some (c + 1) } } }
  if s.cellar.dn.passes then s.sendFlit 1 (plainFlit 10 0 false (le 1 c)) else s

/-- ENUM_RX (R427) on a port UP that passes flits (R422): numbers stay fixed once taken. -/
def enumRx (s : State) (f : EnumFlit) (t : Nat) : State :=
  let c := f.c
  if !s.cellar.up.passes then s
  else if s.cellar.cdev != 0xFF || s.cellar.tooLong then s.piggy 0 f.ack
  else
    let s := (s.at_ t).piggy 0 f.ack
    if c == 63 then { s with cellar := { s.cellar with tooLong := true, up := { s.cellar.up with up := false } } }.raiseFree 0x520 0x0407 false
    else ({ s with cellar := { s.cellar with up := { s.cellar.up with partner := some c } } }).takeCdev (c + 1)

def execEnumRx (f : EnumFlit) (t : Nat) (s : State) : Step := .next (enumRx s f t)

/-- ENUM_TIMEOUT (R427): no signal on UP within 1 s of READY. -/
def enumTimeout (s : State) (t : Nat) : State :=
  if s.cellar.cdev == 0xFF && !s.cellar.up.up && !s.cellar.tooLong && s.boot.ready then (s.at_ t).takeCdev 0 else s

def execEnumTimeout (t : Nat) (s : State) : Step := .next (enumTimeout s t)

/-! ## Retraining, audit, going down and coming up (R422 to R424, R253, R449) -/

/-- LINK_RETRAIN (R422). -/
def linkRetrain (s : State) (p t : Nat) : State :=
  let x := s.port p
  if x.passes then (s.at_ t).setPort p { x with retrain := true, audited := false } else s

def execLinkRetrain (port t : Nat) (s : State) : Step := .next (linkRetrain s port t)

/-- A lane that the partner has racked during the retrain (R428), with its direction here: recorded in this device's map, with the
warning. -/
def State.laneSwap (s : State) (p : Nat) (swap : Option (Nat × Nat)) : State :=
  match swap with
  | none => s
  | some (dir, lane) =>
    let x := s.port p
    let s := s.setPort p { x with lanes := addOnce (dir, lane) x.lanes }
    ((s.addEntry ⟨7, 0, 2 * dir + p, 4, lane, s.tods⟩).writeMap 7).raiseFree (0x520 + p) 0x0403 false

/-- The eye margins that a training finds (R428): held, and a lane below 25% of a unit interval warns with the lane and the margin in
DETAIL; their places there are the model's (log 63). -/
def State.linkEyes (s : State) (p : Nat) (eyes : List (Nat × Nat)) : State :=
  let x := s.port p
  let s := s.setPort p { x with eyes := eyes.foldl (fun m e => m.set 0 e.1 e.2) [] }
  (eyes.filter (fun e => decide (e.2 < 16))).foldl (fun s e =>
    s.raise (0x500 + 8 * (2 * (e.1 / 8) + p) + e.1 % 8) 0x0404 (e.1 % 8 + 256 * e.2) false) s

/-- LINK_RETRAIN_DONE (R422, R423): the eye margins, the warning, and the NAK that gives EXP; the replay and the audit follow. -/
def retrained (s : State) (p t : Nat) (r : Trained) : State :=
  let x := s.port p
  if !(x.up && x.retrain) then s
  else
    let s := ((s.at_ t).laneSwap p r.swap).linkEyes p r.eyes
    let x := s.port p
    let s := s.setPort p { x with retrain := false, nak := true, replays := 0, gotTx := none }
    (s.raiseFree (0x520 + p) 0x0400 false).sendFlit p (plainFlit 6 0 false (le 2 x.exp))

def execLinkRetrainDone (port t : Nat) (r : Trained) (s : State) : Step := .next (retrained s port t r)

/-- The devices reached through a port (R424): those below this device's number through UP, those above through DN. -/
def State.reachedBy (s : State) (p : Nat) : List Nat :=
  if p == 0 then List.range s.cdev else (List.range 64).filter (fun d => decide (s.cdev < d))

/-- The units of a commit on this device that EPOCH_LOST stops (R253): verdicts sent, T not yet passed, members on both sides
of the failed link. -/
def State.epochLost (s : State) (p : Nat) : List Nat :=
  (s.commits.filter (fun c => c.fixed && c.state != 2 && decide (s.now < c.t) && c.dmask.testBit s.cdev &&
      (s.reachedBy p).any (fun d => c.dmask.testBit d))).flatMap
    (fun c => (List.range 16).filterMap (fun i => if c.bmask.testBit i && s.isActive (i + 1) then some (i + 1) else none))

/-- A port goes down (R424, R253, R449, R528). -/
def State.portDown (s : State) (p : Nat) : State :=
  let x := s.port p
  let s := s.setPort p { Port.zero with partner := x.partner, lanes := x.lanes }
  let s := s.reportFree (0x520 + p) 0x0402 (0x0030 + p) false true
  let s := s.batchFaults 15 (0x0030 + p) (s.batchesNaming (s.reachedBy p))
  let s := s.batchFaults 10 (0x0030 + p) (s.epochLost p)
  match x.partner with
  | some c => s.sendMsg (1 - p) 0xFF 2 5 (le 1 c)
  | none => s

/-- LINK_DOWN (R424). -/
def linkDown (s : State) (p t : Nat) : State := if (s.port p).up then (s.at_ t).portDown p else s

def execLinkDown (port t : Nat) (s : State) : Step := .next (linkDown s port t)

/-- Whether a count of one virtual lane keeps the audit's equation OCC = ACCEPTED − RELEASED (R423). -/
def occOk (a r o : Nat) : Bool := o == (a + 65536 - r % 65536) % 65536

/-- AUDIT_TX of the partner, which its replay precedes (R423): its SENT is held, and this end's AUDIT_RX follows. -/
def auditTx (s : State) (p : Nat) (tx : Option Audit) : State :=
  match tx with
  | none => s
  | some a =>
    let x := s.port p
    (s.setPort p { x with gotTx := some a.sent, nak := false }).sendFlit p
      (plainFlit 9 0 false (x.accepted.flatMap (le 2) ++ x.released.flatMap (le 2) ++ x.occ.flatMap (le 1)))

/-- Both equations of R423 in both directions, by virtual lane. -/
def Port.auditOk (x : Port) (sent : List Nat) (rx : Audit) : Bool :=
  (List.range 4).all (fun vl =>
    sent.getD vl 0 == x.accepted.getD vl 0 && occOk (x.accepted.getD vl 0) (x.released.getD vl 0) (x.occ.getD vl 0) &&
    x.sent.getD vl 0 == rx.accepted.getD vl 0 && occOk (rx.accepted.getD vl 0) (rx.released.getD vl 0) (rx.occ.getD vl 0))

/-- AUDIT_RX (R423): the partner's AUDIT_TX, and its AUDIT_RX, which comes after it, against this end's counts. -/
def auditRx (s : State) (r : FlitFrom) (tx rx : Option Audit) (t : Nat) : State :=
  let p := r.port
  if !(s.port p).passes || (s.port p).audited then s
  else
    let s := auditTx ((s.at_ t).piggy p r.ack) p tx
    let x := s.port p
    match rx, x.gotTx with
    | some a, some sent =>
      if x.auditOk sent a then
        (s.setPort p { x with audited := true, gotTx := none, relSeen := (List.range 4).map (fun vl => a.released.getD vl 0) }).pump p x.txq.length
      else (s.reportFree (0x520 + p) 0x0401 (0x0030 + p) false false).portDown p
    | _, _ => s

def execAuditRx (from_ : FlitFrom) (tx rx : Option Audit) (t : Nat) (s : State) : Step := .next (auditRx s from_ tx rx t)

/-- LINK_TRAIN_RETRY (R424): a down port trains; a port that CELLAR_TOO_LONG or a held lane keeps down stays down (R427,
R458). -/
def trainRetry (s : State) (p : Nat) : State :=
  let x := s.port p
  if x.up || (p == 0 && s.cellar.tooLong) || s.rep.heldOut.any (fun h => h.1 == 7 && h.2.1 % 2 == p) then s
  else s.setPort p { x with retrain := true }

def execLinkTrainRetry (port : Nat) (s : State) : Step := .next (trainRetry s port)

/-- LINK_UP (R424): all counts from zero; the training's eye margins (R428). -/
def linkUp (s : State) (u : PortUp) : State :=
  let p := u.port
  let x := s.port p
  if x.up || (p == 0 && s.cellar.tooLong) || s.rep.heldOut.any (fun h => h.1 == 7 && h.2.1 % 2 == p) then s
  else
    let s := s.setPort p { Port.zero with up := true, partner := x.partner, lanes := x.lanes, audited := true }
    let s := (s.setSrc (0x520 + p) { s.src (0x520 + p) with level := none }).linkEyes p u.eyes
    if p == 1 && s.cellar.cdev != 0xFF then s.sendFlit 1 (plainFlit 10 0 false (le 1 s.cellar.cdev)) else s

def execLinkUp (u : PortUp) (s : State) : Step := .next (linkUp s u)

end Sys2Proof.Machine
end

