-- ==== Sys2Proof/Machine/Rack.lean ====
section
/-! DEFINITION. Racking: RACK, REPAIR_MAP_COMMIT and their ends, automatic racking, the check of a reserve sequencer
(16_faults_reserves.md R452 to R458; R24 to R26, R120 to R122, R210, R297, R298, R371, R372, R428, R344). -/

namespace Sys2Proof.Machine
open Sys2Proof

/-- Whether KIND, UNIT and ARG are in range, and UNIT is no reserve that waits (R297, R292, R371, R372). -/
def State.rackRange (s : State) (kind unit arg : Nat) : Bool :=
  match kind with
  | 1 => decide (unit < 544) && arg == 0 && (unit % 17 != 16 || s.observerLost (unit / 17))
  | 2 => decide (unit < 32) && arg == 0
  | 3 => decide (unit < 12) && arg == 0 && (unit % 3 != 2 || s.rep.acqRes.contains (unit / 3))
  | 4 => decide (unit < 8) && arg == 0
  | 5 => decide (unit < 128) && decide (arg ≤ 33)
  | 6 => decide (unit < 128) && decide (arg / 16777216 ≤ 63) && decide (arg % 16777216 ≤ 8191)
  | 7 => decide (unit < 4) && decide (arg < 4)
  | _ => false

/-- Whether a unit is retired or held out (R297, R458). -/
def State.gone (s : State) (kind unit arg : Nat) : Bool :=
  let k := (kind, unit, if 5 ≤ kind then arg else 0)
  s.rep.retired.contains k || s.rep.heldOut.contains k || ((kind == 1 || kind == 2) && s.sliceHeld (if kind == 1 then unit / 17 else unit))

/-- Entries of a kind on a unit in the working map. -/
def Repair.used (r : Repair) (kind unit : Nat) : Nat := (r.map.filter (fun e => e.kind == kind && e.unit == unit)).length

/-- Whether a reserve remains in the scope of R24, R122 (R297). -/
def State.reserveLeft (s : State) (kind unit arg : Nat) : Bool :=
  match kind with
  | 1 => !s.observerLost (unit / 17) && !s.rep.heldOut.contains (1, 17 * (unit / 17) + 16, 0)
  | 2 =>
    let q := unit / 8
    !s.rep.seqRes.any (fun p => p.1 / 8 == q) && !s.rep.heldOut.contains (2, 32 + q, 0) && !s.rep.seqWorn.testBit q
  | 3 => !s.rep.acqRes.contains (unit / 3) && !s.rep.heldOut.contains (3, 3 * (unit / 3) + 2, 0)
  | 4 => !s.rep.coreRes && !s.rep.heldOut.contains (4, 8, 0)
  | 5 => decide (s.rep.used 5 unit < 2)
  | 6 =>
    let key := 64 * (unit % 32) + arg / 16777216
    decide ((s.stack (unit / 32)).ppr.get 0 key < Config.rowRepairs (unit / 32) key)
  | _ => s.rep.used 7 unit == 0

/-- Whether the affected slice, engine, region or link is not idle (R26, R453, R371, R372, R428). -/
def State.rackBusy (s : State) (kind unit arg : Nat) : Bool :=
  match kind with
  | 1 => s.sliceActive (unit / 17)
  | 2 => s.sliceActive unit
  | 3 => (s.acq unit).armed
  | 4 => false
  | 5 => s.actives.any (fun b => s.holdsStack b (unit / 32))
  | 6 => s.isActive (s.dram.owner.get 0 (8192 * (unit / 32) + arg % 16777216 % 8192))
  | _ => !(s.batchesNaming (s.reachedBy (unit % 2))).isEmpty

/-- The unit now in service (R455). -/
def State.newUnit (s : State) (kind unit : Nat) : Nat :=
  match kind with
  | 1 => 17 * (unit / 17) + 16
  | 2 => 32 + unit / 8
  | 3 => 3 * (unit / 3) + 2
  | 4 => 8
  | 5 => s.rep.used 5 unit
  | 6 => 0
  | _ => 4

/-- The retired cell goes to the safe state for good, and the board's hook runs for its channel (R453). -/
def State.rackCell (s : State) (cell : Nat) (lch : Option Nat) : State :=
  let s := s.safeCells [cell]
  match lch, s.script 1023 with
  | some l, some x => s.startRun ⟨1023, 4, l, x.settle, [l], [], (99, 0), 0⟩
  | _, _ => s

/-- The reserve engine takes over configuration and owner (R210). -/
def State.rackAcq (s : State) (u r : Nat) : State :=
  let a : Acq := { Acq.zero with cfg := (s.acq u).cfg.map (fun (c : AcqCfg) => { c with acq := r }) }
  let s := { s with
    acqs := (s.acqs.del u).set Acq.zero r a
    acqOwner := (s.acqOwner.del u).set 0 r (s.acqOwner.get 0 u) }
  s.swapsAtDisarm

/-- The batch of a racked sequencer: unloaded where it holds no other slice (R121). -/
def State.rackSeq (s : State) (sl : Nat) : State :=
  let b := s.sliceOwner.get 0 sl
  if (s.slices b).length == 1 then s.onBatch b (fun x => { x with state := 0, prog := [], seq := Seq.zero }) else s

/-- The reserve comes into service (R25, R453). -/
def State.bringIn (s : State) (e : MapE) : State :=
  let lch := s.cellLch e.unit
  let s := s.addEntry e
  match e.kind with
  | 1 => s.rackCell e.unit lch
  | 2 => s.rackSeq e.unit
  | 3 => s.rackAcq e.unit e.newunit
  | 4 => { s with sched := { s.sched with draining := some e.unit } }
  | 5 => s.setStack (e.unit / 32) { s.stack (e.unit / 32) with pcTrain := addOnce (e.unit % 32) (s.stack (e.unit / 32)).pcTrain }
  | 6 =>
    let q := e.unit / 32
    let bank := 64 * (e.unit % 32) + e.arg / 16777216
    (s.setStack q { s.stack q with ppr := upd 0 (s.stack q).ppr bank (· + 1) }).rewriteRow q (16777216 * bank + e.arg % 16777216)
  | _ =>
    let p := e.unit % 2
    let x := s.port p
    s.setPort p { x with lanes := addOnce (e.unit / 2, e.arg) x.lanes, retrain := true, audited := false }

/-- A racking begins for a tap (64 for an automatic one). -/
def State.rackNow (s : State) (tap seq kind unit arg flags : Nat) : State :=
  let e : MapE := ⟨kind, flags, unit, s.newUnit kind unit, arg, s.tods⟩
  let s := s.bringIn e
  { s with rep := { s.rep with ops := s.rep.ops ++ [(tap, seq, 0x0006, e)] } }

/-- RACK (R297). -/
def cmdRack (h : Hdr) (kind unit arg : Nat) (s : State) : State :=
  s.runCmd h 0x0006 [] none fun s =>
    checked s
      [(!s.rackRange kind unit arg || s.gone kind unit arg, eRange), (!s.reserveLeft kind unit arg, eResource),
       (s.rackBusy kind unit arg, eBusy)]
      (Res.acc (s.rackNow h.tap h.seq kind unit arg 0))

def execRack (h : Hdr) (kind unit arg : Nat) (s : State) : Step := .next (cmdRack h kind unit arg s)

/-- Whether what a racking waits for has come: the job in service on a core (R453, R344), a lane's training (R371), the retrain of
a link (R428). -/
def State.rackReady (s : State) (e : MapE) : Bool :=
  match e.kind with
  | 4 => !s.sched.cores.any (fun p => p.1 == e.unit)
  | 5 => !(s.stack (e.unit / 32)).pcTrain.contains (e.unit % 32)
  | 7 => !(s.port (e.unit % 2)).retrain
  | _ => true

/-- A written generation's completion (R297, R298). -/
def rackFinish (s : State) (tap seq copies kind newunit : Nat) : State :=
  let s := s.writeMap copies
  let r := le 1 kind ++ le 1 (copies % 8) ++ le 2 newunit ++ le 4 s.rep.gen
  if tap == 64 then s
  else if copies % 8 == 7 then s.finish tap seq OK 0 r else s.finish tap seq eHw 4 r

/-- RACK_DONE: the copies of a mask have been written. -/
def rackDone (s : State) (copies t : Nat) : State :=
  match s.rep.ops with
  | (tap, seq, 0x0006, e) :: ops =>
    if !s.rackReady e then s
    else
      let s := { s.at_ t with rep := { s.rep with ops := ops } }
      let s := if e.kind == 4 then { s with sched := { s.sched with draining := none } } else s
      let s := rackFinish s tap seq copies e.kind e.newunit
      if tap == 64 then s else s.msi 0 3
  | _ => s

def execRackDone (copies t : Nat) (s : State) : Step := .next (rackDone s copies t)

/-! ## REPAIR_MAP_COMMIT (R298, R458) -/

/-- The map that SRC names, none for a copy that is not intact. -/
def Repair.source (r : Repair) (src : Nat) : Option (List MapE) :=
  if src == 0 then some r.map
  else match r.copies.getD (src - 1) .bad with
    | .ok _ m => some m
    | _ => none

/-- Units that another map places differently, by the batches they belong to. -/
def State.differs (s : State) (m : List MapE) : Bool :=
  let diff := (s.rep.map.filter (fun e => !m.contains e)) ++ (m.filter (fun e => !s.rep.map.contains e))
  diff.any (fun e => match e.kind with
    | 3 => s.isActive (s.acqOwner.get 0 e.unit) || s.isActive (s.acqOwner.get 0 e.newunit)
    | 4 => false
    | k => s.rackBusy k e.unit e.arg)

/-- REPAIR_MAP_COMMIT. -/
def cmdMapCommit (h : Hdr) (src : Nat) (s : State) : State :=
  s.runCmd h 0x0007 [] none fun s =>
    let m := s.rep.source src
    checked s
      [(decide (3 < src), eRange), (src != 0 && !s.rep.conflict, eState), (m.isNone, eRange),
       (m.any s.differs, eBusy)]
      (let m := m.getD []
       let r := s.rep.ofMap m
       Res.acc (State.mapPorts
         { s with rep := { r with heldOut := s.rep.heldOut, conflict := s.rep.conflict, ops := s.rep.ops ++ [(h.tap, h.seq, 0x0007, ⟨0, 0, 0, 0, 0, 0⟩)] } }))

def execRepairMapCommit (h : Hdr) (src : Nat) (s : State) : Step := .next (cmdMapCommit h src s)

/-- REPAIR_MAP_COMMIT_DONE: the held units are released, and MAP_CONFLICT clears. -/
def mapCommitDone (s : State) (copies t : Nat) : State :=
  match s.rep.ops with
  | (tap, seq, 0x0007, _) :: ops =>
    let s := { s.at_ t with rep := { s.rep with ops := ops, heldOut := [], conflict := false } }
    let s := s.setSrc 0x031 { s.src 0x031 with level := none }
    rackFinish s tap seq copies 0 0
  | _ => s

def execRepairMapCommitDone (copies t : Nat) (s : State) : Step := .next (mapCommitDone s copies t)

/-! ## Automatic racking and the reserve sequencer's check (R454, R122) -/

/-- KIND and UNIT of a source, for kinds 1 to 4. -/
def srcUnit (src : Nat) : Option (Nat × Nat) :=
  if within src 0x100 0x31F then some (1, src - 0x100)
  else if within src 0x340 0x35F then some (2, src - 0x340)
  else if within src 0x370 0x37B then some (3, src - 0x370)
  else if within src 0x608 0x60F then some (4, src - 0x608)
  else none

/-- The codes whose report can be a hard fault (R454). -/
def hardCode (code : Nat) : Bool := decide (baseCode code ∈ [0x0040, 0x0041, 0x0200, 0x0210, 0x0220, 0x0501])

/-- A hard fault (R454): still in the report state 10 ms after TFIRST, or latched again within 10 ms of a FAULT_CLEAR. -/
def Src.hard (x : Src) (t : Nat) : Bool :=
  let still := (x.broken && decide (t < x.brokenTo)) || (x.shows t && x.level.any (fun l => hardCode l.1))
  x.status && ((still && decide (x.tfirst + 10000 * us ≤ t)) ||
    (hardCode x.code && x.clearedAt != 0 && decide (x.tfirst ≤ x.clearedAt + 10000 * us)))

/-- AUTORACKED. The collector takes the report although the pair of the retired unit may still show its fault (DEDUCED, log 62). -/
def autoracked (s : State) (src t : Nat) : State :=
  match srcUnit src with
  | none => s
  | some (kind, unit) =>
    if !s.flt.autorack.testBit (kind - 1) || !(s.src src).hard t || !s.rackRange kind unit 0 || s.gone kind unit 0 ||
        !s.reserveLeft kind unit 0 || s.rackBusy kind unit 0 then s
    else
      let s := s.at_ t
      let gen := s.rep.gen + s.rep.ops.length + 1
      let new := s.newUnit kind unit
      let s := s.rackNow 64 0 kind unit 0 1
      (s.raiseNow src 0x0034 (new + gen * two32)).msi 0 3

def execAutoracked (src t : Nat) (s : State) : Step := .next (autoracked s src t)

/-- RESERVE_SEQ_CHECK (R122): only while the reserve is not racked. A later check that matches makes the reserve usable again
(DESIGN CHOICE, log 36). -/
def reserveCheck (s : State) (q : Nat) (ok : Bool) (t : Nat) : State :=
  if s.rep.seqRes.any (fun p => p.1 / 8 == q) then s
  else
    let s := s.at_ t
    if ok then { s with rep := { s.rep with seqWorn := clrBit s.rep.seqWorn q } }
    else ({ s with rep := { s.rep with seqWorn := setBit s.rep.seqWorn q } }).raiseFree (0x360 + q) 0x0211 false

def execReserveSeqCheck (q : Nat) (ok : Bool) (t : Nat) (s : State) : Step := .next (reserveCheck s q ok t)

end Sys2Proof.Machine
end

