-- ==== Sys2Proof/Machine/AcqRun.lean ====
section
/-! DEFINITION. Arming and configuring acquisition engines, writing records, level searches and MEAS_READ (07_measurement.md
R188 to R209; R316, R317); the reports of units and the SYNC_IN pulse, which can disarm engines. -/

namespace Sys2Proof.Machine
open Sys2Proof

/-! ## Disarming (R196, R206, R230, R329) -/

/-- The step of a flow's run. -/
def Flow.cur (f : Flow) : FStep := f.steps.getD f.step ⟨0, 0, 0, 0, 0, 0, 0, 0, false, false, 0, 0, 0, 0, 0⟩

/-- The engines of the ACQUIRE step in progress. -/
def Flow.acqs (f : Flow) : List Nat := if f.phase == 2 then ones f.cur.arg0 12 else []

/-- An ACQUIRE step ends when every engine of its mask has disarmed. -/
def State.acquireEnds (s : State) (b : Nat) : State :=
  let f := s.flow b
  if f.phase == 2 && f.acqs.all (fun n => !(s.acq n).armed) then s.stepEnds b else s

/-- What follows a disarm: a level search in progress ends, and what waited for the disarm comes. -/
def State.afterDisarm (s : State) (n : Nat) : State :=
  let a := s.acq n
  let s := s.setAcq n { a with ls := a.ls.map (fun l => { l with status := if l.status == 4 then 3 else l.status }) }
  (s.restoreSearches.swapsAtDisarm).acquireEnds (s.acqOwner.get 0 n)

/-- An armed engine disarmed. -/
def State.disarmAcq (s : State) (n : Nat) : State :=
  if (s.acq n).armed then (s.setAcq n (s.acq n).disarm).afterDisarm n else s

/-! ## ACQ_CONFIG (R188, R189, R199) -/

/-- A reserved bit of a field is set (R188). -/
def acqRsv (c : AcqCfg) : Bool :=
  decide (16 ≤ c.tsel) || decide (64 ≤ c.flags) || decide (281474976710656 ≤ c.recint) || decide (2048 ≤ c.measmask) ||
  (if c.flags.testBit 0 then decide (two32 ≤ c.holdoff) else decide (281474976710656 ≤ c.holdoff))

/-- A value outside its range (R189); TLIM2 is zero for types that do not use it (R529). -/
def acqBad (c : AcqCfg) : Bool :=
  let two := c.ttype == 1 || c.ttype == 2 || c.ttype == 5 || c.ttype == 6
  decide (6 < c.ttype) || bits c.tsel 2 1 == 3 || (c.ttype != 0 && c.tlim1 == 0) || (two && decide (c.tlim2 < c.tlim1)) ||
  (!two && c.tlim2 != 0) || decide (16 < c.avgk) || decide (4096 < c.evtmax) || c.ringslots == 0

/-- The record with what LIVE may change taken from another, and the flag itself left out. -/
def acqFixed (c : AcqCfg) : AcqCfg :=
  { c with srcA := 0, srcB := 0, measmask := 0, avgk := 0, flags := c.flags % 32 }

/-- Whether an armed engine refuses a record (R189). LIVE stands in the header's flags or in the record's (log 26). -/
def Acq.refuses (a : Acq) (live : Bool) (c : AcqCfg) : Bool :=
  a.armed && (!(live || c.flags.testBit 5) || a.cfg.map acqFixed != some (acqFixed c))

/-- The events of an engine after a change of source at grid time t (R199, R200): those of a source that is replaced belong to no later
record; one of source A that has qualified by then still is a trigger, one still undecided never is. -/
def retire (c : AcqCfg) (ma mb : Bool) (t : Nat) : List Event → List Event → List Event
  | _, [] => []
  | before, e :: es =>
    let f : Event := if e.srcB then (if mb then { e with old := true } else e)
      else if !ma || e.old then e
      else if e.judged then { e with old := true }
      else { e with old := true, judged := qualifies c before e es t != some true }
    f :: retire c ma mb t (e :: before) es

/-- A new record in force: an armed engine marks what R199 names, and its sources change. -/
def Acq.configure (a : Acq) (now : Nat) (c : AcqCfg) : Acq :=
  match a.cfg with
  | none => { a with cfg := some c }
  | some o =>
    if !a.armed then { a with cfg := some c, box := if o.avgk == c.avgk then a.box else [] }
    else
      let ma := o.srcA != c.srcA
      let mb := o.srcB != c.srcB
      let k := o.avgk != c.avgk
      let events := retire o ma mb (scale16 now) [] a.events
      let window := a.window.map (fun w => { w with keepOld := w.keepOld || ma || mb })
      let a := if ma || mb then a.mark now 1 0 else a
      let a := if k then { (a.mark now 3 (2 ^ c.avgk - 1)) with box := [] } else a
      let ls := a.ls.map (fun l => if ma && l.status == 4 then { l with status := 3 } else l)
      { a with cfg := some c, events := events, window := window, ls := ls }

/-- ACQ_CONFIG. -/
def cmdAcqConfig (h : Hdr) (c : AcqCfg) (s : State) : State :=
  s.runCmd { h with rsv := false } 0x010B [] none fun s =>
    let b := cmdBatch h
    let owned := fun (l : Nat) => decide (l < 512) && s.sliceOwner.get 0 (l / 16) == b
    let n := c.acq
    checked s
      [((s.acq n).refuses h.live c, eBusy), (h.rsv || acqRsv c, eReserved),
       (decide (11 < n) || s.acqOwner.get 0 n != b || !owned c.srcA || (c.srcB != 0xFFFF && !owned c.srcB), eOwner),
       (acqBad c, eRange),
       (decide (100000000000000000 < c.pre + c.post) || decide (c.recint < 100000000) || (c.measmask.testBit 8 && c.srcB == 0xFFFF), eRange),
       (c.ringaddr % 64 != 0, eAlign), (!s.inStack b (n / 3) c.ringaddr (c.ringslots * slotBytes c), eRange)]
      (Res.ok (s.setAcq n ((s.acq n).configure s.now c)).restoreSearches [] [])

def execAcqConfig (h : Hdr) (c : AcqCfg) (s : State) : Step := .next (cmdAcqConfig h c s)

/-! ## ACQ_ARM (R196, R204, R207, R316) -/

/-- The slices of the sources and the engine's distribution domain are powered (R207). -/
def State.acqPowered (s : State) (n : Nat) : Bool :=
  s.powered (35 + n / 3) && (s.acq n).slices.all (fun sl => s.powered (3 + sl))

/-- A level search before its first test (R205). -/
def State.newSearch (s : State) (b n : Nat) (p : AcqArmP) : LSearch :=
  let lch := ((s.acq n).cfg.map (fun (c : AcqCfg) => c.srcA)).getD 0
  let low := !p.level.testBit 0
  let get := fun (f : Batch → Tab Nat) => ((s.batch b).map (fun x => (f x).get 0 lch)).getD 0
  let v := ((s.batch b).map (fun x => Tab.get Lvl.zero x.lvls lch)).getD Lvl.zero
  let l : LSearch := ⟨4, 0, p.level, p.script, lch, p.codeLo, p.codeHi, p.codeLo, p.codeHi + 1, p.codeLo, false, false, none, none,
    v.voff, v.vstep, s.free, get (fun x => x.vth), get (fun x => x.vtl)⟩
  if low then { l with low := true, hi := p.codeHi, test := p.codeHi } else l

/-- An engine armed with everything of R196 cleared. -/
def State.armAcq (s : State) (b n nrec : Nat) (p : Option AcqArmP) : State :=
  let l := p.map (s.newSearch b n)
  let s := s.setAcq n { Acq.zero with cfg := (s.acq n).cfg, armed := true, nrec := nrec }
  match l with
  | some l => ({ s with free := s.free + 4 }).searchRun n l
  | none => s

/-- What ACQ_ARM checks (R316). -/
def State.armChecks (s : State) (b : Nat) (p : AcqArmP) : List (Bool × Nat) :=
  let a := s.acq p.acq
  let bus := (a.cfg.map (fun (c : AcqCfg) => c.srcA / 32)).getD 0
  [(decide (11 < p.acq) || s.acqOwner.get 0 p.acq != b, eOwner),
   (p.lsearch && (p.disarm || p.level == 0 || decide (p.codeHi < p.codeLo) || (s.script p.script).isNone), eRange),
   (!p.disarm && (a.cfg.isNone || !s.acqPowered p.acq), eState),
   (p.lsearch && s.busOwner.get 0 bus != b, eOwner),
   (!p.disarm && a.armed, eBusy)]

/-- ACQ_ARM. -/
def cmdAcqArm (h : Hdr) (p : AcqArmP) (s : State) : State :=
  s.runCmd h 0x010C [] none fun s =>
    let b := cmdBatch h
    checked s (s.armChecks b p)
      (Res.ok (if p.disarm then s.disarmAcq p.acq else s.armAcq b p.acq p.nrec (if p.lsearch then some p else none)) [] [])

def execAcqArm (h : Hdr) (p : AcqArmP) (s : State) : Step := .next (cmdAcqArm h p s)

/-! ## Level search (R204 to R206) -/

/-- Whether a comparator showed `want` at any time in a window: an event in it, or the level that it kept throughout (R204), which is a
free value where no transition has shown it yet. -/
def State.showed (s : State) (evs : List Event) (lch : Nat) (cml want : Bool) (lo hi : Nat) : Bool :=
  let l := evs.filter (fun e => !e.srcB && e.cml == cml)
  if l.any (fun e => decide (lo ≤ e.at16) && decide (e.at16 ≤ hi)) then true
  else
    let level := match (l.filter (fun e => decide (e.at16 < lo))).getLast?, l.find? (fun e => decide (hi < e.at16)) with
      | some e, _ => e.rise
      | none, some e => !e.rise
      | none, none => ((s.tdc (tdcKey (s.pcell lch) cml)).level).getD (Config.freeValue s.free % 2 == 1)
    level == want

/-- One test of the high level: the bounds, and the status with the code found when the search has ended. -/
def LSearch.stepHigh (l : LSearch) (reached : Bool) : LSearch × Option (Nat × Option Nat) :=
  if l.test == l.lo && !reached then (l, some (2, none))
  else
    let l := if reached then { l with lo := l.test } else { l with hi := l.test }
    if 1 < l.hi - l.lo then ({ l with test := (l.lo + l.hi) / 2 }, none)
    else (l, some (if l.lo == l.codeHi then 1 else 0, some l.lo))

/-- One test of the low level, the mirror image. -/
def LSearch.stepLow (l : LSearch) (reached : Bool) : LSearch × Option (Nat × Option Nat) :=
  if l.test == l.hi && !reached then (l, some (2, none))
  else
    let l := if reached then { l with hi := l.test } else { l with lo := l.test + 1 }
    if l.lo < l.hi then ({ l with test := (l.lo + l.hi) / 2 }, none)
    else (l, some (if l.hi == l.codeLo then 1 else 0, some l.hi))

/-- A level has ended: the low one comes next where it is still to find, else the thresholds are restored. -/
def LSearch.ended (l : LSearch) (st : Nat) (v : Option Int) : LSearch :=
  let l := { l with worst := max l.worst st }
  if l.low then { l with vlow := v, status := l.worst, levels := 0 }
  else if l.levels.testBit 1 then { l with vhigh := v, low := true, lo := l.codeLo, hi := l.codeHi, test := l.codeHi }
  else { l with vhigh := v, status := l.worst, levels := 0 }

/-- The next step of a search after a valid record (R205), over the events that stood before the record was written. -/
def State.searchStep (s : State) (n : Nat) (evs : List Event) (lo hi : Nat) : State :=
  let a := s.acq n
  match a.ls with
  | none => s
  | some l =>
    if l.status != 4 || l.running then s
    else
      let reached := if l.low then s.showed evs l.lch true false lo hi else s.showed evs l.lch false true lo hi
      let r := if l.low then l.stepLow reached else l.stepHigh reached
      match r.2 with
      | none => s.searchRun n r.1
      | some (st, code) => s.searchRun n (r.1.ended st (code.map (fun c => l.voff + c * l.vstep)))

/-! ## RECORD_WRITE (R192 to R196, R199, R201) -/

/-- The latest marking that covers a record. -/
def Acq.reason (a : Acq) (r : Nat) : Nat := ((a.marks.find? (fun m => decide (m.2.1 ≤ r) && decide (r ≤ m.2.2))).map Prod.fst).getD 0

/-- The bytes of a record (R193) over its events and samples. -/
def recordBytes (c : AcqCfg) (w : Window) (recno reason : Nat) (truncated : Bool) (evs : List Event) (ss : List Sample) (u : Nat) :
    List Byte :=
  let wrap := evs.any (fun e => wrapped e w.trig)
  let flags := b2n wrap + 2 * b2n w.trunc + 4 * b2n (w.merged || evs.any (fun e => e.merged)) + 8 * b2n truncated
  let stored := evs.take c.evtmax
  le 8 recno ++ timeBytes (trigTime w.trig) ++ le 8 (w.stamp % wrap47) ++ le 1 c.acq ++ le 1 c.ttype ++ le 1 reason ++ le 1 flags ++
    le 4 stored.length ++ le 4 (min evs.length (two32 - 1)) ++ List.replicate 20 0 ++ measBlock ss c.measmask u ++
    stored.flatMap (fun e => le 8 (e.word w.trig))

/-- A record stored in its slot; a slot outside the batch's regions is a MEM_BOUNDS fault (R240). -/
def State.storeRecord (s : State) (b addr len : Nat) (bs : List Byte) : State :=
  if s.inRegion b addr len then s.store addr bs else s.batchFault b 9

/-- Whether a record ended before a change of AVGK emptied the boxcar (R199, R201). -/
def Acq.beforeRestart (a : Acq) : Bool := a.marks.any (fun m => m.1 == 3 && decide (a.recno < m.2.1))

/-- The engine after a record: its number, counts and events; a written valid one enters the averages (R201). -/
def Acq.wrote (a : Acq) (c : AcqCfg) (scale : Int × Int) (addr : Nat) (lost : Bool) (reason : Nat) (ss : List Sample) : Acq :=
  let r := a.recno
  let early := a.beforeRestart
  let a := { a with
    recno := r + 1
    window := none
    events := keepEvents a.events
    marks := a.marks.filter (fun m => decide (r < m.2.2))
    recs := if lost then a.recs else a.recs ++ [⟨r, addr, slotBytes c⟩]
    quals := a.quals + 1
    records := a.records + b2n (!lost)
    lost := a.lost + b2n lost
    invalids := a.invalids + b2n (reason != 0) }
  if lost || reason != 0 || early then a
  else
    let a := a.fill c r ss
    a.addRes (a.results c scale false)

/-- The counters of one record (R191, R199, R490). -/
def State.countRecord (s : State) (n reason : Nat) (lost : Bool) : State :=
  let e := s.acqEv n
  let s := (s.count (if lost then 0x0303 else 0x0302) 1 e).count 0x0301 1 e
  if reason == 0 then s else s.count 0x0305 1 e

/-- What a record's end does to the engine: the last of NREC disarms it (R196). -/
def State.lastRecord (s : State) (n : Nat) : State :=
  let a := s.acq n
  if a.nrec != 0 && decide (a.nrec ≤ a.recno) then s.disarmAcq n else s

/-- RECORD_WRITE: the window has closed by t. A full ring loses the record, which keeps its number. -/
def recordWrite (s : State) (n t : Nat) : State :=
  let a := s.acq n
  match a.cfg, a.window with
  | some c, some w =>
    let lo := w.trig - 16 * c.pre
    let hi := w.trig + 16 * c.post
    if scale16 t < hi then s
    else
      let s := s.at_ t
      let b := s.acqOwner.get 0 n
      let evs := windowEvents a.events w lo hi
      let v := ((s.batch b).map (fun x => Tab.get Lvl.zero x.lvls c.srcA)).getD Lvl.zero
      let dv := ((v.vth : Int) - v.vtl) * v.vstep
      let m : Meas := ⟨evs.filter (fun e => !e.srcB), evs.filter (fun e => e.srcB), c, w.trig, dv⟩
      let ss := (List.range 11).map (m.slot (Config.freeValue (s.free + 11)))
      let reason := a.reason a.recno
      let truncated := a.marks.any (fun m => m.1 == 4 && decide (m.2.1 ≤ a.recno) && decide (a.recno ≤ m.2.2))
      let lost := decide (c.ringslots ≤ a.recs.length)
      let addr := n / 3 * stackSize + c.ringaddr + slotBytes c * (a.records % max 1 c.ringslots)
      let s2 := { s with free := s.free + 12 }
      let s3 := if lost then s2 else s2.storeRecord b addr (slotBytes c) (recordBytes c w a.recno reason truncated evs ss s.free)
      let s4 := (s3.setAcq n (a.wrote c (s.tb.scaleAt (hi / 16)) addr lost reason ss)).countRecord n reason lost
      let s5 := if !lost && (s4.flow b).acqs.contains n then s4.enqueue ⟨b, 0, 2, 515 + n, .acq n, none⟩ else s4
      (if lost || reason != 0 then s5 else s5.searchStep n a.events lo hi).lastRecord n
  | _, _ => s

def execRecordWrite (acq t : Nat) (s : State) : Step := .next (recordWrite s acq t)

/-! ## MEAS_READ (R202, R317) -/

/-- The SI value of a result (R60, R202): ρ in 2^-16 ppb, ε in 2^-38. -/
def AvgRes.si (r : AvgRes) : Int :=
  let one : Int := 65536 * 1000000000 * 274877906944
  let f := (65536 * 1000000000 + r.rcorr) * (274877906944 + r.gscale)
  let y := r.y
  match r.slot with
  | 4 | 7 => 0
  | 1 => rhe (y * f) (256 * one).toNat
  | 9 | 10 => rhe (y * f) one.toNat
  | _ => rhe (y * 15625 * one) (4096 * f).toNat

/-- A result of 32 bytes. -/
def AvgRes.bytes (r : AvgRes) : List Byte :=
  le 8 r.recno ++ le 1 r.slot ++ le 1 (b2n r.ovf + 2 * b2n r.merged + 4 * b2n r.trunc) ++ le 2 0 ++ le 4 r.nsamp ++
    le 8 (toField 64 r.y) ++ le 8 (toField 64 r.si)

/-- A voltage of µV in 2^-8 mV: where it is no whole number the manual states no rounding, and the free value chooses (log 18). -/
def milli (uv : Int) (u : Nat) : Int := if uv * 256 % 1000 = 0 then uv * 256 / 1000 else uv * 256 / 1000 + (u % 2 : Nat)

/-- A level that the search has not formed is a free value. -/
def level32 (v : Option Int) (u : Nat) : Nat :=
  match v with
  | some x => toField 32 (milli x u)
  | none => u % two32

/-- RESULT of MODE 2 (R206, R317). An engine that has made no search since it was armed gives free values. -/
def levelBytes (l : LSearch) : List Byte :=
  let f := fun (k : Nat) => Config.freeValue (l.u + k)
  let ampl := match l.vhigh, l.vlow with
    | some x, some y => some (x - y)
    | _, _ => none
  le 1 l.status ++ le 3 0 ++ le 4 (level32 l.vhigh (f 0)) ++ le 4 (level32 l.vlow (f 1)) ++ le 4 (level32 ampl (f 2)) ++
    le 4 (level32 (some (l.vstep : Int)) (f 3))

/-- MODE 0: records in the order of their numbers, their slots free at once (R194, R365, R240). -/
def State.readRecords (s : State) (b n k : Nat) : Res :=
  let a := s.acq n
  let rs := a.recs.take k
  let u := (s.setAcq n { a with recs := a.recs.drop k }).fetches .ring b 2 (rs.map (fun r => (r.addr, r.len)))
  Res.ok u [] (rs.flatMap (fun r => s.fetched b r.addr r.len))

/-- MODE 1: averaged results, oldest first. -/
def State.readResults (s : State) (n k : Nat) : Res :=
  let a := s.acq n
  Res.ok (s.setAcq n { a with res := a.res.drop k }) [] ((a.res.take k).flatMap AvgRes.bytes)

/-- MODE 2. -/
def State.readLevel (s : State) (n : Nat) : Res :=
  match (s.acq n).ls with
  | some l => Res.ok s (levelBytes l) []
  | none =>
    let f := fun (k : Nat) => Config.freeValue (s.free + k)
    Res.ok { s with free := s.free + 5 } (le 1 (f 0) ++ le 3 0 ++ le 4 (f 1) ++ le 4 (f 2) ++ le 4 (f 3) ++ le 4 (f 4)) []

/-- Whether the records that a MEAS_READ takes stand in a frozen stack, which serves no read: it ends with E_HW and no effect (DESIGN
CHOICE, log 61). -/
def State.recsFrozen (s : State) (n k : Nat) : Bool := ((s.acq n).recs.take k).any (fun r => (s.stack (aStack r.addr)).frozen)

/-- MEAS_READ. R317 lists no E_RANGE, so that of R529 and of MODE comes first. -/
def cmdMeasRead (h : Hdr) (acq mode maxrec : Nat) (data : DRef) (s : State) : State :=
  s.runCmd h 0x010D [(data, false)] (some data) fun s =>
    let b := cmdBatch h
    let need := match mode with
      | 0 => maxrec * (((s.acq acq).cfg.map slotBytes).getD 0)
      | _ => maxrec * 32
    checked s
      [(decide (2 < mode) || (if mode == 2 then maxrec != 0 || data.len != 0 else maxrec == 0), eRange),
       (decide (11 < acq) || s.acqOwner.get 0 acq != b, eOwner),
       (mode != 2 && decide (data.len < need), eLength),
       (mode == 0 && s.recsFrozen acq maxrec, eHw)]
      (match mode with
        | 0 => s.readRecords b acq maxrec
        | 1 => s.readResults acq maxrec
        | _ => s.readLevel acq)

def execMeasRead (h : Hdr) (acq mode maxrec : Nat) (data : DRef) (s : State) : Step := .next (cmdMeasRead h acq mode maxrec data s)

/-! ## SYNC_IN_PULSE -/

/-- SYNC_IN_PULSE (R390, R391): taking the armed epoch disarms every engine. -/
def syncInRow (s : State) (lead : Nat) (near : Bool) (t : Nat) : State :=
  let armed := s.tb.epochArmed.isSome
  let s := syncInPulse s lead near t
  if armed then (List.range 12).foldl State.disarmAcq s else s

def execSyncInPulse (lead : Nat) (near : Bool) (t : Nat) (s : State) : Step := .next (syncInRow s lead near t)

end Sys2Proof.Machine
end

