-- ==== Sys2Proof/Machine/Timing.lean ====
section
/-! DEFINITION. Timing sets, the period table and the period override as commands load them (05_timing_sets.md R123 to R127,
R143 to R150; 06_compare_and_fails.md R174 to R176; R306, R321, R530). -/

namespace Sys2Proof.Machine
open Sys2Proof

/-! ## MATCH_DELAY (R174 to R176) -/

/-- t_cons in ns of the largest scope: the late-condition scope of a batch in `quads` quadrants, or a cellar group of H hops (R174,
R175). -/
def tCons (quads : Nat) (cellar : Option Nat) : Nat :=
  match cellar with
  | some hops => 22 + 95 * hops
  | none => if quads ≤ 1 then 10 else 22

/-- L_match at π = 1 (R175); T_PE in ps. -/
def lMatch (tpe tcons : Nat) (p : Per) : Nat := cdiv ((tpe * 1000 + 6 * ns + (tcons + 8) * ns) * p.d) p.num

/-- Whether a program names a cellar match group (R173). -/
def cellarMatch (prog : List PInstr) : Bool :=
  prog.any (fun i => match i with
    | .mtch _ _ g => decide (128 ≤ g)
    | _ => false)

/-- The check of R176: MATCH_DELAY against L_match at the shortest loaded entry. H counts the hops among the devices that DMASK names, also where it
lacks this one (DESIGN CHOICE, log 70). -/
def State.delayOk (s : State) (b delay tpe dmask : Nat) (prog : List PInstr) (periods : List (Nat × Per)) : Bool :=
  match shortest (periods.map Prod.snd) with
  | none => true
  | some p => decide (lMatch tpe (tCons (s.quads b).length (if cellarMatch prog then some (hopsIn dmask) else none)) p ≤ delay)

/-- The same for what a batch holds, once SITE_DEFINE has succeeded; H from the members that the last START named. -/
def State.batchDelayOk (s : State) (b : Nat) (x : Batch) (periods : List (Nat × Per)) : Bool :=
  !x.site.defined || s.delayOk b x.site.matchDelay x.site.tpe x.dmask x.prog periods

/-! ## Images (R123 to R127) -/

/-- Bytes of an image for n slices. -/
def imageLen (n : Nat) : Nat := 16 + 768 * n

/-- The channel records of an image. -/
def imageRecs (img : List Byte) (n : Nat) : List ChanRec := (List.range (16 * n)).map (fun i => ChanRec.ofBytes img (16 + 48 * i))

/-- A reserved field of an image is non-zero. -/
def imageRsv (img : List Byte) (n : Nat) : Bool :=
  !zeros img 3 13 || (List.range (16 * n)).any (fun i => decide (8 ≤ fld img (16 + 48 * i) 1) || !zeros img (17 + 48 * i) 7)

/-- The rows of R127 below the state rows; `staged` lists the period entries that the same unit has staged (R147). -/
def imageChecks (x : Batch) (img : List Byte) (n : Nat) (staged : List (Nat × Per)) : List (Bool × Nat) :=
  let recs := imageRecs img n
  let idx := fld img 1 1
  let per := (assoc staged idx).or (assoc x.periods idx)
  [(imageRsv img n, eReserved),
   (decide (63 < idx) || fld img 2 1 != n || recs.any (fun r => !r.unusedOk), eRange),
   (per.isNone, eState),
   (per.any (fun p => !recsLegal recs p x.factors), eTiming)]

/-- VERSION after a load (R126). -/
def nextVersion (v : Nat) : Nat := if v == 0xFFFFFFFF then 1 else v + 1

/-- VERSION of a set, 0 for one never loaded. -/
def Batch.version (x : Batch) (set : Nat) : Nat :=
  match assoc x.sets set with
  | some t => t.version
  | none => 0

/-- New contents in the set store of every slice. -/
def Batch.storeSet (x : Batch) (img : List Byte) (n : Nat) : Batch :=
  let set := fld img 0 1
  { x with sets := put x.sets set ⟨nextVersion (x.version set), fld img 1 1, imageRecs img n, false⟩ }

/-- Whether a staged unit holds an item of a kind and index (R249). -/
def Batch.holdsItem (x : Batch) (kind index : Nat) : Bool := x.ep.staged && x.ep.items.any (fun i => i.kind == kind && i.index == index)

/-- Whether some cache holds a copy of a set with another VERSION than the current one (R127). -/
def Batch.oldCopy (x : Batch) (set : Nat) : Bool :=
  List.any x.caches (fun (p : Nat × List CacheE) => p.2.any (fun e => e.set == set && e.version != x.version set))

/-- TS_LOAD. -/
def cmdTsLoad (h : Hdr) (data : DRef) (s : State) : State :=
  let b := cmdBatch h
  s.runCmd h 0x0100 [(data, true)] none (fun s =>
    match s.batch b with
    | none => Res.err s eState
    | some x =>
      let img := s.dataIn h data
      let n := (s.slices b).length
      let set := fld img 0 1
      let x' := x.storeSet img n
      checked s
        ([(x.active && !h.live, eBusy), (h.live && x.oldCopy set, eBusy),
          (h.live && (assoc x.sets set).any (fun t => t.peridx != fld img 1 1), eBusy),
          (x.holdsItem 1 set, eBusy), (s.parkedSlice b, eState)] ++ imageChecks x img n [])
        (Res.ok (s.setBatch b x') (le 4 (x'.version set)) []))
    [fun s => data.len != imageLen (s.slices b).length]

def execTsLoad (h : Hdr) (data : DRef) (s : State) : Step := .next (cmdTsLoad h data s)

/-! ## TS_INVALIDATE (R143, R306, R530) -/

/-- Every cached copy of a set removed. -/
def Batch.dropCopies (x : Batch) (set : Nat) : Batch :=
  let cs := x.caches.map (fun (p : Nat × List CacheE) => (p.1, p.2.filter (fun e => e.set != set)))
  { x with caches := List.filter (fun (p : Nat × List CacheE) => !p.2.isEmpty) cs }

/-- Every cached copy of a set marked STALE. -/
def Batch.staleCopies (x : Batch) (set : Nat) : Batch :=
  let mark := fun (e : CacheE) => if e.set == set then { e with stale := true } else e
  { x with caches := x.caches.map (fun (p : Nat × List CacheE) => (p.1, p.2.map mark)) }

/-- Grid time from dispatch to the earliest vector that a STOP, an override or a marking may name (R110, R143, R150). -/
def boundaryLead : Nat := 440 * ns

/-- The lowest pace measured of the regions that a change of a running batch crosses: its slices, the quadrant fabrics and the Maltster
(R20, R531); 1 before the first window (log 27). -/
def State.changePace (s : State) (b : Nat) : Nat :=
  let l := ((s.slices b).map s.paceOf ++ ((s.quads b).map (fun q => s.paceOf (36 + q))) ++ [s.paceOf 40]).filter (fun v => v != 0)
  match l with
  | [] => 4096
  | v :: vs => vs.foldl min v

/-- The grid time from which a vector may bring a change of a running batch (R531): t_d + 440 ns. With a region below pace 1 the change can
come later: it reaches the slices a time after t_d that the manual does not state, at pace 1 no more than 380 ns, and acts on vectors not
handed over by then (log 45). -/
def State.changeFrom (s : State) (b : Nat) : Nat × State :=
  let p := s.changePace b
  if 4096 ≤ p then (s.now + boundaryLead, s)
  else
    let f := s.fresh
    (s.now + max boundaryLead (60 * ns + f.1 % (380 * ns + 1) * 4096 / p), f.2)

/-- TS_INVALIDATE. -/
def cmdTsInvalidate (h : Hdr) (set : Nat) (s : State) : State :=
  let b := cmdBatch h
  s.runCmd h 0x0101 [] none fun s =>
    match s.batch b with
    | none => Res.err s eState
    | some x =>
      if x.version set == 0 then Res.err s eRange
      else if x.active then
        let c := s.changeFrom b
        Res.wait_ (c.2.setBatch b { x with staleNext := x.staleNext ++ [(set, c.1)] }) (.vector set c.1 none)
      else Res.ok (s.setBatch b (x.dropCopies set)) (le 8 noVnum) []

def execTsInvalidate (h : Hdr) (set : Nat) (s : State) : Step := .next (cmdTsInvalidate h set s)

/-! ## PERIOD_LOAD (R148 to R150, R321, R529) -/

/-- The rechecks of a period table that would hold an entry (R54, R74 to R76, R176). -/
def State.periodChecks (s : State) (b : Nat) (x : Batch) (index : Nat) (p : Per) : List (Bool × Nat) :=
  let ps := put x.periods index p
  [(x.sets.any (fun q => q.2.peridx == index && !q.2.legal ps x.factors), eTiming),
   (!(PerView.of ps x.written x.sets x.segs x.prog).lensOk || !s.batchDelayOk b x ps, eLatency)]

/-- The checks of R149 on a written override. -/
def State.overrideChecks (s : State) (b : Nat) (x : Batch) (o : Ovr) : List (Bool × Nat) :=
  let w := PerView.of x.periods (some o) x.sets x.segs x.prog
  [(!o.per.legal, eRange), (!w.lensOk, eLatency), (!s.shares b w x.weight, eBandwidth)]

/-- The override written or removed, and V_o (R150). -/
def setOverride (s : State) (b : Nat) (x : Batch) (o : Option Ovr) : Res :=
  if x.active then
    let c := s.changeFrom b
    Res.wait_ (c.2.setBatch b { x with ovrNext := x.ovrNext ++ [(c.1, o)] }) (.override c.1 none)
  else Res.ok (s.setBatch b { x with ovr := o, vo := none }) (le 8 noVnum) []

/-- PERIOD_LOAD. FLAGS[0] OVERRIDE, FLAGS[1] REMOVE. -/
def cmdPeriodLoad (h : Hdr) (index flags : Nat) (p : Per) (s : State) : State :=
  let b := cmdBatch h
  s.runCmd h 0x0116 [] none fun s =>
    match s.batch b with
    | none => Res.err s eState
    | some x =>
      let ov := bit flags 0
      let rm := bit flags 1
      let bad := (decide (63 < index) && !(ov && index == 0xFF)) || (rm && !ov) || (rm && (p.i != 0 || p.n != 0 || p.d != 0))
      if bad then Res.err s eRange
      else if rm then setOverride s b x none
      else if ov then checked s (s.overrideChecks b x ⟨p, index⟩) (setOverride s b x (some ⟨p, index⟩))
      else
        checked s
          ([(x.active || x.holdsItem 2 index, eBusy), (!p.legal, eRange)] ++ s.periodChecks b x index p)
          (Res.ok (s.setBatch b { x with periods := put x.periods index p }) [] [])

def execPeriodLoad (h : Hdr) (index flags : Nat) (p : Per) (s : State) : Step := .next (cmdPeriodLoad h index flags p s)

end Sys2Proof.Machine
end

