-- ==== Sys2Proof/Machine/Segments.lean ====
section
/-! DEFINITION. The program, the segments, the sparge streams and the sites of a batch as commands load them (03_vector_data.md
R65 to R76, R80, R85; 04_sequencer.md R107; 06_compare_and_fails.md R155, R156; R307 to R309, R318). -/

namespace Sys2Proof.Machine
open Sys2Proof

/-! ## PAT_LOAD (R107, R307) -/

/-- The instructions of a program's bytes, none in place of an opcode that R90 does not list. -/
def progWords (bs : List Byte) : List Nat := (List.range (bs.length / 8)).map (fun i => fld bs (8 * i) 8)

/-- An operand outside its legal values (R90), or a SCRIPT not loaded. -/
def State.badOperand (s : State) (x : Batch) (i : PInstr) : Bool :=
  match i with
  | .vec g c => c == 0 || (c != 1 && (assoc x.segs g).any (fun d => d.sparge))
  | .rpt c | .loop c => c == 0
  | .mtch _ t _ => t == 0
  | .trig o => o == 0
  | .peact _ n => (assoc s.scripts n).isNone
  | _ => false

/-- TARGET of an instruction lies beyond the program. -/
def pastEnd (n : Nat) (i : PInstr) : Bool :=
  match i with
  | .jmp _ t | .call _ t => decide (n ≤ t)
  | _ => false

/-- Outputs of a mask that batch b does not own. -/
def State.foreignOutputs (s : State) (b outs : Nat) : Bool := (ones outs 8).any (fun o => s.trigOutOwner.get 0 o != b)

/-- The key of a code map: slice and map number (R66). -/
def cmapKey (sl m : Nat) : Nat := 256 * sl + m

/-- The code map of a slice; one that no PAT_LOAD has written holds zeros (log 3). -/
def Batch.cmap (x : Batch) (sl m : Nat) : List Byte :=
  let c := Tab.get [] x.cmaps (cmapKey sl m)
  if c.isEmpty then List.replicate 32 0 else c

/-- The view of the batch with another program (R75, R118). -/
def Batch.viewOf (x : Batch) (prog : List PInstr) : PerView := PerView.of x.periods x.written x.sets x.segs prog

/-- The rows of R107 for a decoded program. -/
def State.progChecks (s : State) (b : Nat) (x : Batch) (ws : List Nat) (maps : List (List Byte)) : List (Bool × Nat) :=
  let prog := ws.filterMap PInstr.ofWord
  let chains := chainsFrom prog 0 []
  let nodes := match chains with
    | some c => reach prog c vecSeen 0
    | none => []
  let ch := chains.getD []
  [(x.active, eBusy), (x.state == 5 || s.parkedSlice b, eState),
   (ws.isEmpty || decide (16384 < ws.length), eRange),
   (ws.any PInstr.reserved || maps.any (fun m => !zeros m 2 6), eReserved),
   (prog.length != ws.length || prog.any badCode || chains.isNone || breaks prog ch nodes || maps.any (fun m => badNibbles (m.drop 8)),
     eEncoding),
   (prog.any (fun i => s.badOperand x i || pastEnd prog.length i) || tooDeep prog ch nodes, eRange),
   (prog.any (fun i => match i with
      | .trig o => s.foreignOutputs b o
      | _ => false) || maps.any (fun m => s.sliceOwner.get 0 (fld m 0 1) != b || decide (31 < fld m 0 1)), eOwner),
   (let w := x.viewOf prog; !w.loopsOk ch || !w.lensOk, eLatency)]

/-- The program in the store of every slice, the named maps replaced, the batch LOADED. -/
def Batch.loadProg (x : Batch) (ws : List Nat) (maps : List (List Byte)) : Batch :=
  { x with
    state := 1
    prog := ws.filterMap PInstr.ofWord
    cmaps := maps.foldl (fun t m => t.set [] (cmapKey (fld m 0 1) (fld m 1 1)) (m.drop 8)) x.cmaps }

/-- PAT_LOAD. -/
def cmdPatLoad (h : Hdr) (prog cmaps : DRef) (s : State) : State :=
  let b := cmdBatch h
  s.runCmd h 0x0102 [(prog, true), (cmaps, true)] none (fun s =>
    match s.batch b with
    | none => Res.err s eState
    | some x =>
      let ws := progWords (s.dataIn h prog)
      let maps := pieces 40 (cmaps.len / 40) (s.dataIn h cmaps)
      checked s (s.progChecks b x ws maps) (Res.ok (s.setBatch b (x.loadProg ws maps)) [] []))
    [fun _ => prog.len % 8 != 0, fun _ => cmaps.len % 40 != 0]

def execPatLoad (h : Hdr) (prog cmaps : DRef) (s : State) : Step := .next (cmdPatLoad h prog cmaps s)

/-! ## SEG_MAP (R70 to R76, R308) -/

/-- A per-slice record of SEG_MAP (R308): SL, CMAP, ADDR, SRCADDR, whether its reserved bytes are zero. -/
structure SegRec where
  sl : Nat
  cmap : Nat
  addr : Nat
  src : Nat
  rsv : Bool

def SegRec.ofBytes (m : List Byte) : SegRec := ⟨fld m 0 1, fld m 1 1, fld m 8 8, fld m 16 8, !zeros m 2 6⟩

/-- The descriptor of a payload and its records (R71). -/
def segOf (p : SegMapP) (rs : List SegRec) : Seg :=
  ⟨p.mode.testBit 0, p.mode.testBit 1, bits p.mode 3 2, p.mode.testBit 4, p.mode.testBit 5, p.peridx, p.trig, p.length, p.ringgran,
    rs.map (fun r => ⟨r.sl, r.cmap, r.addr⟩)⟩

/-- The 32 bytes of a segment's descriptor in the table of a slice (R71). -/
def Seg.descriptor (g : Seg) (id : Nat) (p : SegSl) : List Byte :=
  le 2 id ++ le 1 (b2n g.loopStore + 2 * b2n g.full + 4 * g.mlog + 16 * b2n g.tssel + 32 * b2n g.sparge) ++ le 1 p.cmap ++
    le 1 g.peridx ++ le 1 g.trig ++ le 2 0 ++ le 8 p.addr ++ le 5 g.length ++ le 3 0 ++ le 4 g.ringgran ++ le 4 0

/-- Descriptor `id` of a slice's table (R70), which only its own slice reads; none where no segment is mapped. The granule of the table
is no part of the DRAM that a host sees (DESIGN CHOICE, log 57). -/
def State.descriptor (s : State) (sl id : Nat) : Option (List Byte) :=
  (s.batch (s.sliceOwner.get 0 sl)).bind fun x => (assoc x.segs id).bind fun g =>
    (g.sls.find? (fun p => p.sl == sl)).map (g.descriptor id)

/-- Vectors of a segment's granules hold a code from 11 to 15 (R64); `a` is a BAR2 offset. -/
def State.badData (s : State) (g : Seg) (a : Nat) : Bool :=
  (List.range (cdiv g.length g.gran)).any (fun i => badNibbles (s.peek (a + i * g.gbytes) (min g.gran (g.length - i * g.gran) * g.vbytes)))

/-- BAR2 offset of a byte of the stack that serves a slice (R350, R352). -/
def stackAddr (sl a : Nat) : Nat := sl / 8 * stackSize + a

/-- The checks of R73 in its order. -/
def State.segChecks (s : State) (b : Nat) (x : Batch) (p : SegMapP) (rs : List SegRec) : List (Bool × Nat) :=
  let g := segOf p rs
  let w := PerView.of x.periods x.written x.sets (put x.segs p.segid g) x.prog
  [(decide (64 ≤ p.mode) || rs.any (fun r => r.rsv), eReserved),
   ((g.loopStore && g.sparge) || (g.full && rs.any (fun r => r.cmap != 0)) || (!g.tssel && p.peridx != 0) || decide (63 < p.peridx) ||
     (!g.sparge && p.ringgran != 0) || (g.sparge && p.ringgran == 0) || (!g.loopStore && rs.any (fun r => r.src != 0)), eRange),
   (s.foreignOutputs b p.trig, eOwner),
   (rs.any (fun r => if g.loopStore then r.addr % 8 != 0 || r.src % 64 != 0 else r.addr % 64 != 0), eAlign),
   (rs.any (fun r => if g.loopStore then decide (16384 < r.addr + g.bytes) || !s.inStack b (r.sl / 8) r.src g.bytes
      else !s.inStack b (r.sl / 8) r.addr g.bytes), eRange),
   (!w.lenOk p.segid g, eLatency),
   (if g.full then !g.sparge && rs.any (fun r => s.badData g (stackAddr r.sl (if g.loopStore then r.src else r.addr)))
     else rs.any (fun r => badNibbles (x.cmap r.sl r.cmap)), eEncoding)]

/-- Bytes written into loop stores, by 16,384 × SL + offset (R76). -/
def loopWrite (m : Tab Byte) (sl off : Nat) (bs : List Byte) : Tab Byte :=
  (bs.mapIdx (fun i v => (i, v))).foldl (fun m p => m.set 0 (16384 * sl + off + p.1) p.2) m

/-- The segment mapped on every slice, loop-store data copied byte for byte; a copy source that reads poisoned raises the batch
fault of R365, one outside the regions that of R240. -/
def State.mapSeg (s : State) (b : Nat) (x : Batch) (p : SegMapP) (rs : List SegRec) : State :=
  let g := segOf p rs
  let s := s.setBatch b { x with segs := put x.segs p.segid g }
  if !g.loopStore then s
  else rs.foldl (fun s r =>
    let f := s.fetch (.play b x.vh) b 0 (stackAddr r.sl r.src) g.bytes
    match f.2 with
    | some bs => f.1.onBatch b (fun y => { y with loops := loopWrite y.loops r.sl r.addr bs })
    | none => f.1) s

/-- SEG_MAP. Reserved bits of MODE belong to the payload's reserved fields (R290). A copy from a frozen stack, which serves no read, ends
with E_HW (DESIGN CHOICE, log 61). -/
def cmdSegMap (h : Hdr) (p : SegMapP) (s : State) : State :=
  let b := cmdBatch h
  s.runCmd { h with rsv := h.rsv || decide (64 ≤ p.mode) } 0x0103 [(p.data, true)] none fun s =>
    match s.batch b with
    | none => Res.err s eState
    | some x =>
      let rs := (pieces 24 (p.data.len / 24) (s.dataIn h p.data)).map SegRec.ofBytes
      checked s
        ([(x.active || x.holdsItem 3 p.segid, eBusy), (p.mode.testBit 0 && s.parkedSlice b, eState),
          (p.data.len != 24 * (s.slices b).length || !(s.slices b).all (fun sl => rs.any (fun r => r.sl == sl)), eRange)] ++
          s.segChecks b x p rs ++
          [((segOf p rs).loopStore && rs.any (fun r => (s.stack (r.sl / 8)).frozen), eHw)])
        (Res.ok (s.mapSeg b x p rs) [] [])

def execSegMap (h : Hdr) (p : SegMapP) (s : State) : Step := .next (cmdSegMap h p s)

/-! ## STREAM_OPEN (R80, R85, R318) -/

/-- The 64 bytes of a control block (R80). -/
def Stream.block (t : Stream) : List Byte :=
  le 8 t.fill ++ le 8 t.play ++ le 8 t.release ++ le 8 t.idle ++ le 4 (b2n t.underrun + 2 * b2n t.fillErr + 4 * b2n t.done) ++ le 28 0

/-- BAR2 offset of a control block: its address in the stack of the batch's lowest slice. -/
def State.cbOffset (s : State) (b : Nat) (t : Stream) : Nat := stackAddr (s.lowSlice b) t.cbaddr

/-- A stream's counts and STATUS stored, and shown in its control block. -/
def State.setStream (s : State) (b seg : Nat) (t : Stream) : State :=
  (s.onBatch b (fun x => { x with streams := put x.streams seg t })).storeFor b (s.cbOffset b t) t.block

/-- Actions that a keep-alive vector may not hold (R85). -/
def State.keepBad (bs : List Byte) : Bool := bs.any (fun b => compares (b.toNat % 16) || compares (b.toNat / 16))

/-- STREAM_OPEN. The block holds one keep-alive vector per slice; another LEN gives E_LENGTH (log 20). TSNUM of a segment without TSSEL has no
effect: no check names it (DESIGN CHOICE, log 42). -/
def cmdStreamOpen (h : Hdr) (segid tsnum cbaddr : Nat) (data : DRef) (s : State) : State :=
  let b := cmdBatch h
  s.runCmd h 0x010F [(data, true)] none fun s =>
    match s.batch b with
    | none => Res.err s eState
    | some x =>
      let g := assoc x.segs segid
      let n := (s.slices b).length
      let kb := (g.map (fun g => 8 * g.m)).getD 8
      let bs := s.dataIn h data
      let keep := (s.slices b).zip (pieces kb n bs)
      let t : Stream := ⟨cbaddr, keep, tsnum, 0, 0, 0, 0, false, false, false, 0, false, []⟩
      let fresh := (x.streams.filter (fun p => p.1 != segid))
      checked s
        [(x.active, eBusy), (!(g.any (fun g => g.sparge)), eRange),
         (data.len != kb * n, eLength),
         (cbaddr % 64 != 0, eAlign), (!s.inStack b (s.lowSlice b / 8) cbaddr 64, eRange),
         (State.keepBad bs || badNibbles bs, eEncoding)]
        (Res.ok ((s.setBatch b { x with streams := fresh }).setStream b segid t) (le 8 (s.cbOffset b t)) [])

def execStreamOpen (h : Hdr) (segid tsnum cbaddr : Nat) (data : DRef) (s : State) : Step :=
  .next (cmdStreamOpen h segid tsnum cbaddr data s)

/-! ## SITE_DEFINE (R155, R156, R309) -/

/-- The parts of a site block: channel map, site entries as (SITE, FAILOFF_EN, SLIMIT, reserved non-zero), rings by quadrant. -/
structure SiteBlock where
  nch : Nat
  nsite : Nat
  map : List Nat
  ents : List (Nat × Nat × Nat × Bool)
  quads : List (List Byte)
  rsv : Bool

/-- Bytes of the channel map with its padding. -/
def mapBytes (nch : Nat) : Nat := (2 * nch + 7) / 8 * 8

/-- LEN of a site block (R309). -/
def siteLen (nch nsite : Nat) : Nat := 8 + mapBytes nch + 8 * nsite + 128

def SiteBlock.ofBytes (bs : List Byte) : SiteBlock :=
  let nch := fld bs 0 2
  let nsite := fld bs 2 2
  let e0 := 8 + mapBytes nch
  let q0 := e0 + 8 * nsite
  let ents := (List.range nsite).map (fun i =>
    let o := e0 + 8 * i
    (fld bs o 2, fld bs (o + 2) 1, fld bs (o + 4) 4, decide (2 ≤ fld bs (o + 2) 1) || !zeros bs (o + 3) 1))
  let quads := pieces 32 4 (bs.drop q0)
  ⟨nch, nsite, (List.range nch).map (fun i => fld bs (8 + 2 * i) 2), ents, quads,
    !zeros bs 4 4 || !zeros bs (8 + 2 * nch) (mapBytes nch - 2 * nch) || ents.any (fun e => e.2.2.2) || quads.any (fun q => !zeros q 20 12)⟩

/-- The ring of a quadrant entry. -/
def ringOf (q : List Byte) : QRing := ⟨fld q 0 8, fld q 8 8, fld q 16 4, 0, 0⟩

/-- What SITE_DEFINE sets: a site that the map names without an entry has no limit and no fail-off. The counts of R162 and the
captures in the rings stay as they are until START. -/
def siteCfg (old : SiteCfg) (p : SiteDefP) (k : SiteBlock) : SiteCfg :=
  let ent := fun (i : Nat) => (k.ents.find? (fun e => e.1 == i)).getD (i, 0, 0, false)
  let site := fun (i : Nat) => { old.sites.get Site.zero i with slimit := (ent i).2.2.1, failoffEn := (ent i).2.1 == 1 }
  let ids := k.map.filter (fun i => decide (i < 512))
  let ring := fun (q : Nat × List Byte) => { ringOf q.2 with captured := (old.rings.get QRing.zero q.1).captured, logged := (old.rings.get QRing.zero q.1).logged }
  { defined := true, siteOf := k.map, blimit := p.blimit, fmcap := p.fmcap, matchDelay := p.matchDelay, tpe := p.tpe
    sites := ids.foldl (fun t i => t.set Site.zero i (site i)) []
    rings := (k.quads.mapIdx (fun i q => (i, q))).foldl (fun t q => t.set QRing.zero q.1 (ring q)) []
    pend := [] }

/-- The checks of R309 in its order. A batch whose site-mask entry a staged unit holds gives E_BUSY. -/
def State.siteChecks (s : State) (b : Nat) (x : Batch) (p : SiteDefP) (k : SiteBlock) : List (Bool × Nat) :=
  let mine := s.quads b
  let ring := fun (i : Nat) => ringOf (k.quads.getD i [])
  [(x.active || (x.ep.staged && x.ep.items.any (fun i => i.kind == 4)), eBusy),
   (k.rsv, eReserved),
   (k.nch != (s.channels b).length || k.map.any (fun v => decide (511 < v) && v != 0x200) || decide (512 < k.nsite) ||
     !decide ((k.ents.map Prod.fst).Nodup) || k.ents.any (fun e => !(k.map.contains e.1) || e.1 == 0x200) || p.fmcap == 0 ||
     decide (67108864 < p.fmcap) || p.matchDelay == 0 || decide (1000000 < p.tpe) ||
     (List.range 4).any (fun i => !(mine.contains i) && !zeros (k.quads.getD i []) 0 32), eRange),
   (mine.any (fun i => (ring i).fmaddr % 64 != 0 || (ring i).capaddr % 64 != 0), eAlign),
   (mine.any (fun i => !s.inStack b i (ring i).fmaddr (p.fmcap * 32) || !s.inStack b i (ring i).capaddr ((ring i).capslots * 32)), eRange),
   (!s.delayOk b p.matchDelay p.tpe x.dmask x.prog x.periods, eLatency)]

/-- SITE_DEFINE. The header is read first, for the LEN that it gives (R309). -/
def cmdSiteDefine (h : Hdr) (p : SiteDefP) (s : State) : State :=
  let b := cmdBatch h
  s.runCmd h 0x0104 [(p.data, true)] none (fun s =>
    match s.batch b with
    | none => Res.err s eState
    | some x =>
      let k := SiteBlock.ofBytes (s.dataIn h p.data)
      checked s (s.siteChecks b x p k) (Res.ok (s.setBatch b { x with site := siteCfg x.site p k, masks := [] }) [] []))
    [fun s => let bs := s.dataIn h p.data; decide (p.data.len < 8) || p.data.len != siteLen (fld bs 0 2) (fld bs 2 2)]

def execSiteDefine (h : Hdr) (p : SiteDefP) (s : State) : Step := .next (cmdSiteDefine h p s)

end Sys2Proof.Machine
end

