-- ==== Sys2Proof/Machine/Flags.lean ====
section
/-! DEFINITION. The conditions of a sequencer (04_sequencer.md R91 to R93), sites and masks (06_compare_and_fails.md R154, R155,
R165; R322), and the counts of R170 with every computation on them. -/

namespace Sys2Proof.Machine
open Sys2Proof

/-! ## Sites and masks (R155, R322) -/

/-- The mask of the defined sites, which SITE_DEFINE puts into every entry. -/
def SiteCfg.allMask (c : SiteCfg) : Nat := ((List.range 512).filter (fun i => c.siteOf.contains i)).foldl (fun m i => m + 2 ^ i) 0

/-- An entry of the site-mask table. -/
def Batch.mask (x : Batch) (e : Nat) : Nat := (assoc x.masks e).getD x.site.allMask

/-- Whether a site has failed by vector s; key 0x200 stands for channels of no site. -/
def Site.failedBy (t : Site) (s : Nat) : Bool :=
  match t.firstV with
  | some v => decide (v ≤ s)
  | none => false

/-! ## Conditions (R91 to R93) -/

/-- The kinds of condition that depend on comparator answers (R92). -/
def lateCond (c : Nat) : Bool := c == 0x30 || c == 0x38 || c == 0x39 || c == 0x3A

/-- An immediate condition (R92). -/
def Seq.holds (q : Seq) (c : Nat) : Bool :=
  match c with
  | 0x01 => match q.loops.head? with
    | some l => l.left == l.count
    | none => false
  | 0x02 => match q.loops.head? with
    | some l => l.left == 1
    | none => false
  | 0x20 => q.matchOk
  | 0x21 => q.matchTo
  | _ => if 0x10 ≤ c && c ≤ 0x1F then q.flags.testBit (c - 0x10) else c == 0

/-- A late condition on the fail and site state through vector s, none for the empty state of a negative s (R93); `entry` is the
site-mask entry in force at the effect boundary. -/
def Batch.lateHolds (x : Batch) (c entry : Nat) (s : Option Nat) : Bool :=
  let failed := fun i => match s with
    | some v => (x.site.site i).failedBy v
    | none => false
  let en := (List.range 512).filter (fun i => x.site.siteOf.contains i && (x.mask entry).testBit i)
  match c with
  | 0x30 => match s with
    | some v => List.any x.site.sites (fun (p : Nat × Site) => p.2.failedBy v)
    | none => false
  | 0x38 => en.any failed
  | 0x39 => en.all failed
  | _ => match s with
    | some v => List.any x.site.sites (fun (p : Nat × Site) => p.2.off.any (fun o => decide (o.2 ≤ v)))
    | none => false

/-- Whether every strobe of the vectors before v has begun and is judged, and every record placed. -/
def Batch.decidedTo (x : Batch) (v : Nat) : Bool :=
  decide (v ≤ x.seq.begun) && x.awaiting.all (fun g => g.strobes.isEmpty || decide (v ≤ g.vnum)) && x.forming.all (fun r => decide (v ≤ r.vnum))

/-- Whether an instruction with a condition acts (R91), given what its condition is. -/
def condActs (c : Cond) (v : Bool) : Bool := v != c.inv

/-! ## The counts of R170

The counts stand whole in State; a reader takes them mod 2^48 (log 46). -/

/-- The outcome of one scheduled strobe or window that forms no fail: passed, disagreed or masked. -/
def Counts.passed (c : Counts) : Counts := { c with sched := c.sched + 1, compared := c.compared + 1, pass := c.pass + 1 }
def Counts.disagreed (c : Counts) : Counts := { c with sched := c.sched + 1, disagree := c.disagree + 1 }
def Counts.maskedOne (c : Counts) : Counts := { c with sched := c.sched + 1, masked := c.masked + 1 }

/-- n fails of one record that is logged: held (R166, R167). -/
def Counts.logs (c : Counts) (n : Nat) : Counts :=
  { c with
    sched := c.sched + n, compared := c.compared + n, fail := c.fail + n, logged := c.logged + n, held := c.held + n
    recFormed := c.recFormed + 1, recLogged := c.recLogged + 1, recHeld := c.recHeld + 1 }

/-- n fails of one record that is unlogged, with its reason: 0 FAILOFF, 1 OVER_LIMIT, 2 FULL (R166). -/
def Counts.unlogs (c : Counts) (n reason : Nat) : Counts :=
  { c with
    sched := c.sched + n, compared := c.compared + n, fail := c.fail + n, unlogged := c.unlogged + n
    uFailoff := c.uFailoff + (if reason == 0 then n else 0)
    uLimit := c.uLimit + (if reason == 0 then 0 else if reason == 1 then n else 0)
    uFull := c.uFull + (if reason == 0 then 0 else if reason == 1 then 0 else n)
    recFormed := c.recFormed + 1, recUnlogged := c.recUnlogged + 1 }

/-- n fails of one held record that a flow's fail-off reclassifies as FAILOFF (R165, R333). -/
def Counts.unhold (c : Counts) (n : Nat) : Counts :=
  { c with
    logged := c.logged - n, held := c.held - n, unlogged := c.unlogged + n, uFailoff := c.uFailoff + n
    recLogged := c.recLogged - 1, recHeld := c.recHeld - 1, recUnlogged := c.recUnlogged + 1 }

/-- n fails of one record unlogged as over limit (1) or full (2) that it reclassifies. -/
def Counts.rereason (c : Counts) (reason n : Nat) : Counts :=
  { c with
    uFailoff := c.uFailoff + n
    uLimit := if reason == 1 then c.uLimit - n else c.uLimit
    uFull := if reason == 1 then c.uFull else c.uFull - n }

/-- n fails of one held record that FAIL_READ delivers or purges; a record that is not held changes nothing. -/
def Counts.takes (c : Counts) (n : Nat) (purge : Bool) : Counts :=
  if c.held < n || c.recHeld < 1 then c
  else if purge then
    { c with held := c.held - n, purged := c.purged + n, recHeld := c.recHeld - 1, recPurged := c.recPurged + 1 }
  else
    { c with held := c.held - n, delivered := c.delivered + n, recHeld := c.recHeld - 1, recDelivered := c.recDelivered + 1 }

/-- The identities of R170, for channel-strobes and for records. -/
def Counts.balanced (c : Counts) : Bool :=
  c.sched == c.compared + c.disagree + c.masked && c.compared == c.pass + c.fail && c.fail == c.logged + c.unlogged &&
  c.unlogged == c.uFailoff + c.uLimit + c.uFull && c.logged == c.delivered + c.held + c.purged &&
  c.recFormed == c.recLogged + c.recUnlogged && c.recLogged == c.recDelivered + c.recHeld + c.recPurged

/-- One strobe of a channel tallied for the batch and the channel. -/
def Batch.tally (x : Batch) (lch : Nat) (f : Counts → Counts) : Batch :=
  { x with counts := f x.counts, chCounts := upd Counts.zero x.chCounts lch f }

/-- The failing channels of a record. -/
def FailRec.lchs (r : FailRec) : List Nat := (ones r.mask 16).map (fun c => 16 * r.sl + c)

/-- A record tallied: the batch by its number of fails, each failing channel by one. -/
def Batch.tallyRec (x : Batch) (r : FailRec) (f : Nat → Counts → Counts) : Batch :=
  { x with
    counts := f r.lchs.length x.counts
    chCounts := r.lchs.foldl (fun t l => upd Counts.zero t l (f 1)) x.chCounts }

/-- The records of a site with VNUM above s that were logged or unlogged before a flow ordered its fail-off: each is unlogged with the
reason FAILOFF, and its slot is free (R165, R333). A record delivered before stays delivered (DESIGN CHOICE, log 50). -/
def Batch.reclassify (x : Batch) (site s : Nat) : Batch :=
  let hit := fun (r : FailRec) => r.site == site && decide (s < r.vnum)
  let y := (x.held.filter (fun h => hit h.1)).foldl (fun (y : Batch) h => y.tallyRec h.1 (fun n c => c.unhold n)) x
  let y := (x.unl.filter (fun u => hit u.1)).foldl (fun (y : Batch) u => y.tallyRec u.1 (fun n c => c.rereason u.2 n)) y
  { y with held := x.held.filter (fun h => !hit h.1), unl := x.unl.filter (fun u => !hit u.1) }

/-- Whether no strobe of a group waits to be judged and it lies before `lim`. -/
def Group.flushable (g : Group) (lim : Option Nat) : Bool := g.strobes.isEmpty && lim.all (fun v => decide (g.vnum < v))

/-- Masked strobes of such groups tallied, outside a MATCH block, and the groups gone (R154). -/
def Batch.flushMasked (x : Batch) (lim : Option Nat) : Batch :=
  let y := (x.awaiting.filter (fun g => g.flushable lim && g.rep == 0)).foldl
    (fun y g => g.masked.foldl (fun y c => y.tally (16 * g.sl + c) Counts.maskedOne) y) x
  { y with awaiting := x.awaiting.filter (fun g => !g.flushable lim) }

end Sys2Proof.Machine
end

