-- ==== Sys2Proof/Machine/Stage.lean ====
section
/-! DEFINITION. Staging an epoch commit and applying a unit's items (09_batches.md R248, R249, R252; 05_timing_sets.md R147; R319,
R322). -/

namespace Sys2Proof.Machine
open Sys2Proof

/-! ## Items (R248) -/

/-- The SEG_MAP payload and records of an item of kind 3 (R305, R308). -/
def segItem (bs : List Byte) : SegMapP × List SegRec :=
  (⟨fld bs 0 2, fld bs 2 1, fld bs 3 1, fld bs 4 1, fld bs 8 5, fld bs 16 4, ⟨0, 0, false, false⟩⟩,
    (pieces 24 ((bs.length - 40) / 24) (bs.drop 40)).map SegRec.ofBytes)

/-- The index under which an item replaces an earlier one: its set, period entry, segment or mask entry. -/
def itemIndex (kind index : Nat) (bs : List Byte) : Nat :=
  match kind with
  | 1 => fld bs 0 1
  | 3 => fld bs 0 2
  | _ => index

/-- The period entries that a unit holds staged. -/
def Batch.stagedPers (x : Batch) : List (Nat × Per) :=
  (x.ep.items.filter (fun i => i.kind == 2)).map (fun i => (i.index, Per.ofBytes i.data 0))

/-- The checks of one item at STAGE; a record or mask entry of another length gives E_LENGTH (log 20). -/
def State.itemChecks (s : State) (b : Nat) (x : Batch) (p : StageP) (bs : List Byte) : List (Bool × Nat) :=
  let n := (s.slices b).length
  match p.kind with
  | 1 => imageChecks x bs n x.stagedPers
  | 2 => [(bs.length != 12, eLength), (!zeros bs 9 3, eReserved), (!(Per.ofBytes bs 0).legal, eRange)]
  | 3 =>
    let i := segItem bs
    [(decide (bs.length < 40), eLength), (!zeros bs 5 3 || !zeros bs 13 3 || !zeros bs 20 4 || decide (2 ≤ fld bs 36 1) || !zeros bs 37 3, eReserved),
     (bs.length != 40 + 24 * n || !(s.slices b).all (fun sl => i.2.any (fun r => r.sl == sl)), eRange)] ++ s.segChecks b x i.1 i.2
  | _ => [(bs.length != 64, eLength), ((unle bs) &&& x.site.allMask != unle bs, eRange)]

/-! ## STAGE (R249, R319) -/

/-- Fields of STAGE out of their ranges (R249, R529). -/
def stageBad (p : StageP) : Bool :=
  (p.discard && p.fin) || ((p.discard || p.fin) && (p.kind != 0 || p.index != 0)) ||
  (!p.discard && !p.fin && (p.kind == 0 || decide (4 < p.kind) || (p.kind == 2 && decide (63 < p.index)) ||
    (p.kind == 4 && decide (255 < p.index)) || ((p.kind == 1 || p.kind == 3) && p.index != 0)))

/-- Whether GROUP or EPOCH differ from the items held, or EPOCH is not past the current one. -/
def Batch.otherUnit (x : Batch) (p : StageP) : Bool :=
  ((x.ep.staged || !x.ep.items.isEmpty) && (x.ep.group != p.group || x.ep.epoch != p.epoch)) || decide (p.epoch ≤ x.ep.cur)

/-- An item placed, replacing an earlier one of the same kind and index. -/
def Batch.stageItem (x : Batch) (p : StageP) (bs : List Byte) : Batch :=
  let i : Staged := ⟨p.kind, itemIndex p.kind p.index bs, bs⟩
  { x with ep := { x.ep with
      items := x.ep.items.filter (fun j => !(j.kind == i.kind && j.index == i.index)) ++ [i], group := p.group, epoch := p.epoch } }

/-- The tables that a unit's items leave, without their loop-store copies and cached copies; with n = 0 slices the sets have no channel
records, which no period and no mask reads. -/
def Batch.withItems (x : Batch) (n : Nat) : Batch :=
  let of_ : Nat → List Staged := fun k => x.ep.items.filter (fun i => i.kind == k)
  let pers := (of_ 2).foldl (fun m (i : Staged) => put m i.index (Per.ofBytes i.data 0)) x.periods
  let x := (of_ 1).foldl (fun (x : Batch) (i : Staged) => x.storeSet i.data n) { x with periods := pers }
  let segs := (of_ 3).foldl (fun m (i : Staged) => put m i.index (segOf (segItem i.data).1 (segItem i.data).2)) x.segs
  { x with segs := segs, masks := (of_ 4).foldl (fun m (i : Staged) => put m i.index (unle i.data)) x.masks }

/-- The checks of FINAL on all items together: R54, R74 and R75, R87, R176. -/
def State.finalChecks (s : State) (b : Nat) (x : Batch) : List (Bool × Nat) :=
  let y := x.withItems (s.slices b).length
  let held := fun (k i : Nat) => x.ep.items.any (fun j => j.kind == k && j.index == i)
  let w := y.view
  [(y.sets.any (fun q => (held 1 q.1 || held 2 q.2.peridx) && !q.2.legal y.periods x.factors), eTiming),
   (!w.lensOk, eLatency), (!s.shares b w x.weight, eBandwidth), (!s.batchDelayOk b x y.periods, eLatency)]

/-- The unit is staged; the final completion follows its commit. -/
def Batch.stageFinal (x : Batch) (p : StageP) (key : Nat × Nat) (now : Nat) : Batch :=
  { x with ep := { x.ep with staged := true, fin := some key, finAt := now, group := p.group, epoch := p.epoch } }

/-- The staging buffer emptied, the unit not staged. -/
def Batch.unstage (x : Batch) : Batch := { x with ep := { x.ep with items := [], staged := false, fin := none } }

/-- STAGE. -/
def cmdStage (h : Hdr) (p : StageP) (s : State) : State :=
  let b := cmdBatch h
  s.runCmd h 0x0111 [(p.data, true)] none (fun s =>
    match s.batch b with
    | none => Res.err s eState
    | some x =>
      let bs := s.dataIn h p.data
      if p.discard then
        checked s [(stageBad p || x.otherUnit p, eRange), (x.ep.fin.isSome, eState)] (Res.ok (s.setBatch b x.unstage) (le 2 0) [])
      else if p.fin then
        checked s
          ([(stageBad p || x.otherUnit p, eRange), (x.ep.staged, eState), (decide (16 ≤ (s.tap h.tap).asyncs.length), eResource)] ++ s.finalChecks b x)
          (Res.acc (s.setBatch b (x.stageFinal p (h.tap, h.seq) s.now)))
      else
        let y := x.stageItem p bs
        checked s
          ([(stageBad p || x.otherUnit p, eRange), (x.ep.staged, eState), (decide (256 < y.ep.items.length), eResource)] ++ s.itemChecks b x p bs)
          (Res.ok (s.setBatch b y) (le 2 y.ep.items.length) []))
    [fun s => p.kind == 1 && !p.fin && !p.discard && p.data.len != imageLen (s.slices b).length]

def execStage (h : Hdr) (p : StageP) (s : State) : Step := .next (cmdStage h p s)

/-! ## Applying a unit's items (R147, R252) -/

/-- Every cached copy of a set takes the stored contents and VERSION and loses STALE. -/
def Batch.refreshCopies (x : Batch) (chans : List Nat) (set : Nat) : Batch :=
  match assoc x.sets set with
  | none => x
  | some t =>
    let cr := fun (l : Nat) => (chans.idxOf? l).bind (fun i => t.recs[i]?)
    let one := fun (l : Nat) (e : CacheE) =>
      if e.set == set then { e with version := t.version, stale := false, cr := (cr l).getD e.cr } else e
    { x with caches := x.caches.map (fun (p : Nat × List CacheE) => (p.1, p.2.map (one p.1))) }

/-- The items of Bb in the kind order 2, 1, 3, 4. -/
def State.applyItems (s : State) (b : Nat) : State :=
  match s.batch b with
  | none => s
  | some x =>
    let n := (s.slices b).length
    let of_ : Nat → List Staged := fun k => x.ep.items.filter (fun i => i.kind == k)
    let pers := (of_ 2).foldl (fun m (i : Staged) => put m i.index (Per.ofBytes i.data 0)) x.periods
    let x := (of_ 1).foldl (fun (x : Batch) (i : Staged) => (x.storeSet i.data n).refreshCopies (s.channels b) i.index)
      { x with periods := pers }
    let s := (of_ 3).foldl (fun (s : State) (i : Staged) => match s.batch b with
      | some x => s.mapSeg b x (segItem i.data).1 (segItem i.data).2
      | none => s) (s.setBatch b x)
    let masks := fun (x : Batch) => (of_ 4).foldl (fun m (i : Staged) => put m i.index (unle i.data)) x.masks
    s.onBatch b (fun x => { x with masks := masks x })

/-- RESULT of the FINAL of a unit and of COMMIT (R319). -/
def commitResult (epoch reason lateB : Nat) (applied lateDev : Nat) : List Byte :=
  le 4 epoch ++ le 1 reason ++ le 1 0 ++ le 2 lateB ++ le 8 applied ++ le 8 lateDev

/-- A unit's commit has applied at its boundary: epoch, APPLIED_VNUM, outcome, and an empty buffer (R252, R254). -/
def Batch.committed (x : Batch) (v : Nat) : Batch :=
  { x with
    undo := none
    ep := { x.ep with
      cur := x.ep.epoch, items := [], staged := false, lastGroup := x.ep.group, lastEpoch := x.ep.epoch, outcome := 1, applied := v, thr := none, due := false } }

/-- The tables without the items of a commit whose vector has not begun; sets that a TS_LOAD has changed since keep that change. -/
def Batch.reverted (x : Batch) : Batch :=
  match x.undo with
  | none => x
  | some u =>
    let mine := (x.ep.items.filter (fun i => i.kind == 1)).map (fun i => i.index)
    let sets := mine.foldl (fun m i => match assoc u.sets i with
      | some t => put m i t
      | none => m.filter (fun p => p.1 != i)) x.sets
    let one := fun (l : Nat) (e : CacheE) => if mine.contains e.set then (Tab.get [] u.caches l).find? (fun o => o.set == e.set) else some e
    let cs := x.caches.map (fun (p : Nat × List CacheE) => (p.1, p.2.filterMap (one p.1)))
    { x with
      periods := u.periods, sets := sets, caches := List.filter (fun (p : Nat × List CacheE) => !p.2.isEmpty) cs, segs := u.segs, loops := u.loops,
      masks := u.masks, undo := none, ep := { x.ep with due := false } }

/-- The unit of Bb applies its items, for APPLIED_VNUM v. -/
def State.applyUnit (s : State) (b v : Nat) : State := (s.applyItems b).onBatch b (fun x => x.committed v)

/-- Whether the boundary v is that of a commit whose items are in the tables. -/
def Batch.finalDue (x : Batch) (v : Nat) : Bool := x.ep.due && x.undo.any (fun u => u.v == v)

/-- The COMMIT that Bb has issued for its present epoch completes as its FINAL does (R319). -/
def State.commitOk (s : State) (b : Nat) (e : Epoch) : State :=
  let mine := fun (c : CommitS) => c.by_ == b && c.state == 1 && c.group == e.lastGroup && c.epoch == e.lastEpoch
  let s1 := { s with commits := s.commits.filter (fun c => !mine c) }
  (s.commits.filter mine).foldl (fun s c => match c.key with
    | some k => s.finish k.1 k.2 OK 0 (commitResult e.cur 0 0 e.applied 0)
    | none => s) s1

/-- The FINAL of Bb completes with OK and APPLIED_VNUM, and the COMMIT where Bb has issued it. -/
def State.finalOk (s : State) (b : Nat) : State :=
  match s.batch b with
  | none => s
  | some x =>
    let s := s.onBatch b (fun x => { x with ep := { x.ep with fin := none } })
    let s := match x.ep.fin with
      | some k => s.finish k.1 k.2 OK 0 (commitResult x.ep.cur 0 0 x.ep.applied 0)
      | none => s
    s.commitOk b x.ep

end Sys2Proof.Machine
end

