-- ==== Sys2Proof/Machine/Front.lean ====
section
/-! DEFINITION. Where the vectors of the output buffer start: periods of runs, changes that come into force among them, and the starts of
vectors still to play (02_time_arithmetic.md R38, R42; 04_sequencer.md R94 to R97; 05_timing_sets.md R148 to R150). -/

namespace Sys2Proof.Machine
open Sys2Proof

/-- The period entry that a period source names: an entry itself, or the own entry of the set that a TSET put in force at its effect
boundary (R94, R95). -/
def Batch.perOf (x : Batch) (p : Nat) : Nat :=
  if p < 256 then p
  else match (x.seq.acts.filter (fun a => a.1 == p - 256 && (a.2.1 == 5 || a.2.1 == 6))).getLast? with
    | some a => if a.2.1 == 6 then a.2.2 else ((assoc x.sets a.2.2).map (fun t => t.peridx)).getD 0
    | none => 0

/-- A period source settled: later changes of the set leave it alone. -/
def Batch.pin (x : Batch) (p : Nat) : Batch :=
  if p < 256 then x else { x with seq := { x.seq with acts := x.seq.acts ++ [(p - 256, 6, x.perOf p)] } }

/-- The period entry at which a run plays: PERIDX of its segment under TSSEL (R68, R96), as it stands now also for a repeat and for the
keep-alive vectors that come before the segment's first vector (DESIGN CHOICE, log 43). -/
def Batch.runEntry (x : Batch) (r : Run) : Nat :=
  match assoc x.segs r.seg with
  | some g => if g.tssel then g.peridx else x.perOf r.per
  | none => x.perOf r.per

/-- Vectors of a segment's play. -/
def Batch.segLen (x : Batch) (seg : Nat) : Nat :=
  match assoc x.segs seg with
  | some g => max 1 g.length
  | none => 1

/-- The accumulator after n vectors of a period (R38), with the conversion before the first (R42). -/
def Acc.play (a : Acc) (p : Per) (n : Nat) : Acc :=
  if n == 0 then a
  else
    let a := (a.convert p.d).1
    let t := a.n + n * p.n
    ⟨a.fs + n * p.i + t / p.d, t % p.d, p.d⟩

/-- The least number of vectors of a period after which a start lies at or after a target (R97); all times exact. -/
def repeatsTo (a t : Acc) (p : Per) : Nat := cdiv ((t.over a.d - a.over t.d) * p.d) (a.d * t.d * p.num)

/-- A change that comes into force at a grid time: a written override, or the staged items of a commit (R150, R252). -/
structure Change where
  at_ : Nat
  ovr : Option (Option Ovr)

/-- Changes by rising time. -/
def sortChange (c : Change) : List Change → List Change
  | [] => [c]
  | d :: ds => if c.at_ < d.at_ then c :: d :: ds else d :: sortChange c ds

/-- The changes that a batch has before it. -/
def Batch.changes (x : Batch) : List Change :=
  (x.ovrNext.map (fun p => (⟨p.1, some p.2⟩ : Change)) ++ x.ep.thr.toList.map (fun t => (⟨t, none⟩ : Change))).foldl
    (fun l c => sortChange c l) []

/-- A batch with one change in force. -/
def Batch.change (x : Batch) (c : Change) : Batch :=
  match c.ovr with
  | some o => { x with ovr := o }
  | none => x.withItems 0

/-- Vectors of a period that play before a change: those that start before its grid time. -/
def vectorsTo (a : Acc) (t : Nat) (p : Per) : Nat :=
  if a.atOrAfter t then 0 else max 1 (repeatsTo (a.convert p.d).1 (Acc.start t 1) p)

/-- The end of a run, the batch's tables there, and the changes still to come. -/
def walkRun : List Change → Batch → Acc → Run → Acc × Batch × List Change
  | [], x, a, r => (match effPer x.periods x.ovr (x.runEntry r) with
      | some p => a.play p r.left
      | none => a, x.pin r.per, [])
  | c :: cs, x, a, r =>
    match effPer x.periods x.ovr (x.runEntry r) with
    | none => (a, x, c :: cs)
    | some p =>
      let k := vectorsTo a c.at_ p
      if r.left ≤ k then (a.play p r.left, x.pin r.per, c :: cs)
      else walkRun cs ((if k == 0 then x else x.pin r.per).change c) (a.play p k) { r with left := r.left - k }

/-- The least number of vectors of a run from a start on after which a vector starts at or after a target, through the changes that come
into force among them (R98, R106). -/
def repeatsIn (t : Acc) : List Change → Batch → Acc → Run → Nat
  | [], x, a, r => match effPer x.periods x.ovr (x.runEntry r) with
    | some p => repeatsTo (a.convert p.d).1 t p
    | none => 0
  | c :: cs, x, a, r =>
    match effPer x.periods x.ovr (x.runEntry r) with
    | none => 0
    | some p =>
      let k := vectorsTo a c.at_ p
      let m := repeatsTo (a.convert p.d).1 t p
      if k == 0 then repeatsIn t cs (x.change c) a r
      else if m ≤ k then m
      else k + repeatsIn t cs ((x.pin r.per).change c) (a.play p k) r

/-- The end of some runs of the buffer, and the batch's tables there. -/
def Batch.walk (x : Batch) (rs : List Run) : Acc × Batch × List Change :=
  rs.foldl (fun e r => walkRun e.2.2 e.2.1 e.1 r) (x.seq.hAcc, x, x.changes)

/-- The end of the vectors emitted, and the batch's tables at that boundary, its own changes included. -/
def Batch.front (x : Batch) : Acc × Batch :=
  let e := x.walk x.seq.buf
  (e.1, (e.2.2.filter (fun c => e.1.atOrAfter c.at_)).foldl Batch.change e.2.1)

/-- Vectors of a list of runs. -/
def runsLen (rs : List Run) : Nat := (rs.map (fun r => r.left)).sum

/-- The first n vectors of some runs. -/
def takeRuns : Nat → List Run → List Run
  | _, [] => []
  | n, r :: rs => if r.left ≤ n then r :: takeRuns (n - r.left) rs else [{ r with left := n }]

/-- The run that holds vector n of some runs. -/
def runAt : Nat → List Run → Option Run
  | _, [] => none
  | n, r :: rs => if n < r.left then some r else runAt (n - r.left) rs

/-- The program address where the sequencers stand: with more vectors to come than the output buffer of 2,048 holds, at the instruction whose
vectors are still being written (R10). -/
def Batch.address (x : Batch) : Nat :=
  match runAt 2048 x.seq.buf with
  | some r => r.addr
  | none => x.seq.pc

/-- The start of the first vector at or after a grid time among those of a run and the one after it, where there is one. -/
def startIn (t : Nat) : List Change → Batch → Acc → Run → Option Nat
  | [], x, a, r =>
    (effPer x.periods x.ovr (x.runEntry r)).bind (fun p =>
      let m := vectorsTo a t p
      if m ≤ r.left then some (a.play p m).fs else none)
  | c :: cs, x, a, r =>
    match effPer x.periods x.ovr (x.runEntry r) with
    | none => none
    | some p =>
      let k := vectorsTo a c.at_ p
      let m := vectorsTo a t p
      if m ≤ min k r.left then some (a.play p m).fs
      else if r.left ≤ k then none
      else startIn t cs ((if k == 0 then x else x.pin r.per).change c) (a.play p k) { r with left := r.left - k }

/-- The same among the buffered vectors. -/
def Batch.startAmong (t : Nat) : List Run → Acc × Batch × List Change → Option Nat
  | [], _ => none
  | r :: rs, e => (startIn t e.2.2 e.2.1 e.1 r).or (Batch.startAmong t rs (walkRun e.2.2 e.2.1 e.1 r))

/-- The start of the first vector not begun at or after a grid time, where the sequencers have fixed it. -/
def Batch.firstStart (x : Batch) (t : Nat) : Option Nat :=
  match x.seq.flight.find? (fun h => h.acc.atOrAfter t) with
  | some h => some h.acc.fs
  | none => if x.seq.hAcc.atOrAfter t then some x.seq.hAcc.fs else Batch.startAmong t x.seq.buf (x.seq.hAcc, x, x.changes)

/-- The start of vector v, where the sequencers have fixed it. -/
def Batch.startOf (x : Batch) (v : Nat) : Option Nat :=
  match x.seq.flight.find? (fun h => h.vnum == v) with
  | some h => some h.acc.fs
  | none => if v < x.seq.hNext || x.seq.emitted < v then none else some (x.walk (takeRuns (v - x.seq.hNext) x.seq.buf)).1.fs

end Sys2Proof.Machine
end

