-- ==== Sys2Proof/Machine/Report.lean ====
section
/-! DEFINITION. What a host reads of a batch: STATUS, SNAPSHOT and FAIL_READ (06_compare_and_fails.md R159, R167, R171;
05_timing_sets.md R146; 18_counters_latency.md R496; R313 to R315). -/

namespace Sys2Proof.Machine
open Sys2Proof

/-! ## Layouts -/

/-- The 32 bytes of a fail record (R159). -/
def FailRec.bytes (r : FailRec) : List Byte :=
  le 8 r.vnum ++ le 2 r.addr ++ le 4 r.iter ++ le 1 r.k ++ le 1 r.sl ++ le 2 r.mask ++ le 4 r.expect ++ le 4 r.actual ++ le 2 r.site ++
    le 2 r.flags ++ le 2 0

/-- The span of a 48-bit count. -/
def two48 : Nat := 281474976710656

/-- A site's 48 bytes (R313): SITE_RECS has 32 bits and SITE_FAILS 48 (R162, log 46). -/
def siteBytes (x : Batch) (i : Nat) : List Byte :=
  let t := x.site.site i
  le 2 i ++ le 2 0 ++ le 4 (t.recs % two32) ++ le 8 (t.fails % two48) ++ t.first.getD (le 32 0)

/-- The site entries, ascending. -/
def sitesBytes (x : Batch) : List Byte :=
  ((List.range 512).filter (fun i => x.site.siteOf.contains i)).flatMap (siteBytes x)

/-- The counts of R170 in their order there, then the six record counts, as 64-bit words (R314) of 48-bit counts
(R170). -/
def Counts.bytes (c : Counts) : List Byte :=
  [c.sched, c.compared, c.disagree, c.masked, c.pass, c.fail, c.logged, c.unlogged, c.uFailoff, c.uLimit, c.uFull, c.delivered, c.held,
    c.purged, c.recFormed, c.recLogged, c.recUnlogged, c.recDelivered, c.recHeld, c.recPurged].flatMap (fun v => le 8 (v % two48))

/-- One cache entry (R146). -/
def CacheE.bytes (inForce : Nat) (e : CacheE) : List Byte :=
  le 1 e.set ++ le 1 (1 + 2 * b2n e.stale + 4 * b2n (e.set == inForce)) ++ le 2 0 ++ le 4 e.version

/-- Section 2: 256 VERSION values, then 16 cache entries for each channel, the most recently selected first and the empty ones last; the
manual names no order (DESIGN CHOICE, log 48). IN_FORCE marks the set that the vector of the boundary selects on the channel's slice. -/
def State.cacheSection (s : State) (b : Nat) (x : Batch) (sets : List (Nat × Nat)) : List Byte :=
  (List.range 256).flatMap (fun i => le 4 (x.version i)) ++
  (s.channels b).flatMap (fun l =>
    let es := (Tab.get [] x.caches l).take 16
    es.flatMap (CacheE.bytes ((assoc sets (l / 16)).getD 0)) ++ le (8 * (16 - es.length)) 0)

/-- Section 3: residue and override. An override not yet in force waits with V_o all ones. -/
def Batch.residueSection (x : Batch) : List Byte :=
  let o := x.written
  let v := if x.ovrNext.isEmpty then x.vo.getD noVnum else noVnum
  le 4 (toField 32 x.reserr) ++ le 1 (b2n x.reserrSat) ++ le 3 0 ++
    (match o with
      | some r => r.per.bytes ++ le 1 r.idx ++ le 1 1
      | none => le 14 0) ++ le 2 0 ++ le 8 (if o.isSome then v else noVnum)

/-- A section behind its header (R314). -/
def section_ (n : Nat) (body : List Byte) : List Byte := le 1 n ++ le 3 0 ++ le 4 body.length ++ body

/-! ## STATUS (R313) -/

/-- The VNUM of STATUS: the first vector not yet begun, or the stop boundary. -/
def Batch.vnumNow (x : Batch) : Nat := if x.state == 4 || x.state == 5 then x.stopV else x.seq.begun

/-- Uncleared batch faults of Bb. -/
def State.nfault (s : State) (b : Nat) : Nat :=
  (List.filter (fun (p : Nat × Src) => p.2.status && decide (0x700 + 16 * (b - 1) ≤ p.1) && decide (p.1 < 0x700 + 16 * b)) s.flt.srcs).length

/-- RESULT of STATUS. -/
def State.statusResult (s : State) (b : Nat) (x : Batch) : List Byte :=
  le 1 x.state ++ le 1 x.reason ++ le 1 x.stopCause ++ le 1 x.ep.outcome ++ le 2 x.seq.flags ++ le 2 0 ++ le 8 x.vnumNow ++
    le 4 x.ep.cur ++ le 1 x.ep.lastGroup ++ le 3 0 ++ le 4 x.ep.lastEpoch ++ le 2 (s.nfault b) ++ le 2 0 ++ le 8 x.ep.applied ++ le 8 x.ep.lateDev

/-- The data block of STATUS. -/
def statusData (x : Batch) : List Byte :=
  (List.range 64).flatMap (fun d => le 2 ((assoc x.ep.lateB d).getD 0)) ++ sitesBytes x

/-- STATUS; a block too short gives E_LENGTH (log 20). -/
def cmdStatus (h : Hdr) (data : DRef) (s : State) : State :=
  let b := cmdBatch h
  s.runCmd h 0x0108 [(data, false)] (some data) fun s =>
    match s.batch b with
    | none => Res.err s eState
    | some x =>
      let d := if data.len == 0 then [] else statusData x
      checked s [(decide (data.len < d.length), eLength)] (Res.ok s (s.statusResult b x) d)

def execStatus (h : Hdr) (data : DRef) (s : State) : Step := .next (cmdStatus h data s)

/-! ## SNAPSHOT (R171, R314, R496) -/

/-- The sections 2 and 3 that a SNAPSHOT selects, with the counters it names, at the instant of its boundary; t is its grid time and `sets`
the timing set in force on each slice there. -/
def State.freeze (s : State) (b : Nat) (x : Batch) (p : SnapP) (t : Nat) (sets : List (Nat × Nat)) : Frozen :=
  ⟨t, (ones p.cmask 256).map (fun k => (k, s.ctr k)),
    (if p.sect.testBit 2 then section_ 2 (s.cacheSection b x sets) else []) ++ (if p.sect.testBit 3 then section_ 3 x.residueSection else [])⟩

/-- Sources whose events the judgement of a vector makes: the capture takes them when every vector before the boundary is judged
(R490, R496). -/
def judgedSource (src : Nat) : Bool := decide (0x0200 ≤ src) && decide (src ≤ 0x0203)

/-- The bytes of a SNAPSHOT. -/
def State.snapBytes (s : State) (b : Nat) (x : Batch) (p : SnapP) (f : Frozen) : List Byte :=
  let word := fun (q : Nat × Ctr) =>
    let c := if judgedSource q.2.source then s.ctr q.1 else q.2
    le 8 (ctrWord (if judgedSource q.2.source then s.ctrValue c else c.value) c.ovf)
  (if p.sect.testBit 0 then section_ 0 (x.counts.bytes ++ (s.channels b).flatMap (fun l => (x.chCounts.get Counts.zero l).bytes)) else []) ++
  (if p.sect.testBit 1 then section_ 1 (List.flatMap word f.ctrs) else []) ++ f.bytes ++
  (if p.sect.testBit 4 then section_ 4 (sitesBytes x) else [])

/-- Bytes that the selected sections take. -/
def State.snapLen (s : State) (b : Nat) (x : Batch) (p : SnapP) : Nat :=
  let n := (s.channels b).length
  (if p.sect.testBit 0 then 168 + 160 * n else 0) + (if p.sect.testBit 1 then 8 + 8 * (ones p.cmask 256).length else 0) +
  (if p.sect.testBit 2 then 1032 + 128 * n else 0) + (if p.sect.testBit 3 then 40 else 0) +
  (if p.sect.testBit 4 then 8 + (sitesBytes x).length else 0)

/-- Whether every strobe and record of vectors before v is judged and logged or accounted. -/
def Batch.judgedTo (x : Batch) (v : Nat) : Bool :=
  x.awaiting.all (fun g => decide (v ≤ g.vnum)) && x.forming.all (fun r => decide (v ≤ r.vnum)) &&
  x.formed.all (fun r => decide (v ≤ r.fr.vnum))

/-- The least boundary of the SNAPSHOTs that wait: nothing of a later vector is counted before their capture (R171). -/
def State.snapLimit (s : State) (b : Nat) : Option Nat :=
  s.waits.foldl (fun m w => if w.b != b then m else match w.what with
    | .snapshot _ _ (some v) _ => some (match m with
        | some u => min u v
        | none => v)
    | _ => m) none

/-- A batch as it stands at the boundary of v: without a commit that a later vector brings. -/
def Batch.asOf (x : Batch) (v : Nat) : Batch := if x.undo.any (fun u => decide (v < u.v)) then x.reverted else x

/-- SNAPSHOTs whose boundary has come take their instant (R171, R496). -/
def State.freezeSnaps (s : State) (b at_ : Nat) (sets : List (Nat × Nat)) : State :=
  match s.batch b with
  | none => s
  | some x =>
    let due := fun (w : Waiter) => match w.what with
      | .snapshot p t (some v) none =>
        if w.b == b && v == x.seq.begun then { w with what := .snapshot p t (some v) (some (s.freeze b (x.asOf v) p at_ sets)) } else w
      | _ => w
    { s with waits := s.waits.map due }

/-- A SNAPSHOT done: RESULT is the boundary and its grid time. -/
def State.finishSnapshot (s : State) (w : Waiter) (p : SnapP) (v : Nat) (f : Frozen) : State :=
  match s.batch w.b with
  | none => s
  | some x =>
    let d := s.snapBytes w.b x p f
    (({ s with waits := s.waits.filter (fun u => u != w) }).putData (some p.data) d).finishWait w OK 0 (le 8 v ++ timeBytes f.time) d p.data.inl

/-- Masked strobes that no group waits with any more: tallied, or counted in MATCH_STROBES (R154, R179). -/
def State.flushMasked (s : State) (b : Nat) : State :=
  let lim := s.snapLimit b
  let ms := match s.batch b with
    | some x => (x.awaiting.filter (fun (g : Group) => g.flushable lim && g.rep != 0)).flatMap (fun (g : Group) => g.masked.map (fun c => 16 * g.sl + c))
    | none => []
  ms.foldl (fun s l => s.count 0x0202 1 (Ev.ofC b l)) (s.onBatch b (fun x => x.flushMasked lim))

/-- Whether a capture of a SNAPSHOT of a batch is under way: from its boundary until every vector before it is judged (R171). -/
def State.capturing (s : State) (b : Nat) : Bool :=
  s.waits.any (fun w => w.b == b && match w.what with
    | .snapshot _ _ _ (some _) => true
    | _ => false)

/-- Every SNAPSHOT of a batch whose vectors are all judged completes. -/
def State.finishSnaps (s : State) (b : Nat) : State :=
  s.waits.foldl (fun s w => match w.what with
    | .snapshot p _ (some v) (some f) =>
      if w.b == b && (s.batch b).any (fun x => x.judgedTo v) then s.finishSnapshot w p v f else s
    | _ => s) s

/-! ## FAIL_READ (R167, R168, R315) -/

/-- The 32 bytes of a held record as its slot stores them, POISONED where the slot holds an uncorrectable error (R167). -/
def State.heldBytes (s : State) (b : Nat) (r : FailRec × Nat) : List Byte :=
  let bs := s.fetched b r.2 32
  if s.poisoned r.2 32 then (bs.take 28 ++ le 1 ((fld bs 28 1) ||| 8)) ++ bs.drop 29 else bs

/-- The first n held records taken, delivered or purged. -/
def Batch.takeHeld (x : Batch) (n : Nat) (purge : Bool) : Batch :=
  let y := (x.held.take n).foldl (fun y r => y.tallyRec r.1 (fun k c => c.takes k purge)) x
  { y with held := x.held.drop n }

/-- What a FAIL_READ takes: the state it leaves, RESULT and the records; a record whose slot lies outside the batch's regions now raises
MEM_BOUNDS (R240). -/
def State.failTake (s : State) (b : Nat) (x : Batch) (maxrec : Nat) (purge : Bool) : State × List Byte × List Byte :=
  let n := min maxrec x.held.length
  let rs := if purge then [] else x.held.take n
  ((s.setBatch b (x.takeHeld n purge)).fetches .fail b 1 (rs.map (fun r => (r.2, 32))), le 4 n ++ le 4 0 ++ le 8 (x.held.length - n),
    rs.flatMap (s.heldBytes b))

/-- Whether the records that a FAIL_READ takes stand in a frozen stack, which serves no read: it ends with E_HW and no effect (DESIGN
CHOICE, log 61). -/
def State.failFrozen (s : State) (x : Batch) (maxrec : Nat) (purge : Bool) : Bool :=
  !purge && (x.held.take maxrec).any (fun r => (s.stack (aStack r.2)).frozen)

/-- The FAIL_READs that a capture has held back are done, oldest first (R171). -/
def State.heldReads (s : State) (b : Nat) : State :=
  if s.capturing b then s
  else s.waits.foldl (fun s w => match w.what, s.batch b with
    | .failRead maxrec purge data, some x =>
      if w.b == b then
        if s.failFrozen x maxrec purge then ({ s with waits := s.waits.filter (fun u => u != w) }).finishWait w eHw 0 [] [] false
        else
          let r := s.failTake b x maxrec purge
          (({ r.1 with waits := s.waits.filter (fun u => u != w) }).putData (some data) r.2.2).finishWait w OK 0 r.2.1 r.2.2 data.inl
      else s
    | _, _ => s) s

/-- What a judgement may settle: masked strobes held back are tallied, SNAPSHOTs whose vectors are all judged complete, and FAIL_READs that
waited for them are done. -/
def State.settleSnaps (s : State) (b : Nat) : State := (((s.flushMasked b).finishSnaps b).flushMasked b).heldReads b

/-- The stop boundary stands for a SNAPSHOT boundary that the batch does not reach (R314): the end of the last vector, with the sets that it
selected. -/
def State.stopSnaps (s : State) (b v : Nat) : State :=
  let cut := fun (w : Waiter) => match w.what with
    | .snapshot p t u none => if w.b == b then { w with what := .snapshot p t (some (min v (u.getD v))) none } else w
    | _ => w
  match s.batch b with
  | some x => ({ s with waits := s.waits.map cut }).freezeSnaps b x.seq.acc.fs x.seq.begunSets
  | none => s

/-- Whether the boundary that a SNAPSHOT names starts before the lead of R314, or has gone by. A vector that the sequencers have not
written yet is in time. -/
def Batch.snapLate (x : Batch) (p : SnapP) (now : Nat) : Bool :=
  let soon := fun (q : Option Nat) => q.any (fun u => decide (u < now + boundaryLead))
  if p.when_ == 1 then decide (p.vnum < x.seq.begun) || soon (x.startOf p.vnum)
  else match p.time.time with
    | some t => (decide (0 < x.seq.begun) && decide (t ≤ x.seq.begunAt)) || soon (x.firstStart t)
    | none => false

/-- SNAPSHOT. TIME counts as a time pair, which must keep R29, only with WHEN 2; with WHEN 0 and 1 no check reads it (DESIGN CHOICE,
log 49). -/
def cmdSnapshot (h : Hdr) (p : SnapP) (s : State) : State :=
  let b := cmdBatch h
  s.runCmd h 0x0109 [(p.data, false)] (some p.data) fun s =>
    match s.batch b with
    | none => Res.err s eState
    | some x =>
      let cs := [(decide (2 < p.when_), eRange), (p.when_ == 2 && p.time.bad, eRange), ((p.when_ == 0) == x.active, eState),
        (p.when_ != 0 && x.snapLate p s.now, eLatency), ((ones p.cmask 256).any (fun k => (s.ctr k).owner != b), eOwner),
        (decide (p.data.len < s.snapLen b x p), eLength)]
      if p.when_ == 0 then
        let f := s.freeze b x p x.seq.acc.fs x.seq.begunSets
        checked s cs
          (if x.judgedTo x.stopV then Res.ok s (le 8 x.stopV ++ timeBytes f.time) (s.snapBytes b x p f)
           else Res.wait_ s (.snapshot p none (some x.stopV) (some f)))
      else if p.when_ == 1 then checked s cs (Res.wait_ s (.snapshot p none (some p.vnum) none))
      else
        let t := p.time.time.getD 0
        let v := (x.seq.flight.find? (fun q => decide (t ≤ q.acc.fs))).map (fun q => q.vnum)
        checked s cs (Res.wait_ s (.snapshot p (some t) v none))

def execSnapshot (h : Hdr) (p : SnapP) (s : State) : Step := .next (cmdSnapshot h p s)

/-- FAIL_READ. During a capture of the batch it waits for the end of the capture (R171). -/
def cmdFailRead (h : Hdr) (maxrec : Nat) (purge : Bool) (data : DRef) (s : State) : State :=
  let b := cmdBatch h
  s.runCmd h 0x010A [(data, false)] (some data) fun s =>
    match s.batch b with
    | none => Res.err s eState
    | some x =>
      let r := s.failTake b x maxrec purge
      checked s [(maxrec == 0 || (purge && data.len != 0), eRange), (!purge && decide (data.len < 32 * maxrec), eLength),
         (!s.capturing b && s.failFrozen x maxrec purge, eHw)]
        (if s.capturing b then Res.wait_ s (.failRead maxrec purge data) else Res.ok r.1 r.2.1 r.2.2)

def execFailRead (h : Hdr) (maxrec : Nat) (purge : Bool) (data : DRef) (s : State) : Step := .next (cmdFailRead h maxrec purge data s)

end Sys2Proof.Machine
end

