-- ==== Sys2Proof/Machine/StartStop.lean ====
section
/-! DEFINITION. START, the beginning of a run, STOP and the stop itself (04_sequencer.md R108 to R112; 05_timing_sets.md R138,
R142; R311, R312, R530). -/

namespace Sys2Proof.Machine
open Sys2Proof

/-! ## START (R108, R311) -/

/-- A condition on the instructions of a program. -/
def Batch.anyInstr (x : Batch) (p : PInstr → Bool) : Bool := x.prog.any p

/-- W of R180. -/
def matchW (delay l : Nat) : Nat := cdiv delay (max 1 l)

/-- Whether a segment is mapped on every slice of a list. -/
def Seg.mappedOn (g : Seg) (slices : List Nat) : Bool := slices.all (fun sl => g.sls.any (fun p => p.sl == sl))

/-- SEGIDs and SETs that a program names and the batch, which owns these slices, does not hold (R108, R373). -/
def Batch.missing (x : Batch) (slices : List Nat) : Bool :=
  x.anyInstr (fun i => match i with
    | .vec g _ | .mtch g _ _ => !(assoc x.segs g).any (fun g => g.mappedOn slices)
    | .tset t => (assoc x.sets t).isNone
    | _ => false)

/-- A MATCH of a segment that is no loop-store segment, or of a cellar group not joined (R108, R173). -/
def Batch.badMatch (x : Batch) (cmgrp : Nat) : Bool :=
  x.anyInstr (fun i => match i with
    | .mtch g _ n => (assoc x.segs g).any (fun d => !d.loopStore) || (decide (128 ≤ n) && !cmgrp.testBit (n - 128))
    | _ => false)

/-- A MATCH with TIMEOUT ≤ W (R180). -/
def Batch.shortMatch (x : Batch) : Bool :=
  x.anyInstr (fun i => match i with
    | .mtch g t _ => (assoc x.segs g).any (fun d => decide (t ≤ matchW x.site.matchDelay d.length))
    | _ => false)

/-- Whether DMASK names a device that is not in the cellar (R311). -/
def State.dmaskBad (s : State) (m : Nat) : Bool := (ones m 64).any (fun c => !s.inCellar c)

/-- Whether a RACK in progress holds an engine of the batch or a region of a stack where it has one (R26, R371, R372). -/
def State.heldUnit (s : State) (b : Nat) : Bool :=
  s.rep.ops.any (fun r => let e := r.2.2.2
    r.2.2.1 == 0x0006 && match e.kind with
    | 3 => s.acqOwner.get 0 e.newunit == b
    | 5 => s.holdsStack b (e.unit / 32)
    | 6 => s.dram.owner.get 0 (8192 * (e.unit / 32) + e.arg % 16777216 % 8192) == b
    | _ => false)

/-- Whether a stack where the batch holds a region retrains for its temperature (R369). -/
def State.heldStack (s : State) (b : Nat) : Bool :=
  (List.range 4).any (fun q => s.holdsStack b q && (s.stack q).tempTrain)

/-- The checks of R311 in its order. -/
def State.startChecks (s : State) (b : Nat) (x : Batch) (p : StartP) : List (Bool × Nat) :=
  let t := p.t.time
  let w := x.view
  [((x.state != 1 && x.state != 4) || (s.slices b).isEmpty || !x.site.defined || x.missing (s.slices b) || !w.entriesLoaded || s.parkedSlice b, eState),
   ((s.slices b).any s.heldSlice || s.heldUnit b || s.heldStack b, eBusy),
   (t.isNone || t.any (fun t => decide (t < 30000000)) || s.dmaskBad p.dmask || x.badMatch p.cmgrp, eRange),
   (x.sets.any (fun q => q.2.marked), eTiming),
   (t.any (fun t => decide (t < s.now + s.lStart p.dmask)) || x.shortMatch ||
     !s.delayOk b x.site.matchDelay x.site.tpe p.dmask x.prog x.periods, eLatency),
   (!s.shares b w x.weight, eBandwidth)]

/-- A ring emptied (R169). -/
def QRing.emptied (r : QRing) : QRing := { r with captured := 0, logged := 0 }

/-- A site's counts cleared (R162, R165). -/
def Site.cleared (t : Site) : Site := { t with fails := 0, recs := 0, first := none, firstV := none, off := none }

/-- Sites and rings as START leaves them. -/
def SiteCfg.cleared (c : SiteCfg) : SiteCfg :=
  { c with
    pend := []
    sites := List.filter (fun (p : Nat × Site) => decide (p.2 ≠ Site.zero)) (c.sites.map (fun (p : Nat × Site) => (p.1, p.2.cleared)))
    rings := c.rings.map (fun (p : Nat × QRing) => (p.1, p.2.emptied)) }

/-- The sequencers at START: entry 0 of the period table (R95), the accumulator at T (R38), the selected site-mask entry
(R323). -/
def Seq.started (t entry : Nat) : Seq := { Seq.zero with entry := entry, hAcc := Acc.start t 1, acc := Acc.start t 1 }

/-- What START sets: ARMED, every count and register of the run cleared, caches empty (R142, R162, R169, R44, R101). -/
def Batch.started (x : Batch) (t : Nat) (p : StartP) (key : Option (Nat × Nat)) (byFlow : Bool) : Batch :=
  let y := { x with
    state := 2, causes := [], thr := [], startT := t, undo := none
    dmask := p.dmask, cmgrp := p.cmgrp, syncgrp := p.syncgrp, idleFill := p.idleFill, startKey := key, byFlow := byFlow }
  { y with
    caches := [], site := x.site.cleared, reserr := 0, reserrSat := false, counts := Counts.zero, chCounts := []
    awaiting := [], forming := [], formed := [], held := [], unl := [], edges := [], lastEdge := [], vo := if x.written.isSome then some 0 else none
    streams := x.streams.map (fun q => (q.1, { q.2 with invalid := false }))
    seq := Seq.started t (if byFlow then x.flow.entry else 0) }

/-- START takes effect: the channels' lines low and off (R62), an armed epoch disarmed (R390). -/
def State.startNow (s : State) (b : Nat) (x : Batch) (p : StartP) (key : Option (Nat × Nat)) (byFlow : Bool) : State :=
  let s := s.setBatch b (x.started (p.t.time.getD 0) p key byFlow)
  let s := s.safeCells (s.cells b)
  { s with
    tb := { s.tb with epochArmed := none }
    syncs := s.syncs.filter (fun r => !(r.b == b && r.dev == s.cdev)) }

/-- START. -/
def cmdStart (h : Hdr) (p : StartP) (s : State) : State :=
  let b := cmdBatch h
  s.runCmd h 0x0106 [] none fun s =>
    match s.batch b with
    | none => Res.err s eState
    | some x => checked s (s.startChecks b x p) (Res.acc (s.startNow b x p (some (h.tap, h.seq)) false))

def execStart (h : Hdr) (p : StartP) (s : State) : Step := .next (cmdStart h p s)

/-- BATCH_RUN_BEGIN (R109): an ARMED batch whose stop boundary is not vector 0 enters RUNNING at T. -/
def batchRunBegin (s : State) (b : Nat) : State :=
  match s.batch b with
  | none => s
  | some x =>
    if x.state == 2 && x.stopAt != some 0 then (s.at_ x.startT).onBatch b (fun x => { x with state := 3 }) else s

def execBatchRunBegin (b : Nat) (s : State) : Step := .next (batchRunBegin s b)

/-! ## Grid times that become boundaries (R111) -/

/-- The first vector not begun whose start is known and lies at or after t. -/
def Batch.firstAt (x : Batch) (t : Nat) : Option Nat :=
  if x.seq.begun == 0 && decide (t ≤ x.startT) then some 0
  else (x.seq.flight.find? (fun h => h.acc.atOrAfter t)).map (fun h => h.vnum)

/-- Stop thresholds whose vector is known become causes; the others wait for the handover. -/
def Batch.tied (x : Batch) : Batch :=
  x.thr.foldl (fun y q => match y.firstAt q.2 with
    | some v => y.addCause q.1 v
    | none => { y with thr := y.thr ++ [q] }) { x with thr := [] }

/-- Stop thresholds that the next vector's start has reached (R111). -/
def Batch.stopsDue (x : Batch) : Batch :=
  let due := x.thr.filter (fun q => x.seq.hAcc.atOrAfter q.2)
  due.foldl (fun (y : Batch) q => y.addCause q.1 x.seq.hNext) { x with thr := x.thr.filter (fun q => !x.seq.hAcc.atOrAfter q.2) }

/-- STOP (R111, R112, R312). -/
def cmdStop (h : Hdr) (s : State) : State :=
  let b := cmdBatch h
  s.runCmd h 0x0107 [] none fun s =>
    match s.batch b with
    | none => Res.err s eState
    | some x =>
      if x.active then
        Res.wait_ (s.setBatch b ({ x with thr := x.thr ++ [(2, s.now + boundaryLead)] } : Batch).tied) .stop
      else Res.err s eState

def execStop (h : Hdr) (s : State) : Step := .next (cmdStop h s)

/-! ## The timing-set cache (R139, R140) -/

/-- Whether a channel's cache hits on a set. -/
def hits (es : List CacheE) (set : Nat) : Bool := es.any (fun e => e.set == set && !e.stale)

/-- A selection that hits: the copy becomes the most recently selected. -/
def cacheHit (es : List CacheE) (set : Nat) : List CacheE :=
  match es.find? (fun e => e.set == set && !e.stale) with
  | some e => e :: es.filter (fun x => x.set != set)
  | none => es

/-- A fill: a stale copy is replaced in place, else the entry selected least recently goes. -/
def cacheFill (es : List CacheE) (e : CacheE) : List CacheE :=
  let rest := es.filter (fun x => x.set != e.set)
  e :: rest.take 15

/-- The cache of a logical channel. -/
def Batch.cache (x : Batch) (lch : Nat) : List CacheE := Tab.get [] x.caches lch

/-- The copy that a fill takes from the set store: record i of the set. -/
def copyOf (set : Nat) (t : TSet) (i : Nat) : CacheE := ⟨set, t.version, false, t.recs.getD i ChanRec.zero⟩

/-- Whether any channel of a slice misses on a set. -/
def Batch.missesOn (x : Batch) (set sl : Nat) : Bool := (List.range 16).any (fun c => !hits (x.cache (16 * sl + c)) set)

/-- A TSET at its effect boundary (R140): every channel that misses is filled; the slices that missed are counted there. -/
def Batch.selectSet (x : Batch) (chans slices : List Nat) (v set : Nat) : Batch :=
  match assoc x.sets set with
  | none => x
  | some t =>
    let missed := slices.filter (x.missesOn set)
    let one := fun (m : Tab (List CacheE)) (p : Nat × Nat) =>
      let es := Tab.get [] m p.2
      m.set [] p.2 (if hits es set then cacheHit es set else cacheFill es (copyOf set t p.1))
    let caches := (chans.mapIdx (fun i l => (i, l))).foldl one x.caches
    { x with caches := caches, seq := { x.seq with acts := x.seq.acts ++ missed.map (fun sl => (v, 3, sl)) } }

/-- The period source of an effect boundary v settled to an entry. -/
def Seq.fixPer (q : Seq) (v e : Nat) : Seq :=
  let f := fun (p : Nat) => if p == 256 + v then e else p
  { q with buf := q.buf.map (fun r => { r with per := f r.per }), last := q.last.map (fun r => { r with per := f r.per }), per := f q.per }

/-- The own period entry of a set, 0 for one that is not loaded, which no program names (R108). -/
def Batch.ownEntry (x : Batch) (set : Nat) : Nat := ((assoc x.sets set).map (fun t => t.peridx)).getD 0

/-- The TSETs whose effect boundary is v: the caches meet each selection, and the last one's own period entry comes into force. -/
def Batch.selectSets (x : Batch) (chans slices : List Nat) (v : Nat) : Batch :=
  let due := x.seq.acts.filter (fun a => a.1 == v && a.2.1 == 5)
  match due.getLast? with
  | none => x
  | some l =>
    let q := { x.seq with acts := x.seq.acts.filter (fun a => !(a.1 == v && a.2.1 == 5)) }
    due.foldl (fun (y : Batch) a => y.selectSet chans slices v a.2.2) { x with seq := q.fixPer v (x.ownEntry l.2.2) }

/-- Every TSET that the sequencers have executed, in order, with its misses (R140): a stop withdraws the vectors but no selection. -/
def Batch.flushSets (x : Batch) (chans slices : List Nat) : Batch :=
  let y := { x with seq := { x.seq with acts := x.seq.acts.filter (fun a => a.2.1 != 5) } }
  (x.seq.acts.filter (fun a => a.2.1 == 5)).foldl (fun (y : Batch) a => y.selectSet chans slices a.1 a.2.2) y

/-! ## The stop (R110 to R112) -/

/-- Reason codes in the order of R112. -/
def reasonRank (r : Nat) : Nat :=
  match r with
  | 6 => 6
  | 5 => 5
  | 4 => 4
  | 3 => 3
  | 2 => 2
  | _ => 1

/-- The reason and STOPCAUSE of a stop at v. -/
def Batch.stopReason (x : Batch) (v : Nat) : Nat × Nat :=
  let rs := (x.causes.filter (fun c => c.2 == v)).map Prod.fst
  (rs.foldl (fun m r => if reasonRank m < reasonRank r || m == 0 then r else m) 0, rs.foldl (fun m r => m ||| 2 ^ r) 0)

/-- RESULT of the START final and of STOP (R311). -/
def stopResult (reason cause v : Nat) : List Byte := le 1 reason ++ le 1 cause ++ le 6 0 ++ le 8 v

/-- What a commit has replaced comes back where the batch stops before the vector that brought it has begun and before T: the unit then
applies at T (R252). -/
def Batch.undone (x : Batch) : Batch :=
  match x.undo with
  | some u =>
    if x.seq.acc.atOrAfter u.t then x
    else
      let y := x.reverted
      { y with ep := { y.ep with thr := some u.t } }
  | none => x

/-- The batch stopped at v: withdrawn vectors gone, with their strobes and records (R172); an override whose vector has not begun in force from
the next START (R150), and the sets gone from the caches whose marking has not acted (R530). -/
def Batch.stopped (x : Batch) (v : Nat) (own : Bool) (lapsed : List Nat) : Batch :=
  let r := x.stopReason v
  let q := { x.seq.withdraw v with buf := [], wait := none, decided := none, halted := true, acts := [] }
  let y := lapsed.foldl Batch.dropCopies x
  let y := { y with state := if decide (3 < r.1) && own then 5 else 4, reason := r.1, stopCause := r.2, stopV := v, seq := q
                    site := { x.site with pend := [] }, markBuf := x.markBuf.map (fun (m : Nat × Nat × Nat) => (m.1, m.2.1, if m.2.2 == 0 then 0 else 2)) }
  { y with
    causes := [], thr := [], checks := [], ovr := x.written, ovrNext := [], staleNext := [], undo := none
    vo := if x.ovrNext.isEmpty then x.vo.filter (fun u => decide (u < x.seq.begun)) else none
    awaiting := x.awaiting.filter (fun g => decide (g.vnum < v)), forming := x.forming.filter (fun r => decide (r.vnum < v))
    formed := x.formed.filter (fun f => decide (f.fr.vnum < v)), edges := x.edges.filter (fun e => decide (e.vnum < v)) }

/-- Counts tied to effect boundaries that no vector reaches. -/
def State.countActs (s : State) (b : Nat) (as : List (Nat × Nat × Nat)) : State :=
  as.foldl (fun s a =>
    if a.2.1 == 3 then s.count 0x0104 1 (Ev.ofS b a.2.2)
    else if a.2.1 == 4 then s.count 0x0105 1 (Ev.ofS b (s.lowSlice b))
    else s) s

/-- The check orders that wait for their job meet the stop (R333). -/
def State.lapseChecks (s : State) (b : Nat) : State :=
  let f := fun (j : Job) => match j.work with
    | .check m _ => if j.b == b then { j with work := .check m true } else j
    | _ => j
  let c := s.sched
  { s with sched := { c with ready := c.ready.map f, outside := c.outside.map f, delayed := c.delayed.map f } }

/-- Waiters that a stop completes with a change that did not act (R530). -/
def State.releaseLapsed (s : State) (b : Nat) : State :=
  s.release (fun w => w.b == b && match w.what with
    | .vector .. | .override .. => true
    | _ => false) OK 0 (le 8 noVnum)

/-- The sets whose STALE marking has not acted yet: those that a TS_INVALIDATE of the batch waits for. -/
def State.staleWaits (s : State) (b : Nat) : List Nat :=
  s.waits.filterMap (fun w => match w.what with
    | .vector set _ _ => if w.b == b then some set else none
    | _ => none)

/-- A unit of a commit on a batch that stops at v: the stop boundary is the first boundary at or after T where T has been reached, and
its FINAL completes; before T the unit applies at T (R252). -/
def State.commitAtStop (s : State) (b v : Nat) : State :=
  match s.batch b with
  | none => s
  | some x =>
    if x.ep.thr.any x.seq.acc.atOrAfter then (s.applyUnit b v).finalOk b
    else if x.ep.due then (s.onBatch b (fun x => x.committed v)).finalOk b
    else s

/-- Bb stops at v (R110 to R112, R311, R312): STOP completes first, then the START final; MSI-X vector 2 of its function (R348);
swaps held to the stop (R230); the flow step meets the stop (R329). Where every vector before v was handed over, a threshold that v
meets names v too. -/
def State.stopNow (s : State) (b v : Nat) : State :=
  match s.batch b with
  | none => s
  | some w =>
    let x := (if v == w.seq.hNext then w.stopsDue else w).undone.flushSets (s.channels b) (s.slices b)
    let y := x.stopped v (s.ownFault b) (s.staleWaits b)
    let lapsed := x.checks.length + x.site.pend.length
    let s := if lapsed == 0 then s else s.count 0x0204 lapsed (Ev.ofB b)
    let s := (s.countActs b x.seq.acts).stopSnaps b v
    let s := (s.setBatch b y).settlePins b
    let s := ((s.commitAtStop b v).swapsAtStop b).releaseLapsed b
    let res := stopResult y.reason y.stopCause v
    let s := s.release (fun w => w.b == b && w.what == .stop) OK 0 res
    let s := match x.startKey with
      | some k => s.finish k.1 k.2 OK 0 res
      | none => s
    let s := (s.onBatch b (fun x => { x with startKey := none })).msi b 2
    ((s.settleSnaps b).lapseChecks b).flowStop b y.reason v

/-- BATCH_STOP: the boundary passes once every vector before it has begun; a stop at vector 0 of an ARMED batch takes effect at
once (R110). -/
def batchStop (s : State) (b t : Nat) : State :=
  match s.batch b with
  | none => s
  | some x =>
    if !x.active then s
    else match x.stopAt with
      | some v =>
        if v ≤ x.seq.begun then
          let s := if v == 0 && x.state == 2 then s.at_ t else s.at_ (max t x.seq.acc.fs)
          s.stopNow b v
        else s
      | none => s

def execBatchStop (b t : Nat) (s : State) : Step := .next (batchStop s b t)

end Sys2Proof.Machine
end

