-- ==== Sys2Proof/Machine/Edges.lean ====
section
/-! DEFINITION. What the edge generators take of a vector: its data, its actions, its edges and strobes (02_time_arithmetic.md R40,
R45 to R50, R53, R55; 03_vector_data.md R61 to R69; 05_timing_sets.md R128 to R135, R139 to R141). -/

namespace Sys2Proof.Machine
open Sys2Proof

/-! ## The data of a vector (R65, R69, R85) -/

/-- n bytes of a loop store or of any table of bytes. -/
def tabBytes (m : Tab Byte) (a : Nat) : Nat → List Byte
  | 0 => []
  | n + 1 => m.get 0 a :: tabBytes m (a + 1) n

/-- The part of a segment on a slice. -/
def Seg.part (g : Seg) (sl : Nat) : SegSl := (g.sls.find? (fun p => p.sl == sl)).getD ⟨sl, 0, 0⟩

/-- The action of a channel in a unit interval. -/
def SliceVec.action (w : SliceVec) (k c : Nat) : Nat := w.codes.getD (16 * k + c) 0

/-- The bytes of vector `pos` of a segment within a granule's bytes. -/
def Seg.inGranule (g : Seg) (gr : List Byte) (pos : Nat) : List Byte := (gr.drop (pos % g.gran * g.vbytes)).take g.vbytes

/-- The timing-set number of vector `pos` within a granule's bytes. -/
def Seg.setIn (g : Seg) (gr : List Byte) (pos : Nat) : Nat := fld gr (g.gran * g.vbytes + pos % g.gran) 1

/-- The granule of DRAM data that holds vector `pos` on a slice: BAR2 offset. -/
def Seg.dramAddr (g : Seg) (sl pos : Nat) : Nat := stackAddr sl ((g.part sl).addr + g.granOff pos)

/-- The bytes of the granule that a slice reads, none where a stream has not fetched it. -/
def State.granuleOf (s : State) (x : Batch) (seg : Nat) (g : Seg) (sl pos : Nat) : Option (List Byte) :=
  if g.loopStore then some (tabBytes x.loops (16384 * sl + (g.part sl).addr + g.granOff pos) g.gbytes)
  else if g.sparge then
    (assoc x.streams seg).bind (fun t => (assoc t.data (pos / 64)).bind (fun l => assoc l sl))
  else some (s.peek (g.dramAddr sl pos) g.gbytes)

/-- The action codes of a vector's data on a slice (R65, R66). -/
def Batch.codes (x : Batch) (g : Seg) (sl : Nat) (full : Bool) (data : List Byte) : List Nat :=
  (List.range (16 * g.m)).map (fun i =>
    let f := vfield full data (i / 16) (i % 16)
    if full then f else cmapAction (x.cmap sl (g.part sl).cmap) (i % 16) f)

/-- What a slice plays of the vector at the head of a run that is no repeat. -/
def State.sliceVec (s : State) (x : Batch) (g : Seg) (r : Run) (sl : Nat) : Option SliceVec :=
  if r.idle then
    (assoc x.streams r.seg).map (fun t => ⟨sl, x.codes g sl true ((assoc t.keep sl).getD []), if g.tssel then t.tsnum else r.set⟩)
  else (s.granuleOf x r.seg g sl r.pos).map (fun gr =>
    ⟨sl, x.codes g sl g.full (g.inGranule gr r.pos), if g.tssel then g.setIn gr r.pos else r.set⟩)

/-- What the slices repeat of the last vector handed over: the same action codes; under TSSEL its set, else the set in force (R96). -/
def repeatVec (g : Seg) (ws : List SliceVec) (r : Run) : List SliceVec := if g.tssel then ws else ws.map (fun w => { w with set := r.set })

/-! ## Edges (R45 to R50, R53) -/

/-- Deskew and fixture of a channel: direction 0 drive, 1 compare (R45, R46). -/
def State.shift (s : State) (lch dir : Nat) : Int :=
  (s.item (0x3000 + 2 * s.pcell lch + dir)).value + s.fixture.get 0 (2 * lch + dir)

/-- The edge of a line at an offset from a unit interval's start (R45, R49, R50). -/
def State.edge (s : State) (lch line vnum : Nat) (ui : Nat × Nat) (dm offset act : Nat) : Edge :=
  let fs := ((ui.1 + offset : Nat) + s.shift lch (if line == 2 then 1 else 0)).toNat
  let q := quantise fs ui.2 dm
  let code := (s.item (0x1000 + 3 * s.pcell lch + line)).code (q.2 / 1024) (q.2 % 1024)
  ⟨lch, line, vnum, q.1, q.2 / 1024, code, fs, ui.2, dm, act⟩

/-- Whether an edge comes at least `gap` fs after another (R53: exact times, before quantisation). -/
def Edge.after (e f : Edge) (gap : Nat) : Bool := decide ((f.fs + gap) * (f.d * e.d) + f.n * e.d ≤ e.fs * (f.d * e.d) + e.n * f.d)

/-- The spacing of a line's edges. -/
def lineGap (line : Nat) : Nat := if line == 2 then 62500 else 55000

/-- Events of one unit interval of a channel as (line, offset, act), and the data level held after it (R61, R128 to R132). A strobe or
window under a site mask is scheduled like any other; only its performance is held back (R135, R154). -/
def uiEvents (cr : ChanRec) (held : Bool) (a : Nat) : List (Nat × Nat × Nat) × Bool :=
  if drives a then
    let d := if a == 10 then !held else a == 1
    ((cr.drv d).map (fun p => (0, p.1, b2n p.2)) ++ [(1, cr.tEon, 3)], d)
  else if a == 3 then ([], held)
  else ((1, cr.tEoff, 2) :: (if compares a then cr.cmp.map (fun p => (2, p.1, p.2)) else []), held)

/-- What a channel gives as a vector is taken: its new edges in order, the last edge of each of its lines, held level, whether an
edge breaks R53. -/
structure ChanTake where
  edges : List Edge
  last : List Edge
  held : Bool
  broken : Bool

/-- One event checked and enqueued. -/
def ChanTake.put (w : ChanTake) (e : Edge) (offOk : Bool) : ChanTake :=
  let ok := offOk && (w.last.find? (fun f => f.line == e.line)).all (fun f => e.after f (lineGap e.line))
  if w.broken || !ok then { w with broken := true }
  else { w with edges := w.edges ++ [e], last := e :: w.last.filter (fun f => f.line != e.line) }

/-- A unit interval of a channel. -/
def State.takeUi (s : State) (lch vnum : Nat) (p : Per) (cr : ChanRec) (ui : Nat × Nat) (dm : Nat) (w : ChanTake) (a : Nat) : ChanTake :=
  let ev := uiEvents cr w.held a
  let w := ev.1.foldl (fun (w : ChanTake) q => w.put (s.edge lch q.1 vnum ui dm q.2.1 q.2.2) (decide (q.2.1 * p.d < 4 * p.num))) w
  { w with held := ev.2 }

/-- A channel record from a free number: the manual names no set in force before the first TSET (log 24). -/
def freeRec (u : Nat) : ChanRec :=
  let t := fun (i : Nat) => u / 2 ^ (3 + 40 * i) % 2 ^ 40
  ⟨u % 4, u.testBit 2, t 0, t 1, t 2, t 3, t 4, t 5, t 6, t 7⟩

/-- The channel record in force: the copy of the set, stale or not. -/
def Batch.recAt (x : Batch) (lch set u : Nat) : ChanRec :=
  match (x.cache lch).find? (fun e => e.set == set) with
  | some e => e.cr
  | none => freeRec u

/-! ## A whole vector -/

/-- What decides the taking of a vector: its number, run, descriptor, converted start, period, the number of the first free value that
may stand for a channel record. -/
structure Take where
  v : Nat
  r : Run
  g : Seg
  a : Acc
  p : Per
  free : Nat

def Take.dm (k : Take) : Nat := k.p.d * k.g.m

/-- The free value for channel i of the batch. -/
def Take.u (k : Take) (i : Nat) : Nat := Config.freeValue (k.free + i)

/-- Whether a site is enabled in the mask of a vector (R155, R323). -/
def Batch.enabledAt (x : Batch) (k : Take) (site : Nat) : Bool := decide (511 < site) || (x.mask k.r.entry).testBit site

/-- Whether a channel's strobe of an action is performed, given its site: EL to EV not under a mask outside a MATCH block, none in
fail-off (R154, R161, R165). The strobes of a MATCH block are not scheduled, so no mask holds them back (log 25). -/
def Batch.performs (x : Batch) (k : Take) (site a : Nat) : Bool :=
  !x.site.offAt site k.v && (a == 9 || k.r.mtch != 0 || x.enabledAt k site)

/-- A channel taken through the vector's unit intervals; a channel in fail-off has no event. -/
def State.takeChan (s : State) (x : Batch) (k : Take) (w : SliceVec) (site i lch : Nat) : ChanTake :=
  let c := lch % 16
  let t0 : ChanTake := ⟨[], x.lastEdge.filter (fun e => e.lch == lch), decide (lch ∈ x.seq.drv), false⟩
  if x.site.offAt site k.v then t0
  else
    let cr := x.recAt lch w.set (k.u i)
    (List.range k.g.m).foldl (fun (t : ChanTake) j =>
      s.takeUi lch k.v k.p cr (k.a.ui k.p k.g.m j) k.dm t (w.action j c)) t0

/-- The enable that a channel holds after the vector's actions (R62). -/
def Batch.denAfter (x : Batch) (k : Take) (w : SliceVec) (lch : Nat) : Bool :=
  (List.range k.g.m).foldl (fun on j =>
    let a := w.action j (lch % 16)
    if drives a then true else if a == 3 then on else false) (decide (lch ∈ x.seq.den))

/-- The strobes of a slice in unit interval j: those to perform and the channels under a mask or in fail-off. In a MATCH block those
are channels whose strobes count but decide nothing (R178, R179). -/
def Batch.groupAt (x : Batch) (k : Take) (w : SliceVec) (chans : List Nat) (len j : Nat) : Group :=
  let place := fun (c : Nat) => (chans.idxOf? (16 * w.sl + c)).getD 0
  let site := fun (c : Nat) => x.site.siteAt (place c)
  let act := w.action j
  let comp := (List.range 16).filter (fun c => compares (act c))
  let win := fun (c : Nat) => (x.recAt (16 * w.sl + c) w.set (k.u (place c))).cmode
  let rep := if k.r.mtch == 0 then 0 else k.r.mtch + (k.v + 1 - k.r.mtch) / max 1 len * len
  ⟨w.sl, k.v, j, k.r.addr, k.r.iter, k.r.inLoop, rep,
    (comp.filter (fun c => x.performs k (site c) (act c))).map (fun c => ⟨c, act c, win c⟩),
    comp.filter (fun c => act c != 9 && (x.site.offAt (site c) k.v || !x.enabledAt k (site c)))⟩

/-- The groups of a vector that hold a strobe. -/
def Batch.groupsOf (x : Batch) (k : Take) (ws : List SliceVec) (chans : List Nat) (len : Nat) : List Group :=
  ((List.range k.g.m).flatMap (fun j => ws.map (fun w => x.groupAt k w chans len j))).filter
    (fun g => !g.strobes.isEmpty || !g.masked.isEmpty)

/-! ## Fail-off (R165) -/

/-- A group without the strobes of some channels of its slice: those of an expect become masked. -/
def Group.mask (g : Group) (cs : List Nat) : Group :=
  let off := g.strobes.filter (fun t => cs.contains (16 * g.sl + t.ch))
  let m := (off.filter (fun t => t.act != 9 && !g.masked.contains t.ch)).map (fun t => t.ch)
  { g with strobes := g.strobes.filter (fun t => !cs.contains (16 * g.sl + t.ch)), masked := g.masked ++ m }

/-- Groups of vectors from V on, masked. -/
def maskFrom (gs : List Group) (v : Nat) (cs : List Nat) : List Group := gs.map (fun g => if v ≤ g.vnum then g.mask cs else g)

/-- The channels of a site. -/
def SiteCfg.channelsOf (c : SiteCfg) (chans : List Nat) (site : Nat) : List Nat :=
  ((chans.mapIdx (fun i l => (i, l))).filter (fun p => c.siteAt p.1 == site)).map Prod.snd

/-- Edges and strobes of some channels from VNUM v on do not happen. -/
def Batch.quiet (x : Batch) (cs : List Nat) (v : Nat) : Batch :=
  let q := { x.seq with flight := x.seq.flight.map (fun h => { h with groups := maskFrom h.groups v cs }) }
  { x with seq := q, awaiting := maskFrom x.awaiting v cs, edges := x.edges.filter (fun e => !(cs.contains e.lch && decide (v ≤ e.vnum))) }

/-- A site enters fail-off at V_off with decision vector s: of two orders the earlier V_off and the earlier s stand. Edges of its
channels from V_off on do not fire, their strobes are masked, and its records with VNUM above s are FAILOFF. -/
def Batch.failOff (x : Batch) (chans : List Nat) (site voff s : Nat) : Batch :=
  let t := x.site.site site
  let o := match t.off with
    | some p => (min p.1 voff, min p.2 s)
    | none => (voff, s)
  let y := ({ x with site := { x.site with sites := x.site.sites.set Site.zero site { t with off := some o } } } : Batch).reclassify site o.2
  y.quiet (x.site.channelsOf chans site) o.1

/-- A flow's order with its V_off known: the sites of a list that have failed by vector s go quiet from V_off on; the order stands once
V_off begins, and lapses where the batch stops before (R333). -/
def Batch.holdOff (x : Batch) (chans sites : List Nat) (voff s : Nat) : Batch :=
  let l := sites.filter (fun i => (x.site.site i).failedBy s)
  ({ x with site := { x.site with pend := x.site.pend ++ [(l, voff, s)] } } : Batch).quiet (l.flatMap (x.site.channelsOf chans)) voff

/-- V_off begins: the orders for it put their sites into fail-off (R165, R333). -/
def Batch.offsBegin (x : Batch) (chans : List Nat) (v : Nat) : Batch :=
  let due := x.site.pend.filter (fun q => decide (q.2.1 ≤ v))
  due.foldl (fun (y : Batch) q => q.1.foldl (fun (y : Batch) i => y.failOff chans i q.2.1 q.2.2) y)
    { x with site := { x.site with pend := x.site.pend.filter (fun q => decide (v < q.2.1)) } }

end Sys2Proof.Machine
end

