-- ==== Sys2Proof/Machine/Pattern.lean ====
section
/-! DEFINITION. The pattern instructions (04_sequencer.md R88 to R106): what a batch's sequencers do when they execute one. All
slices run one program in time-lockstep, so one sequencer stands for them (log 7). -/

namespace Sys2Proof.Machine
open Sys2Proof

/-! ## The front of the output buffer -/

/-- A run written into the output buffer; the vector to repeat is its last (R96). -/
def Seq.push (q : Seq) (r : Run) (len : Nat) : Seq :=
  if r.left == 0 then q
  else
    let pos := if r.rpt || r.idle then r.pos else (r.pos + r.left - 1) % len
    { q with buf := q.buf ++ [r], emitted := q.emitted + r.left, last := some { r with pos := pos, left := 1, rpt := true, mtch := 0 } }

/-- 0-based iteration of the innermost open loop (R56). -/
def Seq.iter (q : Seq) : Nat :=
  match q.loops.head? with
  | some l => l.count - l.left
  | none => 0

/-- The last vector emitted, n more times, with what is in force now (R96). -/
def Seq.repeated (q : Seq) (n : Nat) : Option Run :=
  q.last.map (fun r => { r with left := n, set := q.set, per := q.per, entry := q.entry, addr := q.pc, iter := q.iter, inLoop := !q.loops.isEmpty })

/-- Repeats pushed. -/
def Seq.repeat_ (q : Seq) (n : Nat) : Seq :=
  match q.repeated n with
  | some r => q.push r 1
  | none => q

/-- The period of the repeats of the last vector at the front. -/
def Batch.repeatPer (x : Batch) (y : Batch) : Option Per :=
  match x.seq.repeated 1 with
  | some r => effPer y.periods y.ovr (y.runEntry r)
  | none => none

/-- A_w: the start of the vector after those emitted, with the conversion that it meets (R42, R97), and the period in force there. -/
def Batch.aw (x : Batch) : Acc × Option Per :=
  let f := x.front
  match x.repeatPer f.2 with
  | some p => ((f.1.convert p.d).1, some p)
  | none => (f.1, none)

/-- The repeats of the last vector up to the first boundary at or after a grid time (R98, R106). -/
def Batch.repeatsUntil (x : Batch) (t : Acc) : Nat :=
  match x.seq.repeated 1 with
  | some r =>
    let w := x.walk x.seq.buf
    repeatsIn t w.2.2 w.2.1 w.1 r
  | none => 0

/-- A wait that names a grid time ends: the repeats up to the first boundary at or after it are written (R98, R106). -/
def Batch.resumed (x : Batch) : Batch :=
  match x.seq.wait with
  | some (.peact (some t)) => { x with seq := { x.seq.repeat_ (x.repeatsUntil t) with wait := none } }
  | _ => x

/-- Whether the sequencers execute: the batch ARMED or RUNNING, no HALT passed, nothing waited for, no stop boundary reached, and the
vectors of the instructions before all written into the output buffer of 2,048 vectors (R10), the mark buffer not overrun (R99). The runs
past the first 2,048 vectors of `buf` are those of the instruction in progress, still to be written (log 7). -/
def Batch.executes (x : Batch) : Bool :=
  x.active && !x.seq.halted && x.seq.wait.isNone && x.stopAt.all (fun v => decide (x.seq.emitted < v)) && decide (runsLen x.seq.buf ≤ 2048) &&
    decide (x.markBuf.length ≤ 16)

/-- An instruction that the program counter holds acts; any other row does nothing. -/
def State.execute (s : State) (b : Nat) (i : PInstr) (f : Batch → State → State) : State :=
  match s.batch b with
  | none => s
  | some x =>
    let x := x.resumed
    if x.executes && x.prog[x.seq.pc]? == some i then f x (s.setBatch b x) else s

/-- The next instruction. -/
def Seq.next (q : Seq) : Seq := { q with pc := q.pc + 1 }

/-- A step of the sequencers alone. -/
def State.seqStep (s : State) (b : Nat) (i : PInstr) (f : Seq → Seq) : State :=
  s.execute b i (fun x s => s.setBatch b { x with seq := (f x.seq).next })

/-- An action at the effect boundary of an instruction (R94). -/
def Seq.act (q : Seq) (kind v : Nat) : Seq := { q with acts := q.acts ++ [(q.emitted, kind, v)] }

/-! ## Vectors, loops, sets -/

/-- NOP. -/
def execNop (b : Nat) (s : State) : Step := .next (s.seqStep b .nop id)

/-- A run of a segment from its vector 0 with what is in force. -/
def Seq.fresh (q : Seq) (seg n : Nat) : Run := ⟨seg, 0, n, false, false, q.set, q.per, q.entry, q.pc, q.iter, !q.loops.isEmpty, 0⟩

/-- VEC (R96): COUNT plays of the segment. -/
def vecOp (s : State) (b seg count : Nat) : State :=
  s.execute b (.vec seg count) (fun x s =>
    let l := x.segLen seg
    s.setBatch b { x with seq := (x.seq.push (x.seq.fresh seg (count * l)) l).next })

def execVec (b seg count : Nat) (s : State) : Step := .next (vecOp s b seg count)

/-- RPT (R96). -/
def execRpt (b count : Nat) (s : State) : Step := .next (s.seqStep b (.rpt count) (fun q => q.repeat_ count))

/-- LOOP (R56, R103). -/
def execLoop (b count : Nat) (s : State) : Step :=
  .next (s.seqStep b (.loop count) (fun q => { q with loops := ⟨q.pc + 1, count, count⟩ :: q.loops }))

/-- ENDL (R56): the counter decrements; while it is not zero the body plays again. -/
def Seq.endl (q : Seq) : Seq :=
  match q.loops with
  | [] => q.next
  | l :: ls => if 1 < l.left then { q with loops := { l with left := l.left - 1 } :: ls, pc := l.addr } else { q with loops := ls }.next

/-- ENDL. -/
def endlOp (s : State) (b : Nat) : State := s.execute b .endl (fun x s => s.setBatch b { x with seq := x.seq.endl })

def execEndl (b : Nat) (s : State) : Step := .next (endlOp s b)

/-- TSET (R94, R95): the set, and its own period entry as the set stands at the effect boundary; the cache meets the selection there. -/
def tsetOp (s : State) (b set : Nat) : State :=
  s.seqStep b (.tset set) (fun q => { q with set := set, per := 256 + q.emitted }.act 5 set)

def execTset (b set : Nat) (s : State) : Step := .next (tsetOp s b set)

/-- PER (R95). -/
def execPer (b idx : Nat) (s : State) : Step := .next (s.seqStep b (.per idx) (fun q => { q with per := idx }))

/-- The target of WAITT with ABS in whole fs (R97): the smallest t of 1 ns with t ≥ ceil(A_w) and t mod 2^48 = TIME. -/
def waitTarget (a : Acc) (time : Nat) : Nat :=
  let c := cdiv a.fs ns + (if a.fs % ns == 0 && a.n != 0 then 1 else 0)
  (c + (time + 281474976710656 - c % 281474976710656) % 281474976710656) * ns

/-- r of R97. -/
def waitRepeats (a : Acc) (abs : Bool) (time : Nat) (p : Per) : Nat :=
  repeatsTo a (if abs then Acc.start (waitTarget a time) 1 else a.plus (time * ns)) p

/-- WAITT. -/
def waittOp (s : State) (b : Nat) (abs : Bool) (time : Nat) : State :=
  s.execute b (.waitt abs time) (fun x s =>
    let w := x.aw
    let r := match w.2 with
      | some p => waitRepeats w.1 abs time p
      | none => 0
    s.setBatch b { x with seq := (x.seq.repeat_ r).next })

def execWaitt (b : Nat) (abs : Bool) (time : Nat) (s : State) : Step := .next (waittOp s b abs time)

/-! ## Branches (R91 to R93, R103) -/

/-- What a condition is now: none while the state that it needs has not been delivered. -/
def Batch.condition (x : Batch) (c : Nat) : Option Bool :=
  if !lateCond c then some (x.seq.holds c)
  else if x.seq.emitted < x.site.matchDelay then some (x.front.2.lateHolds c x.seq.entry none)
  else x.seq.decided

/-- An instruction with a condition: it acts, does nothing more, or waits for the state through vector s = e − MATCH_DELAY (R93). -/
def State.conditional (s : State) (b : Nat) (i : PInstr) (c : Cond) (f : Batch → Seq → Batch) : State :=
  s.execute b i (fun x s =>
    match x.condition c.cond with
    | none => s.setBatch b { x with seq := { x.seq with wait := some (.late (x.seq.emitted - x.site.matchDelay)) } }
    | some v =>
      let q := { x.seq with decided := none }
      s.setBatch b (if condActs c v then f x q else { x with seq := q.next }))

/-- JMP. -/
def execJmp (b : Nat) (c : Cond) (target : Nat) (s : State) : Step :=
  .next (s.conditional b (.jmp c target) c (fun x q => { x with seq := { q with pc := target } }))

/-- CALL. -/
def execCall (b : Nat) (c : Cond) (target : Nat) (s : State) : Step :=
  .next (s.conditional b (.call c target) c (fun x q => { x with seq := { q with pc := target, calls := (q.pc + 1) :: q.calls } }))

/-- RET. -/
def Seq.return_ (q : Seq) : Seq :=
  match q.calls with
  | a :: as => { q with pc := a, calls := as }
  | [] => q.next

def execRet (b : Nat) (c : Cond) (s : State) : Step :=
  .next (s.conditional b (.ret c) c (fun x q => { x with seq := q.return_ }))

/-- HALT (R111): its effect boundary is the stop boundary. -/
def execHalt (b : Nat) (c : Cond) (s : State) : Step :=
  .next (s.conditional b (.halt c) c (fun x q => { x with seq := { q with halted := true } }.addCause 1 q.emitted))

/-! ## Effects outside the vectors -/

/-- FLAG (R101): CLRMASK first, then SETMASK, at once. -/
def execFlag (b setm clrm : Nat) (s : State) : Step :=
  .next (s.seqStep b (.flag setm clrm) (fun q => { q with flags := (q.flags &&& (65535 - clrm % 65536)) ||| setm }))

/-- SITEMASK (R102). -/
def execSitemask (b entry : Nat) (s : State) : Step := .next (s.seqStep b (.sitemask entry) (fun q => { q with entry := entry }))

/-- TRIG (R100). -/
def execTrig (b outs : Nat) (s : State) : Step := .next (s.seqStep b (.trig outs) (fun q => q.act 0 outs))

/-- The places that the marks before will take: of those in the mark buffer and of those that wait for their boundary, with the check
orders that go with them. -/
def Batch.marksHeld (x : Batch) : Nat :=
  let need := fun (order : Bool) => if order then 2 else 1
  (x.markBuf.map (fun m => need (m.2.2 != 0))).sum +
    ((x.seq.acts.filter (fun a => a.2.1 == 1)).map (fun a => need (x.flow.checks a.2.2))).sum

/-- Whether no place is left for one more pair: the free places of the event queue and the 16 of the mark buffer are all taken or
awaited by marks executed before (R99). Without a flow table the queue takes every pair (R339). -/
def State.marksFull (s : State) (b : Nat) (x : Batch) : Bool :=
  x.flow.loaded && decide (16 + (32 - s.sched.held b 0) ≤ x.marksHeld)

/-- MARK (R99). With no place left the sequencers wait at it, and one event is counted. -/
def markOp (s : State) (b code : Nat) : State :=
  s.execute b (.mark code) (fun x s =>
    if s.marksFull b x then
      if (x.seq.emitted, 4, x.seq.pc) ∈ x.seq.acts then s else s.setBatch b { x with seq := x.seq.act 4 x.seq.pc }
    else s.setBatch b { x with seq := (x.seq.act 1 code).next })

def execMark (b code : Nat) (s : State) : Step := .next (markOp s b code)

/-- PEACT (R98): the script starts at the effect boundary; the last vector repeats meanwhile. -/
def execPeact (b settle script : Nat) (s : State) : Step :=
  .next (s.seqStep b (.peact settle script) (fun q => { q.act 2 (script + 65536 * settle) with wait := some (.peact none) }))

/-- SYNC (R106): A_w is reported; a group of one is released at once. -/
def syncOp (s : State) (b timeout rdv t : Nat) : State :=
  s.execute b (.sync timeout rdv) (fun x s =>
    let aw := x.aw.1
    let w := if x.syncgrp == 0 then SeqWait.peact (some (aw.plus (70 * ns))) else .sync aw timeout rdv
    let s := (s.setBatch b { x with seq := { x.seq with wait := some w }.next }).at_ t
    if x.syncgrp == 0 then s else s.syncReport x.syncgrp b rdv timeout aw)

def execSync (b timeout rdv t : Nat) (s : State) : Step := .next (syncOp s b timeout rdv t)

/-- Vectors of a MATCH block that play whatever the decisions still open: repetitions up to the next one that may match and W
more, at most TIMEOUT (R180). -/
def matchReach (l timeout done w : Nat) : Nat := l * min timeout (done + 1 + w)

/-- MATCH (R105, R178, R180): the block plays; the sequencers wait for the decision. -/
def matchOp (s : State) (b seg timeout group : Nat) : State :=
  s.execute b (.mtch seg timeout group) (fun x s =>
    let l := x.segLen seg
    let q := x.seq
    let r := { q.fresh seg (matchReach l timeout 0 (matchW x.site.matchDelay l)) with mtch := q.emitted + 1 }
    s.setBatch b { x with
      seq := { q.push r l with wait := some (.mtch q.emitted l timeout group 0 none) }.next })

def execMatchBlock (b seg timeout group : Nat) (s : State) : Step := .next (matchOp s b seg timeout group)

/-! ## What members of a match group report (R173, R174, R178, R181) -/

/-- The batches of this device that decide a MATCH with Bb (R173): Bb alone for a local group, every batch whose START names it for a cellar
group. A member that has stopped is no member of the decision any more (DESIGN CHOICE, log 70). -/
def State.matchMembers (s : State) (b group : Nat) : List Nat :=
  if group < 128 then [b] else (s.batches.filter (fun p => p.2.active && p.2.cmgrp.testBit (group - 128))).map Prod.fst

/-- What a member reports of its block (R181), once it plays. -/
def Batch.blockOf (x : Batch) (group : Nat) : Option BlockRep :=
  match x.seq.wait with
  | some (.mtch _ _ _ g _ r) => if g == group then r else none
  | _ => none

/-- Whether the repetition that a member waits for is judged, and whether it matched on the slices here (R178). -/
def Batch.repDone (x : Batch) : Bool :=
  match x.seq.wait with
  | some (.mtch a l _ _ done _) => x.decidedTo (a + (done + 1) * l)
  | _ => false

def Batch.repMatched (x : Batch) : Bool :=
  match x.seq.wait with
  | some (.mtch a l _ _ done _) => !x.seq.missReps.contains (a + done * l + 1)
  | _ => false

/-- A block's report in a message (log 15). -/
def blockBytes (r : BlockRep) : List Byte :=
  timeBytes r.fs ++ le 8 r.n ++ le 8 r.d ++ r.per.bytes ++ le 4 r.l ++ le 4 r.timeout ++ le 2 r.delay

/-- The first VNUM of the repetition that a member waits for, once it is judged here. -/
def Batch.repReady (x : Batch) : Option Nat :=
  match x.seq.wait with
  | some (.mtch a l _ _ done _) => if x.repDone then some (a + done * l) else none
  | _ => none

/-- A message on the consensus virtual lane to the other devices of a match group: those that the DMASKs of its members here name. The
manual does not say which device's unit decides: each decides, from the same reports (log 22). -/
def State.tellMatch (s : State) (b group mtype : Nat) (body : List Byte) : State :=
  let mask := (s.matchMembers b group).foldl (fun m b => m ||| ((s.batch b).map (fun x => x.dmask)).getD 0) 0
  ((ones mask 64).filter (fun d => d != s.cdev)).foldl (fun s d => s.sendMsg (if d < s.cdev then 0 else 1) d 1 mtype (le 1 group ++ le 1 b ++ body)) s

/-- What a step from s to t has made Bb know of a cellar match group's block: the block's report once its first vector is handed over, and
the verdict of each repetition once it is judged here, sent on virtual lane 1 (R174, R181, R420). -/
def State.tellGroup (s t : State) (b : Nat) : State :=
  match s.batch b, t.batch b with
  | some x, some y => match y.seq.wait with
    | some (.mtch _ _ _ group _ (some r)) =>
      if group < 128 then t
      else
        let t := if x.blockOf group == some r then t else t.tellMatch b group 8 (blockBytes r)
        match y.repReady with
        | some v => if x.repReady == some v then t else t.tellMatch b group 9 (le 8 v ++ le 1 (b2n y.repMatched))
        | none => t
    | _ => t
  | _, _ => t

end Sys2Proof.Machine
end

