-- ==== Sys2Proof/Machine/Handover.lean ====
section
/-! DEFINITION. VECTOR_HANDOVER (04_sequencer.md R119; 05_timing_sets.md R135, R531): what takes effect at the boundary of the vector
handed over, the checks of the edge generators, and the take. -/

namespace Sys2Proof.Machine
open Sys2Proof

/-! ## The vector that is due -/

/-- A rendezvous or a PE script repeats the last vector for as long as it lasts (R98, R106): with nothing buffered, one more repeat. -/
def Batch.onDemand (x : Batch) : Batch :=
  match x.seq.buf, x.seq.wait with
  | [], some (.sync ..) => { x with seq := x.seq.repeat_ 1 }
  | [], some (.peact _) => { x with seq := x.seq.repeat_ 1 }
  | _, _ => x

/-- A run less its first vector. -/
def Run.rest (r : Run) (len : Nat) : Option Run :=
  if r.left ≤ 1 then none else some { r with left := r.left - 1, pos := if r.rpt || r.idle then r.pos else (r.pos + 1) % len }

/-- The buffer without its first vector. -/
def Batch.popBuf (x : Batch) : List Run :=
  match x.seq.buf with
  | [] => []
  | r :: rs => (r.rest (x.segLen r.seg)).toList ++ rs

/-- Whether the first vector of a run opens a segment: not a repeat, not a keep-alive vector. -/
def Run.opens (r : Run) : Bool := r.pos == 0 && !r.rpt && !r.idle

/-- Whether a run's first vector belongs to a granule of a stream that has had no decision yet (R82). -/
def Batch.undecided (x : Batch) (r : Run) : Bool :=
  (assoc x.segs r.seg).any (fun g => g.sparge) && !r.idle && !r.rpt &&
    decide (((assoc x.streams r.seg).map (fun t => t.decided)).getD 0 ≤ r.pos / 64)

/-! ## What takes effect at the boundary -/

/-- The waiters of a batch with their boundary vector v filled in where their grid time has come. -/
def State.tieWaiters (s : State) (b v : Nat) (a : Acc) : State :=
  let one := fun (w : Waiter) =>
    if w.b != b then w
    else match w.what with
      | .vector set t none => if a.atOrAfter t then { w with what := .vector set t (some v) } else w
      | .override t none => if a.atOrAfter t then { w with what := .override t (some v) } else w
      | .snapshot p (some t) none f => if a.atOrAfter t then { w with what := .snapshot p (some t) (some v) f } else w
      | _ => w
  { s with waits := s.waits.map one }

/-- Overrides and STALE markings whose boundary is v (R143, R150). -/
def Batch.changesDue (x : Batch) (v : Nat) : Batch :=
  let a := x.seq.hAcc
  let os := x.ovrNext.filter (fun q => a.atOrAfter q.1)
  let x := { x with
    ovr := (os.getLast?.map Prod.snd).getD x.ovr
    vo := if os.isEmpty then x.vo else some v
    ovrNext := x.ovrNext.filter (fun q => !a.atOrAfter q.1) }
  let y := (x.staleNext.filter (fun q => a.atOrAfter q.2)).foldl (fun (y : Batch) q => y.staleCopies q.1) x
  { y with staleNext := x.staleNext.filter (fun q => !a.atOrAfter q.2) }

/-- What a commit at vector v for T replaces. -/
def Batch.undoAt (x : Batch) (v t : Nat) : Undo := ⟨v, t, x.periods, x.sets, x.caches, x.segs, x.loops, x.masks⟩

/-- A commit whose boundary is v (R252): its items come into the tables for v, kept ready to be undone until v begins; the epoch and the
completions follow then. -/
def State.commitDue (s : State) (b v : Nat) : State :=
  match s.batch b with
  | some x => match x.ep.thr with
    | some t => if x.seq.hAcc.atOrAfter t then 
        (s.applyItems b).onBatch b (fun y => { y with undo := some (x.undoAt v t), ep := { y.ep with thr := none, due := true } }) else s
    | none => s
  | none => s

/-- Fail-off orders of a flow whose V_off is v (R333). -/
def State.checksDue (s : State) (b v : Nat) : State :=
  match s.batch b with
  | none => s
  | some x =>
    let due := x.checks.filter (fun q => x.seq.hAcc.atOrAfter q.2.1)
    let chans := s.channels b
    let y := { x with checks := x.checks.filter (fun q => !x.seq.hAcc.atOrAfter q.2.1) }
    s.setBatch b (due.foldl (fun (y : Batch) q => y.holdOff chans q.1 v q.2.2) y)

/-- Every change at the boundary of the vector to hand over: waiting commands get their VNUM, then override and STALE marking, the
commit, the selections of TSET, and at a segment's first vector the calibration swaps (R94, R143, R150, R231, R252). -/
def State.boundaryChanges (s : State) (b v : Nat) (a : Acc) (r : Run) : State :=
  let s := (((s.tieWaiters b v a).checksDue b v).onBatch b (fun x => x.changesDue v)).commitDue b v
  let s := s.onBatch b (fun x => x.selectSets (s.channels b) (s.slices b) v)
  if r.opens then s.swapsAtBoundary b v else s

/-! ## The checks and the take -/

/-- PIPELINE_STARVED at vector v, found on a slice: the record names the slice, v and the program address (R119). -/
def State.starve (s : State) (b sl v : Nat) : State :=
  let pc := ((s.batch b).map Batch.address).getD 0
  (s.batchFaultRec b 2 (0x0100 + b) v v (.starved sl v pc)).count 0x0103 1 (Ev.ofS b sl)

/-- The same where all slices are late together: the slices run in lockstep, and the lowest stands for them (log 7). -/
def State.starveAll (s : State) (b v : Nat) : State := s.starve b (s.lowSlice b) v

/-- The halt steps of R55 for a breach found in vector v: batch fault k at V_h, DETAIL v, one event of a source; the record holds the
channel where one offends, v and V_h. -/
def State.halt (s : State) (b k src v : Nat) (lch : Option Nat) : State :=
  match s.batch b with
  | some x => (s.batchFaultRec b k (0x0100 + b) v x.vh (.timing lch v x.vh)).count src 1 (Ev.ofB b)
  | none => s

/-- A list of answers, all present. -/
def allSome {α : Type} : List (Option α) → Option (List α)
  | [] => some []
  | none :: _ => none
  | some a :: l => (allSome l).map (fun m => a :: m)

/-- Whether a fetch from a stack cannot be served now: parked, frozen, in a full training (R363, R367, R373). -/
def State.noFetch (s : State) (sl : Nat) : Bool :=
  s.stackOffline (sl / 8) || (s.stack (sl / 8)).frozen || (s.stack (sl / 8)).retraining

/-- The fetch of a DRAM segment's granule on every slice: what it leaves, and whether the vector can be taken. A stack that does not serve
it starves the batch, a granule outside the regions is MEM_BOUNDS (R240), and each word is checked: poison halts the batch with this
vector (R365). Repeats and keep-alive vectors fetch nothing. -/
def State.fetchVec (s : State) (b : Nat) (g : Seg) (r : Run) (slices : List Nat) : State × Bool :=
  let v := ((s.batch b).map (fun x => x.seq.hNext)).getD 0
  if g.loopStore || g.sparge || r.idle || r.rpt then (s, true)
  else match slices.find? s.noFetch with
    | some sl => (s.starve b sl v, false)
    | none =>
      if slices.any (fun sl => !s.inRegion b (g.dramAddr sl r.pos) g.gbytes) then (s.batchFault b 9, false)
      else
        (slices.foldl (fun s sl => s.checkWords (.play b v) b 0 (g.dramAddr sl r.pos) g.gbytes) s,
          !slices.any (fun sl => s.poisoned (g.dramAddr sl r.pos) g.gbytes))

/-- The first channel of a slice that carries an illegal code in a vector. -/
def SliceVec.illegal (w : SliceVec) : Option Nat := (w.codes.findIdx? (fun a => decide (10 < a))).map (fun i => 16 * w.sl + i % 16)

/-- The breach that a vector's timing sets and actions hold: batch fault, counter source, channel (R64, R67, R141). An illegal code halts
the batch also on a channel in fail-off, whose edges are not formed (DESIGN CHOICE, log 44). -/
def Batch.setBreach (x : Batch) (g : Seg) (ws : List SliceVec) : Option (Nat × Nat × Option Nat) :=
  if g.tssel && ws.any (fun w => (assoc x.sets w.set).any (fun t => t.peridx != g.peridx)) then some (11, 0x0101, none)
  else if g.tssel && ws.any (fun w => x.missesOn w.set w.sl) then some (12, 0x0101, none)
  else (ws.findSome? SliceVec.illegal).map (fun l => (1, 0x0102, some l))

/-- The most recent selection of each slice's caches under TSSEL (R139). -/
def Batch.touchSets (x : Batch) (g : Seg) (ws : List SliceVec) : Batch :=
  if !g.tssel then x
  else
    let one := fun (m : Tab (List CacheE)) (w : SliceVec) =>
      (List.range 16).foldl (fun (m : Tab (List CacheE)) c => m.set [] (16 * w.sl + c) (cacheHit (Tab.get [] m (16 * w.sl + c)) w.set)) m
    { x with caches := ws.foldl one x.caches }

/-- The channels of a batch with their places, and what each takes. -/
def State.takeAll (s : State) (x : Batch) (k : Take) (ws : List SliceVec) (chans : List Nat) : List (Nat × ChanTake × Bool) :=
  (chans.mapIdx (fun i l => (i, l))).filterMap (fun q =>
    (ws.find? (fun w => w.sl == q.2 / 16)).map (fun w =>
      (q.2, s.takeChan x k w (x.site.siteAt q.1) q.1 q.2, x.denAfter k w q.2)))

/-- The vector as the edge generators hold it until it begins. -/
def Batch.handed (x : Batch) (k : Take) (ws : List SliceVec) (chans : List Nat) (err : Int) (errDen : Nat) : HVec :=
  let stream := k.g.sparge && !k.r.idle && !k.r.rpt
  { vnum := k.v, acc := k.a, per := k.p, dm := k.dm
    groups := x.groupsOf k ws chans (x.segLen k.r.seg)
    trigs := if k.r.opens then k.g.trig else 0
    err := err, errDen := errDen
    granule := if stream && k.r.pos % 64 == 0 then some (k.r.seg, k.r.pos / 64) else none
    idle := if k.r.idle then some k.r.seg else none
    final := if stream && k.r.pos + 1 == k.g.length then some k.r.seg else none
    sets := ws.map (fun w => (w.sl, w.set)) }

/-- Granules of a stream before the one that plays are gone. -/
def Batch.pruneStream (x : Batch) (k : Take) : List (Nat × Stream) :=
  if k.g.sparge && !k.r.idle then
    x.streams.map (fun p => if p.1 == k.r.seg then (p.1, { p.2 with data := p.2.data.filter (fun d => decide (k.r.pos / 64 ≤ d.1)) }) else p)
  else x.streams

/-- The report of a match block whose first vector is handed over (R181). -/
def SeqWait.withBlock (w : SeqWait) (delay : Nat) (k : Take) : SeqWait :=
  match w with
  | .mtch a l timeout group done none => if k.v == a then .mtch a l timeout group done (some ⟨k.a.fs, k.a.n, k.a.d, k.p, l, timeout, delay⟩) else w
  | w => w

/-- The vector taken: its edges enqueued, its strobes awaiting their begin, the accumulator at its end (R38, R42, R135). -/
def Batch.take (x : Batch) (k : Take) (ws : List SliceVec) (chans : List Nat) (cs : List (Nat × ChanTake × Bool)) (err : Int)
    (errDen : Nat) : Batch :=
  let h := x.handed k ws chans err errDen
  let q := { x.seq with
    buf := x.popBuf
    hNext := k.v + 1, hAcc := k.a.advance k.p, hPer := some k.p
    flight := x.seq.flight ++ [h]
    drv := (cs.filter (fun c => c.2.1.held)).map Prod.fst
    den := (cs.filter (fun c => c.2.2)).map Prod.fst
    held := some (k.g, ws)
    wait := x.seq.wait.map (fun w => w.withBlock x.site.matchDelay k) }
  let y := x.touchSets k.g ws
  { y with
    seq := q
    edges := x.edges ++ cs.flatMap (fun c => c.2.1.edges)
    lastEdge := cs.flatMap (fun c => c.2.1.last)
    streams := x.pruneStream k }

/-- What the slices play of the vector at the head of a run, with its descriptor: the last vector again for a repeat (R96). -/
def State.vecOf (s : State) (x : Batch) (r : Run) (slices : List Nat) : Option (Seg × List SliceVec) :=
  if r.rpt then x.seq.held.map (fun h => ({ h.1 with peridx := x.runEntry r }, repeatVec h.1 h.2 r))
  else (assoc x.segs r.seg).bind (fun g => (allSome (slices.map (s.sliceVec x g r))).map (fun ws => (g, ws)))

/-- The take of vector v with its data on every slice, or the fault in its place. -/
def State.takeWith (s : State) (b : Nat) (x : Batch) (r : Run) (v : Nat) (p : Per) (g : Seg) (ws : List SliceVec) : State :=
  let chans := s.channels b
  match x.setBreach g ws with
  | some f => s.halt b f.1 f.2.1 v f.2.2
  | none =>
    let c := x.seq.hAcc.convert p.d
    let k : Take := ⟨v, r, g, c.1, p, s.free⟩
    let cs := s.takeAll x k ws chans
    match cs.find? (fun c => c.2.1.broken) with
    | some c => s.halt b 0 0x0101 v (some c.1)
    | none => { s with free := s.free + chans.length }.setBatch b (x.take k ws chans cs c.2 (x.seq.hAcc.d * p.d))

/-- The take of vector v, or the fault in its place. -/
def State.takeVector (s : State) (b : Nat) (x : Batch) (r : Run) (v : Nat) : State :=
  let slices := s.slices b
  match assoc x.segs r.seg, effPer x.periods x.ovr (x.runEntry r) with
  | some g, some p =>
    let f := s.fetchVec b g r slices
    if !f.2 then f.1
    else match f.1.vecOf x r slices with
      | none => f.1.starveAll b v
      | some w => f.1.takeWith b x r v p w.1 w.2
  | _, _ => s.starveAll b v

/-- Whether a limit of the batch or of a site could still name a boundary at or before v, or a flow's order for V_off = v needs a state not
delivered yet: the strobes of the vectors that decide it are not all judged, and the sequencers wait (R164, R165, R177, R333). A
decision that is still open at the handover starves the pipeline (DESIGN CHOICE, log 70). -/
def Batch.limitsOpen (x : Batch) (v : Nat) : Bool :=
  x.checks.any (fun q => x.seq.hAcc.atOrAfter q.2.1 && !x.decidedTo (q.2.2 + 1)) ||
  (x.site.blimit != 0 || List.any x.site.sites (fun (p : Nat × Site) => p.2.failoffEn && p.2.slimit != 0)) &&
    decide (x.site.matchDelay ≤ v) && !x.decidedTo (v - x.site.matchDelay + 1)

/-- VECTOR_HANDOVER: at t_v − 60 ns the next vector is taken, unless a stop comes first. A granule of a stream is decided before
(R82); a decision of a limit that is late at that time starves the pipeline (R177). -/
def vectorHandover (s : State) (b : Nat) : State :=
  match s.batch b with
  | none => s
  | some x0 =>
    let x := x0.resumed.onDemand
    let v := x.seq.hNext
    if !x.active || x.stopAt.any (fun w => decide (w ≤ v)) then s
    else
      let s1 := (s.at_ (x.seq.hAcc.fs - 60 * ns)).setBatch b x
      match x.seq.buf with
      | [] => s1.starveAll b v
      | r :: _ =>
        if x.undecided r then s
        else if x.limitsOpen v then s1.starveAll b v
        else
          let s2 := s1.onBatch b Batch.stopsDue
          if (s2.batch b).any (fun y => y.stopAt.any (fun w => decide (w ≤ v))) then s2
          else
            let s3 := s2.boundaryChanges b v x.seq.hAcc r
            match s3.batch b with
            | some y => s3.tellGroup (s3.takeVector b y (y.seq.buf.headD r) v) b
            | none => s3

def execVectorHandover (b : Nat) (s : State) : Step := .next (vectorHandover s b)

end Sys2Proof.Machine
end

