-- ==== Sys2Proof/Machine/Running.lean ====
section
/-! DEFINITION. A vector begins at the pins, edges fire, marks are posted, and the granules of sparge streams are decided, fetched and
refilled (02_time_arithmetic.md R44, R57; 03_vector_data.md R78 to R84; 04_sequencer.md R94, R98 to R100; R137, R530). -/

namespace Sys2Proof.Machine
open Sys2Proof

/-! ## Trigger outputs (R78, R79, R100) -/

/-- Quantised grid time in 1/2048 fs (R49). -/
def gridPoint (fs n dm : Nat) : Nat := (quantise fs n dm).1 * cycle * 2048 + (quantise fs n dm).2 * 15625

/-- Whether a pulse that rises at `rise` and falls at `fall` meets another: they overlap, or one starts less than 2 ns after the other's
end (R79). -/
def meets (rise fall : Nat) (p : Nat × Nat) : Bool := decide (rise < p.2 + 2 * ns * 2048) && decide (p.1 < fall + 2 * ns * 2048)

/-- One pulse on an output: the output is high from the earliest rise to the latest fall of the pulses that meet (R79). Pulses that ended
more than 2 ns before the vector's start meet no later one. -/
def State.pulse (s : State) (b : Nat) (h : HVec) (o : Nat) : State :=
  let t := s.trigO o
  if t.disabled then s
  else
    let rise := gridPoint (h.acc.fs + t.offset) (h.acc.n * (h.dm / h.acc.d)) h.dm
    let fall := rise + t.width * ns * 2048
    let ps := t.pulses.filter (fun p => decide (h.acc.fs * 2048 ≤ p.2 + 2 * ns * 2048))
    let met := ps.filter (meets rise fall)
    let one := (met.foldl (fun m p => min m p.1) rise, met.foldl (fun m p => max m p.2) fall)
    let s := { s with trigOut := s.trigOut.set TrigOut.zero o { t with pulses := ps.filter (fun p => !meets rise fall p) ++ [one] } }
    if met.isEmpty then s else s.count 0x0106 met.length (Ev.ofB b)

/-- Whether an output is high at a grid time in 1/2048 fs (R78). -/
def TrigOut.high (t : TrigOut) (at_ : Nat) : Bool := !t.disabled && t.pulses.any (fun p => decide (p.1 ≤ at_) && decide (at_ < p.2))

/-- The pulses of a mask of outputs. -/
def State.pulses (s : State) (b : Nat) (h : HVec) (outs : Nat) : State := (ones outs 8).foldl (fun s o => s.pulse b h o) s

/-! ## Actions at an effect boundary (R94) -/

/-- The pair of a MARK goes to the event queue, with the check that it orders: 1, or 2 where the run has stopped since (R99, R333). -/
def State.postMark (s : State) (b v code order : Nat) : State :=
  let s := s.postEvent b 0 4 (le 8 v ++ le 2 code ++ le 6 0)
  if order == 0 then s else s.enqueue ⟨b, 0, 0, 0, .check v (order == 2), none⟩

/-- A MARK whose boundary has come. The pair waits in the mark buffer where the queue cannot take it; one that finds the 16 places
taken stands with the sequencers, which wait for it (R99; log 71). -/
def State.markAt (s : State) (b v code : Nat) : State :=
  match s.batch b with
  | none => s
  | some x =>
    let order := b2n (x.flow.checks code)
    if s.queueFull b 0 || !x.markBuf.isEmpty then
      let s := s.setBatch b { x with markBuf := x.markBuf ++ [(v, code, order)] }
      if 16 ≤ x.markBuf.length then s.count 0x0105 1 (Ev.ofS b (s.lowSlice b)) else s
    else s.postMark b v code order

/-- The script of a PEACT starts (R98); SETTLE 0 takes the script's own. -/
def State.peactAt (s : State) (b v : Nat) : State :=
  let n := v % 65536
  let settle := if v / 65536 == 0 then ((s.script n).map (fun x => x.settle)).getD 0 else v / 65536
  s.startRun ⟨n, 0, b, settle, s.channels b, [], (0, 0), 0⟩

/-- One action of a boundary. -/
def State.actAt (s : State) (b : Nat) (h : HVec) (a : Nat × Nat × Nat) : State :=
  match a.2.1 with
  | 0 => s.pulses b h a.2.2
  | 1 => s.markAt b h.vnum a.2.2
  | 2 => s.peactAt b a.2.2
  | 3 => s.count 0x0104 1 (Ev.ofS b a.2.2)
  | 4 => s.count 0x0105 1 (Ev.ofS b (s.lowSlice b))
  | _ => s

/-! ## VECTOR_BEGIN -/

/-- RESERR after a conversion (R44). -/
def Batch.addResidue (x : Batch) (err : Int) (den : Nat) : Batch :=
  let v := x.reserr + rhe (err * 65536) den
  { x with
    reserr := max (-2147483648) (min 2147483647 v)
    reserrSat := x.reserrSat || decide (v < -2147483648) || decide (2147483647 < v) }

/-- The residue conversion at a vector's boundary. -/
def State.residue (s : State) (b : Nat) (h : HVec) : State :=
  if h.err = 0 then s else (s.onBatch b (fun x => x.addResidue h.err h.errDen)).count 0x0100 1 (Ev.ofB b)

/-- The sequencers as the vector begins: VNUM, accumulator at its end, its strobes awaiting their decisions. -/
def Batch.begin_ (x : Batch) (h : HVec) (rest : List HVec) : Batch :=
  let q := { x.seq with flight := rest, begun := h.vnum + 1, begunAt := h.acc.fs, begunSets := h.sets, acc := h.acc.advance h.per, acts := x.seq.acts.filter (fun a => a.1 != h.vnum) }
  { x with seq := q, awaiting := x.awaiting ++ h.groups, undo := x.undo.filter (fun u => decide (h.vnum < u.v)) }

/-- A stream's counts as one of its vectors begins (R80, R84, R85). -/
def State.streamBegin (s : State) (b : Nat) (seg : Option Nat) (f : Stream → Stream) : State :=
  match seg, s.batch b with
  | some g, some x => match assoc x.streams g with
    | some t => s.setStream b g (f t)
    | none => s
  | _, _ => s

/-- PLAY, IDLE and DONE. -/
def State.streamsBegin (s : State) (b : Nat) (h : HVec) : State :=
  let s := s.streamBegin b (h.granule.map Prod.fst) (fun t => { t with play := (h.granule.map Prod.snd).getD 0 + 1 })
  let s := s.streamBegin b h.idle (fun t => { t with idle := t.idle + 1 })
  s.streamBegin b h.final (fun t => { t with done := true })

/-- TS_INVALIDATE and PERIOD_LOAD whose boundary is v complete with it (R306, R321, R530). -/
def State.releaseAt (s : State) (b v : Nat) : State :=
  s.release (fun w => w.b == b && match w.what with
    | .vector _ _ (some u) => u == v
    | .override _ (some u) => u == v
    | _ => false) OK 0 (le 8 v)

/-- The first vector in flight begins. -/
def State.beginVector (s : State) (b : Nat) (x : Batch) (h : HVec) (rest : List HVec) : State :=
  let s := (s.at_ h.acc.fs).freezeSnaps b h.acc.fs h.sets
  let s := (s.setBatch b ((x.begin_ h rest).offsBegin (s.channels b) h.vnum)).residue b h
  let s := (s.streamsBegin b h).pulses b h h.trigs
  let s := (x.seq.acts.filter (fun a => a.1 == h.vnum)).foldl (fun s a => s.actAt b h a) s
  let s := s.releaseAt b h.vnum
  let s := if x.finalDue h.vnum then (s.onBatch b (fun x => x.committed h.vnum)).finalOk b else s
  (s.settlePins b).settleSnaps b

/-- VECTOR_BEGIN: of a RUNNING batch, unless a stop comes first (R57, R110). -/
def vectorBegin (s : State) (b : Nat) : State :=
  match s.batch b with
  | none => s
  | some x =>
    match x.seq.flight with
    | [] => s
    | h :: rest => if x.state != 3 || x.stopAt.any (fun w => decide (w ≤ h.vnum)) then s else s.tellGroup (s.beginVector b x h rest) b

def execVectorBegin (b : Nat) (s : State) : Step := .next (vectorBegin s b)

/-! ## EDGE_FIRE (R137) -/

/-- What an edge does at the output of its line: DRV level, DEN on or off; a strobe or window edge changes no pin. -/
def State.firePin (s : State) (e : Edge) : State :=
  let c := s.pcell e.lch
  if e.line == 0 then { s with drvPins := s.drvPins.set false c (e.act == 1) }
  else if e.line == 1 then { s with denPins := s.denPins.set false c (e.act == 3) }
  else s

/-- EDGE_FIRE: the head of a line's queue fires; a channel that has no edge left and must be safe takes its safe state (R138). -/
def edgeFire (s : State) (lch line : Nat) : State :=
  let b := s.sliceOwner.get 0 (lch / 16)
  match s.batch b with
  | none => s
  | some x =>
    match x.edges.find? (fun e => e.lch == lch && e.line == line) with
    | none => s
    | some e => ((((s.at_ e.fs).setBatch b { x with edges := x.edges.erase e }).firePin e).settlePins b).observe e

def execEdgeFire (lch line : Nat) (s : State) : Step := .next (edgeFire s lch line)

/-! ## MARK_POST (R99) -/

/-- MARK_POST: the oldest pair of the mark buffer, once the event queue has room. -/
def markPost (s : State) (b : Nat) : State :=
  match s.batch b with
  | none => s
  | some x =>
    match x.markBuf with
    | [] => s
    | m :: ms => if s.queueFull b 0 then s else (s.setBatch b { x with markBuf := ms }).postMark b m.1 m.2.1 m.2.2

def execMarkPost (b : Nat) (s : State) : Step := .next (markPost s b)

/-! ## SPARGE_DEADLINE (R82 to R84) -/

/-- A sparge run of the buffer that holds the first vector of a granule without a decision: the runs before it, the run, vectors of it
before the granule. -/
def Batch.nextGranule (x : Batch) : List Run → List Run → Option (List Run × Run × Nat × List Run)
  | _, [] => none
  | before, r :: rs =>
    let t := assoc x.streams r.seg
    let j := (t.map (fun t => t.decided)).getD 0
    let g := assoc x.segs r.seg
    if g.any (fun g => g.sparge) && t.isSome && !r.idle && !r.rpt && decide (r.pos ≤ 64 * j) && decide (64 * j < r.pos + r.left) then
      some (before, r, 64 * j - r.pos, rs)
    else x.nextGranule (before ++ [r]) rs

/-- The due time of the vector after some runs (R82). -/
def Batch.dueAfter (x : Batch) (rs : List Run) : Nat := (x.walk rs).1.fs

/-- A run of 64 keep-alive vectors in place of a granule (R84). -/
def Run.keepAlive (r : Run) : Run := { r with left := 64, rpt := false, idle := true }

/-- What a sequencer waits for, 64 vectors later. -/
def SeqWait.later (w : SeqWait) (v : Nat) : SeqWait :=
  match w with
  | .late s => .late (s + 64)
  | .mtch a l t g d r => .mtch (if v < a then a + 64 else a) l t g d r
  | w => w

/-- A period source that names an effect boundary past v, 64 vectors later. -/
def laterPer (v p : Nat) : Nat := if 256 + v < p then p + 64 else p

/-- A run of the buffer, 64 vectors later. -/
def Run.later (r : Run) (v : Nat) : Run := { r with mtch := if r.mtch == 0 then 0 else r.mtch + 64, per := laterPer v r.per }

/-- Keep-alive vectors put in at VNUM v: everything that the sequencers have emitted from v on comes 64 vectors later, and so do the actions
and the HALT boundary past v. What takes effect at v itself does so with the first keep-alive vector, which plays at the period and the set
in force there (R85, R94; DEDUCED, log 43). -/
def Batch.idleFill64 (x : Batch) (before : List Run) (r : Run) (n : Nat) (rs : List Run) (v : Nat) : Batch :=
  let head := if n == 0 then [] else [{ r with left := n }]
  let tail : Run := { r with left := r.left - n, pos := r.pos + n }
  let q := { x.seq with
    buf := before ++ head ++ [r.keepAlive, tail] ++ rs.map (fun r => r.later v)
    last := x.seq.last.map (fun r => { r with per := laterPer v r.per })
    per := laterPer v x.seq.per
    emitted := x.seq.emitted + 64
    wait := x.seq.wait.map (fun w => w.later v)
    acts := x.seq.acts.map (fun a => if v < a.1 then (a.1 + 64, a.2) else a) }
  { x with seq := q, causes := x.causes.map (fun c => if c.1 == 1 && decide (v < c.2) then (c.1, c.2 + 64) else c) }

/-- The stream's decision on its next granule (R82): FILL covers it, or it is under-run. The under-run marks the stream's results INVALID also
under UNDERRUN_POLICY = HALT, of which R84 does not speak (DESIGN CHOICE, log 70). -/
def State.decideGranule (s : State) (b : Nat) (x : Batch) (before : List Run) (r : Run) (n : Nat) (rs : List Run) (t : Stream) : State :=
  let v := x.seq.hNext + runsLen before + n
  if t.decided < t.fill then s.setStream b r.seg { t with decided := t.decided + 1 }
  else
    let s := (s.setStream b r.seg { t with underrun := true, invalid := true }).count 0x0107 1 (Ev.ofB b)
    if x.idleFill then s.onBatch b (fun y => y.idleFill64 before r n rs v) else s.batchFaultAt b 3 (0x0100 + b) v

/-- SPARGE_DEADLINE: 480 ns before the first vector of a granule is due. A run that has stopped decides nothing. -/
def spargeDeadline (s : State) (b : Nat) : State :=
  match s.batch b with
  | none => s
  | some x =>
    if !x.active then s
    else match x.nextGranule [] x.seq.buf with
      | none => s
      | some (before, r, n, rs) =>
        let v := x.seq.hNext + runsLen before + n
        if x.stopAt.any (fun w => decide (w ≤ v)) then s
        else
          let part := if n == 0 then [] else [{ r with left := n }]
          let s := s.at_ (x.dueAfter (before ++ part) - 480 * ns)
          match assoc x.streams r.seg with
          | some t => s.decideGranule b x before r n rs t
          | none => s

def execSpargeDeadline (b : Nat) (s : State) : Step := .next (spargeDeadline s b)

/-! ## SPARGE_FETCH_DONE (R80, R82) -/

/-- BAR2 offset of the ring slot of granule j on a slice. -/
def Seg.ringAddr (g : Seg) (sl j : Nat) : Nat := stackAddr sl ((g.part sl).addr + j % max 1 g.ringgran * g.gbytes)

/-- The VNUM of vector `pos` of a segment's play in the output buffer, V_h where the buffer does not hold it (R365). -/
def Batch.vnumOf (x : Batch) (seg pos : Nat) : Nat :=
  let rec go (v : Nat) : List Run → Option Nat
    | [] => none
    | r :: rs => if r.seg == seg && !r.idle && !r.rpt && decide (r.pos ≤ pos) && decide (pos < r.pos + r.left) then some (v + (pos - r.pos)) else go (v + r.left) rs
  (go x.seq.hNext x.seq.buf).getD x.vh

/-- SPARGE_FETCH_DONE: the next granule that is to play has been fetched on every slice, and RELEASE advances; a fetch outside the
regions or of poisoned data halts the batch (R240, R365). -/
def spargeFetchDone (s : State) (b seg : Nat) : State :=
  match s.batch b with
  | none => s
  | some x =>
    match assoc x.streams seg, assoc x.segs seg with
    | some t, some g =>
      let j := t.release
      let slices := s.slices b
      if t.decided ≤ j || slices.any s.noFetch then s
      else if slices.any (fun sl => !s.inRegion b (g.ringAddr sl j) g.gbytes) then s.batchFault b 9
      else
        let u := slices.foldl (fun s sl => s.checkWords (.play b (x.vnumOf seg (64 * j))) b 0 (g.ringAddr sl j) g.gbytes) s
        if slices.any (fun sl => s.poisoned (g.ringAddr sl j) g.gbytes) then u
        else
          let d := (j, slices.map (fun sl => (sl, s.peek (g.ringAddr sl j) g.gbytes)))
          u.setStream b seg { t with release := j + 1, data := t.data ++ [d] }
    | _, _ => s

def execSpargeFetchDone (b seg : Nat) (s : State) : Step := .next (spargeFetchDone s b seg)

/-! ## FILL_WRITE (R81) -/

/-- FILL_WRITE: a value above LENGTH/64 counts as LENGTH/64; one lower than the value held, or above RELEASE + RINGGRAN, is refused. -/
def fillWrite (s : State) (b seg value : Nat) : State :=
  match s.batch b with
  | none => s
  | some x =>
    match assoc x.streams seg, assoc x.segs seg with
    | some t, some g =>
      let v := min value (g.length / 64)
      if v < t.fill || t.release + g.ringgran < v then (s.setStream b seg { t with fillErr := true }).count 0x0108 1 (Ev.ofB b)
      else s.setStream b seg { t with fill := v }
    | _, _ => s

def execFillWrite (b seg value : Nat) (s : State) : Step := .next (fillWrite s b seg value)

end Sys2Proof.Machine
end

