-- ==== Sys2Proof/Machine/Compare.lean ====
section
/-! DEFINITION. Judging strobes and windows, forming fail records, limits and fail-off, fail memory, and the consensus on match blocks
and late conditions (06_compare_and_fails.md R151 to R181; 04_sequencer.md R93, R114). -/

namespace Sys2Proof.Machine
open Sys2Proof

/-! ## One strobe or window (R151 to R153, R160) -/

/-- The comparator state that CMH and CML show (R151): 0 L, 1 M, 2 H, 3 comparator disagreement. -/
def cmpState (cmh cml : Bool) : Nat :=
  match cmh, cml with
  | false, false => 0
  | false, true => 1
  | true, true => 2
  | true, false => 3

/-- The state at the strobe or at the window's open, and every state that the detectors registered from there to the close, in order. -/
def firstState (o : Obs) : Nat := cmpState o.cmh o.cml
def obsStates (o : Obs) : List Nat := firstState o :: o.later.map (fun p => cmpState p.1 p.2)

/-- What a strobe or window of an expect came to. -/
inductive Verdict where
  | pass
  | fail (actual : Nat)
  | disagree
deriving DecidableEq, Repr

/-- The judgement of an observation (R152, R153, R160): a disagreement anywhere judges nothing; an EV window fails on any transition with
M; else the first state that does not satisfy the expect fails. `forced`: an injected inversion of the comparator-state check. -/
def judgeObs (t : Strobe) (o : Obs) (forced : Bool) : Verdict :=
  let ss := if t.window then obsStates o else [firstState o]
  if forced || ss.contains 3 then .disagree
  else if t.window && t.act == 7 && !o.later.isEmpty then .fail 1
  else match ss.find? (fun v => !satisfies t.act v) with
    | some v => .fail v
    | none => .pass

/-- CMP_DISAGREE from the channel's cell, counted (R152, R451). -/
def State.disagreed (s : State) (b lch : Nat) (forced : Bool) : State :=
  let src := 0x100 + s.pcell lch
  let s := if forced then s.useInject (16 * src + 2) else s
  (s.raiseFree src (0x0200 + if forced then 32768 else 0) false).count 0x0200 1 (Ev.ofC b lch)

/-- The fails of a unit interval, ascending by site: channel, strobe, state reported. -/
def failsOf (fs : List (Nat × Strobe × Nat)) (site : Nat) : List (Nat × Strobe × Nat) := fs.filter (fun f => f.1 == site)

/-- A field of two bits per channel. -/
def twoBits (l : List (Nat × Nat)) : Nat := l.foldl (fun m p => m + p.2 * 4 ^ p.1) 0

/-- The record of one site's fails in a group (R157, R159); SITEFIRST comes when its place in the order is known. -/
def recordOf (g : Group) (site : Nat) (fs : List (Nat × Strobe × Nat)) : FailRec :=
  ⟨g.vnum, g.addr, if g.inLoop then g.iter else 0, g.k, g.sl, fs.foldl (fun m f => m + 2 ^ f.2.1.ch) 0,
    twoBits (fs.map (fun f => (f.2.1.ch, f.2.1.act - 4))), twoBits (fs.map (fun f => (f.2.1.ch, f.2.2))), site,
    b2n g.inLoop + 2 * b2n (fs.any (fun f => f.2.1.window))⟩

/-- The key of R158. -/
def FailRec.key (r : FailRec) : List Nat := [r.vnum, r.k, r.sl, r.site]

/-- Lexicographic order of keys. -/
def keyLt : List Nat → List Nat → Bool
  | a :: as, b :: bs => decide (a < b) || (a == b && keyLt as bs)
  | [], _ :: _ => true
  | _, [] => false

/-- A record placed in order. -/
def sortRec (r : FailRec) : List FailRec → List FailRec
  | [] => [r]
  | x :: l => if keyLt r.key x.key then r :: x :: l else x :: sortRec r l

/-! ## Records get their place (R162 to R166) -/

/-- Limits at the place of a record: position in the batch, and in its site. -/
def Batch.overLimit (x : Batch) (pos : Nat) (t : Site) (isSite : Bool) : Bool :=
  (x.site.blimit != 0 && decide (x.site.blimit < pos)) || (isSite && t.slimit != 0 && decide (t.slimit < t.recs + 1))

/-- The site's registers with one more record, held whole: a reader takes SITE_RECS mod 2^32 and SITE_FAILS mod 2^48 (log 46); channels of no site keep only the first failing VNUM (R155). -/
def Site.addRec (t : Site) (r : FailRec) (isSite : Bool) : Site :=
  let v := some (t.firstV.getD r.vnum)
  if isSite then
    { t with fails := t.fails + r.lchs.length, recs := t.recs + 1, first := some (t.first.getD r.bytes), firstV := v }
  else { t with firstV := v }

/-- One record takes its place: limit and first-record rules, then it waits for its fail-memory write. -/
def Batch.place (x : Batch) (chans : List Nat) (r : FailRec) : Batch :=
  let isSite := decide (r.site < 512)
  let t := x.site.site r.site
  let r := if isSite && t.first.isNone then { r with flags := r.flags + 4 } else r
  let pos := x.counts.recFormed + x.formed.length + 1
  let full := decide (256 ≤ (x.formed.filter (fun f => f.fr.sl == r.sl)).length)
  let y := { x with
    formed := x.formed ++ [⟨r, x.overLimit pos t isSite, full⟩]
    site := { x.site with sites := x.site.sites.set Site.zero r.site (t.addRec r isSite) } }
  let y := if x.site.blimit != 0 && pos == x.site.blimit then y.addCause 3 (r.vnum + x.site.matchDelay) else y
  if isSite && t.slimit != 0 && t.recs + 1 == t.slimit && t.failoffEn then y.failOff chans r.site (r.vnum + x.site.matchDelay) r.vnum else y

/-- Whether every group that comes before a record in the order has been judged. -/
def Batch.ripe (x : Batch) (r : FailRec) : Bool :=
  x.awaiting.all (fun g => g.strobes.isEmpty || keyLt r.key [g.vnum, g.k, g.sl, 0])

/-- Records whose place is known leave the slice buffers in the order of R158. -/
def Batch.placeAll (x : Batch) (chans : List Nat) : Nat → Batch
  | 0 => x
  | n + 1 =>
    match x.forming with
    | [] => x
    | r :: rs => if x.ripe r then (({ x with forming := rs } : Batch).place chans r).placeAll chans n else x

/-! ## COMPARE_DECISION -/

/-- The capture record of a group (R161). -/
def captureBytes (g : Group) (cs : List (Strobe × Obs)) : List Byte :=
  le 8 g.vnum ++ le 2 g.addr ++ le 1 g.k ++ le 1 g.sl ++ le 2 (cs.foldl (fun m c => m + 2 ^ c.1.ch) 0) ++
    le 4 (twoBits (cs.map (fun c => (c.1.ch, firstState c.2)))) ++
    le 2 ((cs.filter (fun c => c.1.window && !c.2.later.isEmpty)).foldl (fun m c => m + 2 ^ c.1.ch) 0) ++ le 12 0

/-- A record written to the capture ring of the slice's quadrant, or lost (R161, R240). -/
def State.capture (s : State) (b : Nat) (g : Group) (cs : List (Strobe × Obs)) : State :=
  match s.batch b with
  | none => s
  | some x =>
    if cs.isEmpty then s
    else
      let q := g.sl / 8
      let r := x.site.rings.get QRing.zero q
      if r.capslots ≤ r.captured then s.count 0x0201 1 (Ev.ofS b g.sl)
      else
        let a := q * stackSize + r.capaddr + 32 * r.captured
        let r2 := { r with captured := r.captured + 1 }
        let s := s.setBatch b { x with site := { x.site with rings := x.site.rings.set QRing.zero q r2 } }
        s.storeFor b a (captureBytes g cs)

/-- A match repetition that missed on a member slice here, counted once (R179). Repetitions whose results are not used, after j* or after
TIMEOUT − W, count as well: the manual does not except them (DESIGN CHOICE, log 47). -/
def State.missRep (s : State) (b rep : Nat) : State :=
  match s.batch b with
  | none => s
  | some x =>
    if x.seq.missReps.contains rep then s
    else (s.setBatch b { x with seq := { x.seq with missReps := x.seq.missReps ++ [rep] } }).count 0x0203 1 (Ev.ofB b)

/-- One judged strobe of an expect: its counts and its disagreement (R152, R154, R170, R179). In a MATCH block a strobe of a site that
the mask disables decides nothing (R178). -/
def State.judged (s : State) (b : Nat) (g : Group) (t : Strobe) (v : Verdict) (forced : Bool) : State :=
  let l := 16 * g.sl + t.ch
  let s := if v == .disagree then s.disagreed b l forced else s
  if g.rep == 0 then
    match v with
    | .pass => s.onBatch b (fun x => x.tally l Counts.passed)
    | .disagree => s.onBatch b (fun x => x.tally l Counts.disagreed)
    | .fail _ => s
  else
    let s := s.count 0x0202 1 (Ev.ofC b l)
    if v == .pass || g.masked.contains t.ch then s else s.missRep b g.rep

/-- The strobes of an expect with what they observed and their verdicts. -/
def State.verdicts (s : State) (g : Group) (obs : List Obs) : List (Strobe × Verdict × Bool) :=
  ((g.strobes.zip obs).filter (fun p => p.1.act != 9)).map (fun p =>
    let forced := decide (0 < s.injected (16 * (0x100 + s.pcell (16 * g.sl + p.1.ch)) + 2))
    (p.1, judgeObs p.1 p.2 forced, forced))

/-- The records of a group outside a MATCH block, ascending by site (R157). -/
def Batch.recordsOf (x : Batch) (chans : List Nat) (g : Group) (vs : List (Strobe × Verdict × Bool)) : List FailRec :=
  let fails := vs.filterMap (fun v => match v.2.1 with
    | .fail a => some (x.site.siteAt ((chans.idxOf? (16 * g.sl + v.1.ch)).getD 0), v.1, a)
    | _ => none)
  let sites := (List.range 513).filter (fun i => fails.any (fun f => f.1 == i))
  if g.rep != 0 then [] else sites.map (fun i => recordOf g i (failsOf fails i))

/-- COMPARE_DECISION: the oldest group of a slice, given what its strobes and windows observed. Strobes from the boundary of a
waiting SNAPSHOT on stay in the slice buffers (R171). -/
def compareDecision (s : State) (b sl : Nat) (obs : List Obs) : State :=
  match s.batch b with
  | none => s
  | some x =>
    match x.awaiting.find? (fun g => g.sl == sl && !g.strobes.isEmpty) with
    | none => s
    | some g =>
      if g.strobes.map (fun t => t.ch) != obs.map (fun o => o.ch) || (s.snapLimit b).any (fun v => decide (v ≤ g.vnum)) then s
      else
        let chans := s.channels b
        let vs := s.verdicts g obs
        let s0 := s
        let left := x.awaiting.map (fun h => if h == g then { h with strobes := [], masked := h.masked.filter (fun c => !(g.strobes.any (fun t => t.ch == c))) } else h)
        let rs := x.recordsOf chans g vs
        let s := s.setBatch b { x with awaiting := left.filter (fun h => !h.strobes.isEmpty || !h.masked.isEmpty)
                                       forming := rs.foldl (fun l r => sortRec r l) x.forming }
        let s := vs.foldl (fun s v => s.judged b g v.1 v.2.1 v.2.2) s
        let s := s.capture b g ((g.strobes.zip obs).filter (fun p => p.1.act == 9))
        s0.tellGroup ((s.onBatch b (fun y => y.placeAll chans y.forming.length)).settleSnaps b) b

def execCompareDecision (b sl : Nat) (obs : List Obs) (s : State) : Step := .next (compareDecision s b sl obs)

/-! ## FAIL_MEMORY_WRITE (R166, R168, R340) -/

/-- The reason why a record is unlogged, in the order FAILOFF, OVER_LIMIT, FULL; none for a record to log. -/
def Batch.unlogged (x : Batch) (f : Formed) : Option Nat :=
  let t := x.site.site f.fr.site
  let held := (x.held.filter (fun h => h.1.sl / 8 == f.fr.sl / 8)).length
  if decide (f.fr.site < 512) && t.off.any (fun o => decide (o.2 < f.fr.vnum)) then some 0
  else if f.overLimit then some 1
  else if f.full || decide (x.site.fmcap ≤ held) then some 2
  else none

/-- An unlogged record that a later fail-off of a flow may reclassify (R165). -/
def Batch.unlist (x : Batch) (r : FailRec) (reason : Nat) : Batch := if reason == 0 then x else { x with unl := x.unl ++ [(r, reason)] }

/-- Hardware queue and flow of a site's records (R338). -/
def siteQueue (site : Nat) : Nat := if site < 512 then 2 + site else 514
def siteFlow (site : Nat) : Nat := 1 + site

/-- The slot of a ring that the next record takes: the first free one from the position after the records logged so far (R166). -/
def Batch.freeSlot (x : Batch) (q : Nat) (g : QRing) : Nat :=
  let n := max 1 x.site.fmcap
  let at_ := fun (i : Nat) => q * stackSize + g.fmaddr + 32 * ((g.logged + i) % n)
  let i := (List.range (x.held.length + 1)).find? (fun i => !x.held.any (fun h => h.2 == at_ i))
  at_ (i.getD 0)

/-- A record put in its place in the order of R158. -/
def sortHeld (h : FailRec × Nat) : List (FailRec × Nat) → List (FailRec × Nat)
  | [] => [h]
  | k :: l => if keyLt h.1.key k.1.key then h :: k :: l else k :: sortHeld h l

/-- A record logged in its quadrant's ring, with its FAIL record under FAILLOG (R166, R335, R348). -/
def State.logRecord (s : State) (b : Nat) (x : Batch) (r : FailRec) : State :=
  let q := r.sl / 8
  let g := x.site.rings.get QRing.zero q
  let a := x.freeSlot q g
  let y := x.tallyRec r (fun n c => c.logs n)
  let rings := x.site.rings.set QRing.zero q { g with logged := g.logged + 1 }
  let s := s.setBatch b { y with held := sortHeld (r, a) x.held, site := { x.site with rings := rings } }
  let s := s.storeFor b a r.bytes
  let n := (x.held.filter (fun h => h.1.sl / 8 == q)).length + 1
  let s := if n == cdiv x.site.fmcap 2 then s.msi b 3 else s
  if x.flow.loaded && x.flow.faillog then s.enqueue ⟨b, siteFlow r.site, 1, siteQueue r.site, .write 5 0 r.bytes, none⟩ else s

/-- Whether a formed record's hand-off waits: for the capture of a SNAPSHOT, and, to be logged, for a stack that does not serve it or, under
FAILLOG, for a full site queue (R171, R340, R363). -/
def State.handOffWaits (s : State) (b : Nat) (x : Batch) (f : Formed) : Bool :=
  (s.snapLimit b).any (fun v => decide (v ≤ f.fr.vnum)) ||
    ((x.unlogged f).isNone && (s.noFetch f.fr.sl || (x.flow.loaded && x.flow.faillog && s.queueFull b (siteQueue f.fr.site))))

/-- The oldest formed record of the first slice whose hand-off does not wait: each slice has its own fail-compression unit (R340). -/
def State.nextFormed (s : State) (b : Nat) (x : Batch) : Option Formed :=
  ((List.range 32).filterMap (fun sl => x.formed.find? (fun f => f.fr.sl == sl && !s.handOffWaits b x f &&
    x.formed.find? (fun g => g.fr.sl == sl) == some f))).foldl
      (fun m f => match m with
        | none => some f
        | some g => some (if keyLt f.fr.key g.fr.key then f else g)) none

/-- FAIL_MEMORY_WRITE: of the slices whose hand-off does not wait, the oldest record formed is logged or accounted as unlogged. -/
def failMemoryWrite (s : State) (b : Nat) : State :=
  match s.batch b with
  | none => s
  | some x =>
    match s.nextFormed b x with
    | none => s
    | some f =>
      let y := { x with formed := x.formed.erase f }
      match x.unlogged f with
      | some r => (s.setBatch b ((y.tallyRec f.fr (fun n c => c.unlogs n r)).unlist f.fr r)).settleSnaps b
      | none => (s.logRecord b y f.fr).settleSnaps b

def execFailMemoryWrite (b : Nat) (s : State) : Step := .next (failMemoryWrite s b)

/-! ## CONSENSUS_DECISION (R93, R114, R174, R178 to R181) -/

/-- The condition of the instruction that waits. -/
def PInstr.cond? (i : PInstr) : Option Nat :=
  match i with
  | .jmp c _ | .call c _ => some c.cond
  | .ret c | .halt c => some c.cond
  | _ => none

/-- The state through vector s reaches every sequencer; the mask entry is taken with the contents that it holds at the effect boundary
(R93). -/
def Batch.lateDelivered (x : Batch) (v : Nat) : Batch :=
  let c := ((x.prog[x.seq.pc]?).bind PInstr.cond?).getD 0
  { x with seq := { x.seq with wait := none, decided := some (x.front.2.lateHolds c x.seq.entry (some v)) } }

/-- One more repetition of a match block whose exit is still open (R180). -/
def Batch.moreMatch (x : Batch) (a l timeout group done : Nat) (block : Option BlockRep) : Batch :=
  let pc := x.seq.pc - 1
  let seg := match x.prog[pc]? with
    | some (.mtch g _ _) => g
    | _ => 0
  let r := { x.seq.fresh seg l with addr := pc, mtch := a + 1 }
  let q := x.seq.push r l
  { x with seq := { q with wait := some (.mtch a l timeout group (done + 1) block) } }

/-- The decision of a repetition reaches a member: MATCH_OK or MATCH_TIMEOUT at the exit, or one more repetition (R178, R180). -/
def State.matchDecision (s : State) (matched : Bool) (b : Nat) : State :=
  match (s.batch b).bind (fun x => x.seq.wait) with
  | some (.mtch a l timeout group done block) =>
    if matched then s.onBatch b (fun x => { x with seq := { x.seq with wait := none, matchOk := true, matchTo := false } })
    else
      let s := s.missRep b (a + done * l + 1)
      s.onBatch b (fun x =>
        if timeout ≤ done + 1 + matchW x.site.matchDelay l then
          { x with seq := { x.seq with wait := none, matchOk := false, matchTo := true } }
        else x.moreMatch a l timeout group done block)
  | _ => s

/-- MATCH_MISMATCH of a member at V_h, with both values (R181). -/
def State.matchMismatch (s : State) (one two : BlockRep) (b : Nat) : State :=
  match s.batch b with
  | some x => s.batchFaultRec b 6 (0x0100 + b) x.vh x.vh (.mismatch one two)
  | none => s

/-- The report whose pair most slices give, the first of equals. -/
def commonReport (reports : List LockRep) : LockRep :=
  let n := fun (r : LockRep) => (reports.filter (fun q => q.vnum == r.vnum && q.addr == r.addr)).length
  reports.foldl (fun m r => if n m < n r then r else m) (reports.headD ⟨0, 0, 0⟩)

/-- LOCKSTEP_LOST at V_h: the record names the first slice whose pair differs from the others', and both pairs (R114). -/
def State.lockstepLost (s : State) (b : Nat) (x : Batch) (reports : List LockRep) : State :=
  let one := commonReport reports
  let odd := (reports.find? (fun r => r.vnum != one.vnum || r.addr != one.addr)).getD one
  s.batchFaultRec b 7 (0x0100 + b) x.vh x.vh (.lockstep odd.sl (odd.vnum, odd.addr) (one.vnum, one.addr))

/-- The decision of a match group (R174, R178, R181): every member plays the same block, and the repetition is judged on every slice. -/
def State.groupDecision (s : State) (b group : Nat) (othersMatch : Bool) (others : List BlockRep) : State :=
  let ms := s.matchMembers b group
  match allSome (ms.map (fun m => (s.batch m).bind (fun x => x.blockOf group))) with
  | none => s
  | some rs =>
    let all := rs ++ others
    match all.find? (fun r => decide (some r ≠ all.head?)) with
    | some r => ms.foldl (State.matchMismatch · (all.headD r) r) s
    | none =>
      if ms.all (fun m => (s.batch m).any Batch.repDone) then
        ms.foldl (State.matchDecision · (ms.all (fun m => (s.batch m).any Batch.repMatched) && (othersMatch || decide (group < 128)))) s
      else s

/-- CONSENSUS_DECISION: with `reports` the slices' VNUM and program address, which every decision compares (R114), `othersMatch` whether
the group's members elsewhere passed the repetition, `others` what those members report of the block. -/
def consensusDecision (s : State) (b : Nat) (reports : List LockRep) (othersMatch : Bool) (others : List BlockRep) : State :=
  match s.batch b with
  | none => s
  | some x =>
    if !x.active then s
    else if !reports.all (fun r => reports.all (fun q => r.vnum == q.vnum && r.addr == q.addr)) then s.lockstepLost b x reports
    else match x.seq.wait with
      | some (.late v) => if x.decidedTo (v + 1) then s.setBatch b (x.lateDelivered v) else s
      | some (.mtch _ _ _ group _ _) =>
        (s.matchMembers b group).foldl (fun t m => s.tellGroup t m) (s.groupDecision b group othersMatch others)
      | _ => s

def execConsensusDecision (b : Nat) (reports : List LockRep) (othersMatch : Bool) (others : List BlockRep) (s : State) : Step :=
  .next (consensusDecision s b reports othersMatch others)

end Sys2Proof.Machine
end

