-- ==== Sys2Proof/Machine/Flow.lean ====
section
/-! DEFINITION. Flow tables and their runs, datalog, and the job scheduler (12_site_services.md R322 to R344; R318, R320, R411). Flow
control runs as jobs of flow (b, BATCH). A job commits what it does when it completes (R437); a check order alone acts at its dispatch
(R333). -/

namespace Sys2Proof.Machine
open Sys2Proof

/-! ## Reading a flow table (R324, R325) -/

/-- A step record's bytes as a step. -/
def stepOf (r : List Byte) : FStep :=
  ⟨fld r 0 1, fld r 1 1 % 4, fld r 2 1, fld r 3 1, fld r 4 1, fld r 5 1, fld r 6 1 % 16, fld r 7 1, (fld r 8 1).testBit 0,
    (fld r 8 1).testBit 1, sext 64 (fld r 16 8), sext 64 (fld r 24 8), fld r 32 8, fld r 40 8, fld r 48 2⟩

/-- A reserved field of a step record is non-zero; the used bits of ARG0 and ARG1 depend on TYPE. -/
def stepRsv (r : List Byte) : Bool :=
  let a0 := fld r 32 8
  let a1 := fld r 40 8
  let args := match fld r 0 1 with
    | 0 => a0 != 0 || a1 != 0
    | 1 => decide (2 ^ 33 ≤ a0) || decide (2 ^ 17 ≤ a1)
    | 2 => bits a0 15 12 != 0 || bits a0 31 20 != 0 || decide (two32 ≤ a1)
    | 3 => decide (2 ^ 48 ≤ a0) || a1 != 0
    | _ => false
  decide (3 < fld r 1 1) || decide (15 < fld r 6 1) || decide (3 < fld r 8 1) || !zeros r 9 7 || !zeros r 50 14 || args

/-- A step breaks a range of R326, or R529: every field of an END step but TYPE is zero. -/
def stepBad (nstep entry : Nat) (r : List Byte) : Bool :=
  let x := stepOf r
  if x.type == 0 then !zeros r 1 63
  else
    decide (3 < x.type) || decide (2 < x.onfail) || (x.onfail == 2 && (x.retestMax == 0 || decide (15 < x.retestMax))) ||
      (decide (x.onfail < 2) && x.retestMax != 0) || decide (nstep ≤ x.next) || x.sel == entry || x.failE == entry ||
      (x.type == 2 && x.arg1 == 0)

/-- UNIT of a step (R327). -/
def FStep.unitOf (x : FStep) : Nat :=
  match x.type with
  | 2 => match bits x.arg0 19 16 with
    | 1 => 2
    | 9 | 10 => 3
    | 4 => 4
    | 7 => 5
    | _ => 1
  | _ => 0

/-- Resources that a step needs and the batch does not own (R326). -/
def State.stepOwner (s : State) (b : Nat) (x : FStep) : Bool :=
  match x.type with
  | 2 => (ones x.arg0 12).any (fun n => s.acqOwner.get 0 n != b)
  | 3 => (s.script (x.arg0 % 65536)).any (fun c => !s.ownsBuses b c)
  | _ => false

/-- The second range check of R326. -/
def State.stepMisfit (s : State) (x : FStep) : Bool :=
  (x.type == 3 && ((s.script (x.arg0 % 65536)).isNone || x.loEn || x.hiEn)) || (x.type == 2 && decide (10 < bits x.arg0 19 16)) ||
    (x.type != 0 && x.unit != x.unitOf)

/-- The step records of a block. -/
def stepRecs (bs : List Byte) : List (List Byte) := pieces 64 (fld bs 2 2) (bs.drop 64)

/-- The flow that LOAD leaves. -/
def flowOf (bs : List Byte) (runNo : Nat) : Flow :=
  let fl := fld bs 1 1
  let f := { Flow.zero with
    loaded := true, faillog := fl.testBit 0, dlnet := fl.testBit 1, pinEn := fl.testBit 2, pin := fld bs 4 1, entry := fld bs 5 1
    passS := fld bs 6 1, passH := fld bs 7 1, dladdr := fld bs 8 8, dlslots := fld bs 16 4, dlport := fld bs 20 2, dleth := fld bs 22 1 }
  { f with dldest := fld bs 32 16, steps := (stepRecs bs).map stepOf, runNo := runNo }

/-- The checks of R326 after the state check of R318. -/
def State.flowChecks (s : State) (b : Nat) (x : Batch) (bs : List Byte) : List (Bool × Nat) :=
  let op := fld bs 0 1
  let n := fld bs 2 2
  let load := op == 0
  let rs := if load then stepRecs bs else []
  let fl := fld bs 1 1
  let pin := fld bs 4 1
  let entry := fld bs 5 1
  let q := s.lowSlice b / 8
  [(x.active, eBusy), (decide (op ≤ 1) && x.flow.active, eBusy),
   (decide (7 < fl) || decide (15 < fld bs 7 1) || !zeros bs 23 9 || !zeros bs 48 16 || rs.any stepRsv, eReserved),
   (decide (2 < op) || (load && (n == 0 || decide (1024 < n))) || (!load && n != 0) ||
     (load && (rs.any (stepBad n entry) || rs.all (fun r => fld r 0 1 != 0) || entry == 255 || decide (fld bs 16 4 < 16) ||
       decide (1 < fld bs 22 1) || decide (7 < pin))), eRange),
   (rs.any (fun r => s.stepOwner b (stepOf r)) || (load && fl.testBit 2 && s.trigInOwner.get 0 pin != b), eOwner),
   (rs.any (fun r => s.stepMisfit (stepOf r)), eRange),
   (load && fld bs 8 8 % 64 != 0, eAlign),
   (load && !s.inStack b q (fld bs 8 8) (64 + 128 * fld bs 16 4), eRange),
   ((op == 1 && !x.flow.loaded) || (op == 2 && !x.flow.active), eState)]

/-! ## The datalog ring (R334 to R337) -/

/-- BAR2 offset of the ring's control block. -/
def State.ringBase (s : State) (b : Nat) (f : Flow) : Nat := s.lowSlice b / 8 * stackSize + f.dladdr

/-- The 64 bytes of the control block, the reserved ones zero (R6, R336). -/
def Flow.control (f : Flow) : List Byte :=
  le 8 f.produced ++ le 8 f.consumed ++ le 4 (b2n f.dlnet + 2 * b2n f.consErr) ++ List.replicate 44 0

/-- The control block in memory as the engine holds it (R240). -/
def State.syncRing (s : State) (b : Nat) : State :=
  let f := s.flow b
  if f.loaded then s.storeFor b (s.ringBase b f) f.control else s

/-- The time of day now in fs, and in whole ns. -/
def State.todNow (s : State) : Nat := s.tb.tod s.now
def State.todNs (s : State) : Nat := s.todNow / ns

/-- The 128 bytes of a record (R334). -/
def datalogBytes (type flags seq tod : Nat) (body : List Byte) : List Byte :=
  (le 1 type ++ le 1 flags ++ le 2 (16 + body.length) ++ le 4 seq ++ le 8 tod ++ body ++ List.replicate 112 0).take 128

/-- The job that sends a frame: deferred while fewer than 64 records wait (R337, R343). -/
def frameJob (b : Nat) (due : Option Nat) : Job := ⟨b, 0x202, 3, 1, .frame, due⟩

/-- Whether a frame job is anywhere. -/
def Sched.frames (c : Sched) (b : Nat) : Bool :=
  (c.ready ++ c.outside ++ c.delayed ++ c.cores.map Prod.snd).any (fun j => j.b == b && j.work == Work.frame)

/-- The time of day in fs when the oldest waiting record was produced (R337). -/
def Flow.oldest (f : Flow) : Nat := f.tods.headD 0

/-- A frame is due at once where 64 records wait, else at the first tick 10 µs or more after the oldest (R337, R343). -/
def State.armFrame (s : State) (b : Nat) : State :=
  let f := s.flow b
  if !f.dlnet || f.waitingRecords == 0 then s
  else if 64 ≤ f.waitingRecords then
    let c := s.sched
    if (c.ready ++ c.cores.map Prod.snd).any (fun j => j.b == b && j.work == Work.frame) then s
    else ({ s with sched := { c with delayed := c.delayed.filter (fun j => !(j.b == b && j.work == Work.frame)) } }).enqueue (frameJob b none)
  else if s.sched.frames b then s
  else { s with sched := { s.sched with delayed := s.sched.delayed ++ [frameJob b (some (cdiv (f.oldest + 10 * us) us))] } }

/-- A record wholly written: PRODUCED advances, vector 1 on a record into an empty ring or at half of DLSLOTS, and the queue group's signal as queue 1 turns non-empty (R336, R345, R348). -/
def State.putRecord (s : State) (b type flags : Nat) (body : List Byte) : State :=
  let f := s.flow b
  let a := s.ringBase b f + 64 + 128 * (f.produced % max 1 f.dlslots)
  let bs := datalogBytes type flags f.seq s.todNs body
  let s1 := s.storeFor b a bs
  let n := f.waitingRecords + 1
  let s2 := s1.onFlow b (fun g => { g with produced := f.produced + 1, seq := (f.seq + 1) % two32, tods := f.tods ++ [s.todNow] })
  let s3 := (s2.onQueue b 1 (fun c => { c with enq := c.enq + 1 })).syncRing b
  let s4 := if n == 1 then s3.signal (0x820 + b) else s3
  let s5 := if n == 1 || n == cdiv f.dlslots 2 then s4.msi b 1 else s4
  s5.armFrame b

/-- CONSUMED moves to v. -/
def State.consume (s : State) (b v : Nat) : State :=
  let f := s.flow b
  let s := s.onFlow b (fun g => { g with consumed := v, tods := g.tods.drop (v - f.consumed) })
  (s.onQueue b 1 (fun c => { c with deq := c.deq + (v - f.consumed) })).syncRing b

/-- DATALOG_CONSUMED_WRITE (R336, R337). -/
def datalogConsumed (s : State) (b v : Nat) : State :=
  let f := s.flow b
  if !f.loaded || f.dlnet then s
  else if v < f.consumed || f.produced < v then (s.onFlow b (fun g => { g with consErr := true })).syncRing b
  else s.consume b v

def execDatalogConsumedWrite (b value : Nat) (s : State) : Step := .next (datalogConsumed s b value)

/-- Whether the destination is on the port's link (R411): its IPv4 prefix (R410), or link-local IPv6. -/
def State.onLink (s : State) (f : Flow) : Bool :=
  let e := s.eth f.dleth
  let d := f.dldest
  if d / two32 == 0xFFFF then e.en && decide (d % two32 / 2 ^ (32 - e.plen) = e.addr / 2 ^ (32 - e.plen))
  else decide (d / 2 ^ 118 = 0x3FA)

/-- A resolution request for the destination (R411). -/
def State.askAddress (s : State) (b : Nat) : State :=
  let f := s.flow b
  if s.onLink f then s.emit (.frame f.dleth f.dldest 6 []) else s

/-- Sending needs the destination's address; a resolution begins where none is known. -/
def State.resolve (s : State) (b : Nat) : State :=
  let f := s.flow b
  if f.resolved || f.resolving then s else (s.onFlow b (fun g => { g with resolving := true })).askAddress b

/-- ADDRESS_RESOLUTION_RETRY (R411). -/
def resolutionRetry (s : State) (b t : Nat) : State := if (s.flow b).resolving then (s.at_ t).askAddress b else s

def execAddressResolutionRetry (b t : Nat) (s : State) : Step := .next (resolutionRetry s b t)

/-- ADDRESS_RESOLUTION_REPLY (R411): records that waited for it may be sent. -/
def resolutionReply (s : State) (b : Nat) : State :=
  if !(s.flow b).resolving then s
  else
    let s := s.onFlow b (fun g => { g with resolving := false, resolved := true })
    let f := s.flow b
    if f.waitingRecords == 0 || s.sched.frames b then s else s.enqueue (frameJob b none)

def execAddressResolutionReply (b : Nat) (s : State) : Step := .next (resolutionReply s b)

/-- Where the next n records stand in the ring, from its first slot. -/
def Flow.slots (f : Flow) (n : Nat) : List Nat := (List.range n).map (fun i => 128 * ((f.consumed + i) % max 1 f.dlslots))

/-- The frame of the next n records (R337). -/
def State.frameBytes (s : State) (b : Nat) (f : Flow) (n : Nat) : List Byte :=
  let a := s.ringBase b f + 64
  let first := (f.seq + two32 - f.waitingRecords % two32) % two32
  le 2 0xA71D ++ le 1 1 ++ le 1 b ++ le 1 n ++ le 3 0 ++ le 4 first ++ le 4 0 ++
    (f.slots n).flatMap (fun i => s.fetched b (a + i) 128)

/-- Whether a core holds the frame job of a batch. -/
def State.framing (s : State) (b : Nat) : Bool := s.sched.cores.any (fun p => p.2.b == b && p.2.work == Work.frame)

/-- Whether frames can be sent: DLNET, the destination on the port's link with its address resolved, the link up (R337, R411). -/
def State.canFrame (s : State) (f : Flow) : Bool := f.dlnet && s.onLink f && f.resolved && (s.eth f.dleth).link

/-- DATALOG_FRAME_SEND (R337): the job of the frame is in service, the destination reached, and 64 records wait or 10 µs of TOD have passed
since the oldest was produced. -/
def datalogFrameSend (s : State) (b t : Nat) : State :=
  let s := s.at_ t
  let f := s.flow b
  let n := min 64 f.waitingRecords
  let base := s.ringBase b f + 64
  if !s.canFrame f || !s.framing b || n == 0 || (n != 64 && decide (s.todNow < f.oldest + 10 * us)) || (s.stack (aStack base)).frozen then s
  else
    let u := (s.fetches .ring b 2 ((f.slots n).map (fun i => (base + i, 128)))).emit
      (.frame f.dleth f.dldest 5 (be 2 f.dlport ++ s.frameBytes b f n))
    u.consume b (f.consumed + n)

def execDatalogFrameSend (b t : Nat) (s : State) : Step := .next (datalogFrameSend s b t)

/-! ## The steps of a run (R328 to R332) -/

/-- The mask of a list of sites. -/
def siteMask (l : List Nat) : Nat := l.foldl (fun m i => setBit m i) 0

/-- The sites of a step: A ∩ table[SELENTRY] (R325, R329). -/
def Batch.stepSites (x : Batch) (f : Flow) : List Nat :=
  if f.cur.sel == 255 then f.a else f.a.filter (fun i => (x.mask f.cur.sel).testBit i)

/-- An entry of the site-mask table written by the flow (R322). -/
def State.writeMask (s : State) (b e : Nat) (l : List Nat) : State := s.onBatch b (fun x => { x with masks := put x.masks e (siteMask l) })

/-- PATTERN: START with T at the first whole ns at or after t_d + max(LEAD, L_start) (R329, R330). -/
def State.patternStep (s : State) (b : Nat) (e : List Nat) : State :=
  let f := s.flow b
  let s := s.writeMask b f.entry e
  match s.batch b with
  | none => s
  | some x =>
    let t := cdiv (s.now + max (f.cur.arg0 % two32 * ns) (s.lStart 0)) ns * ns
    let p : StartP := ⟨⟨t / second, t % second⟩, 0, 0, 0, f.cur.arg0.testBit 32⟩
    match firstErr (s.startChecks b x p) with
    | some st => s.endRun b 5 st
    | none => (s.startNow b x p none true).onFlow b (fun f => { f with phase := 1 })

/-- ACQ_ARM on each engine of a list; the first that fails stops there. -/
def State.armAll (s : State) (b nrec : Nat) : List Nat → State × Option Nat
  | [] => (s, none)
  | n :: l =>
    match firstErr (s.armChecks b ⟨n, false, false, 0, 0, nrec, 0, 0⟩) with
    | some st => (s, some st)
    | none => (s.armAcq b n nrec none).armAll b nrec l

/-- ACQUIRE. -/
def State.acquireStep (s : State) (b : Nat) : State :=
  let st := (s.flow b).cur
  let r := s.armAll b (st.arg0 / two32) (ones st.arg0 12)
  match r.2 with
  | some e => r.1.endRun b 5 e
  | none => (r.1.onFlow b (fun f => { f with phase := 2, timeoutAt := s.now + st.arg1 % two32 * us })).acquireEnds b

/-- PEACT: the script runs once per channel of the batch, as PEACT's does (R432). -/
def State.peactStep (s : State) (b : Nat) : State :=
  let st := (s.flow b).cur
  let n := st.arg0 % 65536
  match s.script n with
  | none => s.endRun b 5 eRange
  | some c =>
    if !s.ownsBuses b c then s.endRun b 5 eOwner
    else
      let s := s.onFlow b (fun f => { f with phase := 3 })
      s.startRun ⟨n, 2, b, bits st.arg0 47 16, s.channels b, [], (0, 0), 0⟩

/-- END: active sites without a bin pass (R329). -/
def State.endStep (s : State) (b : Nat) : State :=
  let add := fun (f : Flow) => (f.a.filter (fun i => (f.binOf i).isNone)).map (fun i => (i, f.passS, f.passH, 0xFFFF))
  (s.onFlow b (fun f => { f with bins := f.bins ++ add f })).endRun b 0 0

/-- The step in turn runs on E, or the run has executed 65,535 steps (R330). -/
def State.runStep (s : State) (b : Nat) : State :=
  match s.batch b with
  | none => s
  | some x =>
    let f := x.flow
    if 65535 ≤ f.executed then s.endRun b 4 0
    else
      let e := if f.try_ ≤ 1 then x.stepSites f else f.e
      let s := s.onFlow b (fun f => { f with e := e, executed := f.executed + 1, busErr := false, failed := [], left := [], phase := 0 })
      match f.cur.type with
      | 1 => s.patternStep b e
      | 2 => s.acquireStep b
      | 3 => s.peactStep b
      | _ => s.endStep b

/-- The END step with the lowest index. -/
def Flow.endIdx (f : Flow) : Nat := f.steps.findIdx (fun x => x.type == 0)

/-- What the judged sites of a step come to: another try, or bins, A, FAILENTRY and the next step (R332). -/
def State.stepDone (s : State) (b : Nat) : State :=
  let f := s.flow b
  let st := f.cur
  if st.onfail == 2 && !f.failed.isEmpty && decide (f.try_ ≤ st.retestMax) then
    (s.onFlow b (fun f => { f with e := f.failed, try_ := f.try_ + 1 })).runStep b
  else
    let new := (f.failed.filter (fun i => (f.binOf i).isNone)).map (fun i => (i, st.sbin, st.hbin, f.step))
    let a := if st.onfail == 0 then f.a else f.a.filter (fun i => !f.failed.contains i)
    let s := if st.failE == 255 then s else s.writeMask b st.failE f.failed
    let next := if a.isEmpty then f.endIdx else st.next
    (s.onFlow b (fun f => { f with bins := f.bins ++ new, a := a, step := next, try_ := 1 })).runStep b

/-- A job of flow control: the run begins, or goes on after a step. -/
def State.flowControl (s : State) (b : Nat) : State :=
  let f := s.flow b
  if !f.active then s
  else match f.phase with
    | 0 => if f.abort then s.endRun b 3 0 else s.runStep b
    | 4 => if f.abort then s.endRun b 3 0 else if f.left.isEmpty then s.stepDone b else s
    | _ => s

/-- A run begins with every defined site active (R328). The manual does not number runs: the number is a free value (log 18). -/
def State.beginRun (s : State) (b : Nat) (pin : Bool) : State :=
  let (u, s) := s.fresh
  let ids := (((s.batch b).map (fun x => x.site.ids)).getD [])
  let s := s.onFlow b (fun f =>
    let g := { f with active := true, runNo := u % two32, pinRun := pin, step := 0, try_ := 1, a := ids, e := [], executed := 0, phase := 0 }
    { g with left := [], failed := [], abort := false, bins := [], busErr := false, stopV := 0, outcome := none })
  (s.enqueue ⟨b, 0, 3, 0, .write 1 0 (le 4 (u % two32) ++ le 1 (b2n pin) ++ le 1 0 ++ le 2 ids.length), none⟩).control b

/-! ## FLOW_LOAD (R318, R326) -/

/-- ABORT: at once between steps, else at the end of the step (R326). -/
def State.abortRun (s : State) (b : Nat) : State :=
  let f := s.flow b
  let s := s.onFlow b (fun f => { f with abort := true })
  if f.phase == 0 || f.phase == 4 then s.endRun b 3 0 else s

/-- LOAD: table and ring replaced; records left in the old ring are discarded (R339). -/
def State.loadFlow (s : State) (b : Nat) (bs : List Byte) : State :=
  let f := s.flow b
  let n := f.waitingRecords
  let s := if n == 0 then s else s.onQueue b 1 (fun c => { c with disc := c.disc + n })
  (s.onBatch b (fun x => { x with flow := flowOf bs f.runNo })).syncRing b

/-- FLOW_LOAD. A block that does not hold the table gives E_LENGTH (log 20). -/
def cmdFlowLoad (h : Hdr) (data : DRef) (s : State) : State :=
  let short := fun (s : State) =>
    let bs := s.dataIn h data
    decide (data.len < 64) || (fld bs 0 1 == 0 && decide (fld bs 2 2 ≤ 1024) && decide (data.len < 64 + 64 * fld bs 2 2))
  s.runCmd h 0x010E [(data, true)] none (len := [short]) fun s =>
    let b := cmdBatch h
    let bs := s.dataIn h data
    match s.batch b with
    | none => Res.err s eState
    | some x =>
      checked s (s.flowChecks b x bs)
        (Res.ok (match fld bs 0 1 with
          | 0 => s.loadFlow b bs
          | 1 => s.beginRun b false
          | _ => s.abortRun b) [] [])

def execFlowLoad (h : Hdr) (data : DRef) (s : State) : Step := .next (cmdFlowLoad h data s)

/-- FLOW_PIN_START (R328): the edge of a start pin as it is dispatched. -/
def flowPinStart (s : State) (pin t : Nat) : State :=
  let s := s.at_ t
  let b := s.trigInOwner.get 0 pin
  let f := s.flow b
  if f.loaded && f.pinEn && f.pin == pin && !f.active then s.beginRun b true else s.count 0x0600 1 (Ev.ofB b)

def execFlowPinStart (pin t : Nat) (s : State) : Step := .next (flowPinStart s pin t)

/-- TRIG_IN_EDGE (R320, R340): a selected edge posts its grid time to 125 ps; into a full event queue the post is dropped. -/
def trigInEdge (s : State) (pin : Nat) (fall : Bool) (t : Nat) : State :=
  let x := s.trigIn.get TrigIn.zero pin
  if !x.post || x.fall != fall then s
  else
    let s := s.at_ t
    let b := s.trigInOwner.get 0 pin
    if (s.flow b).loaded && s.queueFull b 0 then s.count 0x0602 1 (Ev.ofB b)
    else s.postEvent b 1 7 (le 1 pin ++ le 1 (b2n fall) ++ le 6 0 ++ timeBytes (t / cycle * cycle))

def execTrigInEdge (pin : Nat) (fall : Bool) (t : Nat) (s : State) : Step := .next (trigInEdge s pin fall t)

/-! ## Judging (R327, R331) -/

/-- The engine of a site in an ACQUIRE step: the lowest whose source A belongs to the site. -/
def State.engineOf (s : State) (b : Nat) (x : Batch) (i : Nat) : Option Nat :=
  let chans := s.channels b
  (ones x.flow.cur.arg0 12).find? (fun n => match (s.acq n).cfg with
    | some c => chans.contains c.srcA && x.site.siteAt (chans.idxOf c.srcA) == i
    | none => false)

/-- The value that a step yields for a site (R327). -/
def State.siteValue (s : State) (b : Nat) (x : Batch) (i : Nat) : Option Int :=
  let st := x.flow.cur
  let slot := bits st.arg0 19 16
  match st.type with
  | 1 => some ((x.site.site i).fails % two48 : Nat)
  | 2 => ((s.engineOf b x i).bind (fun n => assoc (s.acq n).last slot)).map (fun r =>
      if slot == 4 || slot == 7 then r.y else r.si)
  | _ => none

/-- Whether the step's result is marked INVALID under R84: recorded after the batch's first under-run and before it next stops; a PATTERN
step's result is of the run that its stop ends. -/
def Batch.underrun (x : Batch) : Bool := (x.flow.cur.type == 1 || x.active) && x.streams.any (fun p => p.2.invalid)

/-- Reason of a site's outcome, 0 for PASS (R331): its first row that applies. -/
def Batch.siteReason (x : Batch) (i : Nat) (v : Option Int) : Nat :=
  let st := x.flow.cur
  if st.type == 3 && x.flow.busErr then 5
  else if st.type == 1 && (x.site.site i).off.any (fun o => decide (o.1 < x.flow.stopV)) then 3
  else if x.underrun then 2
  else if st.type == 3 then 0
  else match v with
    | none => 4
    | some v => if (st.loEn && decide (v < st.lo)) || (st.hiEn && decide (st.hi < v)) then 1 else 0

/-- The evaluation of a site: its STEP_RESULT to be written, and after the last site flow control. -/
def State.evalSite (s : State) (b i : Nat) : State :=
  match s.batch b with
  | none => s
  | some x =>
    let f := x.flow
    if f.phase != 4 || !f.left.contains i then s
    else
      let v := s.siteValue b x i
      let r := x.siteReason i v
      let flags := b2n x.underrun + 2 * b2n (r == 0 && decide (1 < f.try_))
      let u1 := Config.freeValue s.free
      let u2 := Config.freeValue (s.free + 1)
      let value := match v with
        | some v => toField 64 v
        | none => u1 % 2 ^ 64
      let stop := if f.cur.type == 1 then f.stopV else u2 % 2 ^ 64
      let body := le 2 f.step ++ le 2 i ++ le 1 f.try_ ++ le 1 (b2n (r != 0)) ++ le 1 r ++ le 1 f.cur.unit ++ le 8 value ++ le 8 stop
      let left := f.left.filter (fun k => k != i)
      let s := { s with free := s.free + 2 }
      let s := s.onFlow b (fun f => { f with left := left, failed := if r == 0 then f.failed else f.failed ++ [i] })
      let s := s.enqueue ⟨b, 1 + i, 3, 2 + i, .write 2 flags body, none⟩
      if left.isEmpty then s.control b else s

/-- A check order for VNUM m as its job dispatches (R333): the sites of E that have failed through s = m − MATCH_DELAY enter fail-off at
the first vector whose start lies at or after t_d + 440 ns, once V_off begins. An order that the stop has met before counts as lapsed. -/
def State.checkOrder (s : State) (b m : Nat) (stopped : Bool) : State :=
  match s.batch b with
  | none => s
  | some x =>
    if m < x.site.matchDelay then s
    else if stopped || !x.active then s.count 0x0204 1 (Ev.ofB b)
    else
      let v := m - x.site.matchDelay
      let t := s.now + 440 * ns
      match (if x.decidedTo (v + 1) then x.firstAt t else none) with
        | some w => s.setBatch b (x.holdOff (s.channels b) x.flow.e w v)
        | none => s.setBatch b { x with checks := x.checks ++ [(x.flow.e, t, v)] }

/-! ## The scheduler (R341 to R344) -/

/-- Records of a batch that jobs in service will write. -/
def Sched.writing (c : Sched) (b : Nat) : Nat :=
  (c.cores.filter (fun p => p.2.b == b && match p.2.work with
    | .write .. => true
    | _ => false)).length

/-- Whether a job waits for room in the datalog ring: its flow is BLOCKED (R340). -/
def State.blocked (s : State) (j : Job) : Bool :=
  match j.work with
  | .write .. => decide ((s.flow j.b).dlslots ≤ (s.flow j.b).waitingRecords + s.sched.writing j.b)
  | _ => false

def sameFlow (i j : Job) : Bool := i.b == j.b && i.flow == j.flow

/-- The eligible jobs, oldest first (R342). -/
def State.eligible (s : State) : List Job :=
  let c := s.sched
  c.ready.filter (fun j => c.ready.find? (sameFlow j) == some j && !c.cores.any (fun p => sameFlow j p.2) && !s.blocked j)

/-- The highest priority among the ready jobs of a job's flow. -/
def Sched.prioOf (c : Sched) (j : Job) : Nat := ((c.ready.filter (sameFlow j)).map (fun i => i.prio)).foldl min 3

/-- The job that a free core takes: the highest priority, batches in turn, the oldest of the batch (R342). -/
def State.nextJob (s : State) : Option Job :=
  let c := s.sched
  let l := s.eligible
  let p := (l.map c.prioOf).foldl min 3
  let m := l.filter (fun j => c.prioOf j == p)
  let turn := fun (j : Job) => (j.b + 33 - c.turn.get 0 p) % 17
  let best := (m.map turn).foldl min 16
  m.find? (fun j => turn j == best)

/-- Whether a physical core is in service and free (R342, R344, R437, R453). -/
def State.coreFree (s : State) (k : Nat) : Bool :=
  let c := s.sched
  (if k < 8 then !s.rep.retired.contains (4, k, 0) else k == 8 && s.rep.coreRes) && !s.rep.heldOut.contains (4, k, 0) &&
    !c.faulted.contains k && c.draining != some k && !c.cores.any (fun p => p.1 == k)

/-- The logical number of a core: the reserve has that of the core it replaces (R344). -/
def State.logical (s : State) (k : Nat) : Nat :=
  if k < 8 then k else ((List.range 8).find? (fun i => s.rep.retired.contains (4, i, 0))).getD 8

/-- Whether a core of a lower logical number fell free at the same instant and is free still: it takes first (R342). -/
def State.yields (s : State) (k : Nat) : Bool :=
  (List.range 9).any (fun i => s.coreFree i && s.sched.freed.get 0 i == s.sched.freed.get 0 k && decide (s.logical i < s.logical k))

/-- What a job does as it is dispatched: a check order takes its t_d, a datalog frame needs the destination's address. -/
def State.runJob (s : State) (j : Job) : State :=
  match j.work with
  | .check m stopped => s.checkOrder j.b m stopped
  | .frame => s.resolve j.b
  | _ => s

/-- JOB_DISPATCH: a free core in service takes a job. -/
def jobDispatch (s : State) (core t : Nat) : State :=
  if !s.coreFree core || s.yields core then s
  else match s.nextJob with
    | none => s
    | some j =>
      let s := s.at_ t
      let c := s.sched
      let p := c.prioOf j
      ({ s with sched := { c with ready := c.ready.erase j, cores := c.cores ++ [(core, j)], turn := c.turn.set 0 p j.b } }).runJob j

def execJobDispatch (core t : Nat) (s : State) : Step := .next (jobDispatch s core t)

/-- FLOW_END written: the run is over (R335, R348). -/
def State.runOver (s : State) (b : Nat) : State := (s.onFlow b (fun f => { f with active := false, phase := 0, abort := false })).msi b 2

/-- What a completed job commits (R437): its record and the end of its run, the evaluation of a site, the flow's next action. -/
def State.jobEffect (s : State) (j : Job) : State :=
  match j.work with
  | .eval i => s.evalSite j.b i
  | .control => s.flowControl j.b
  | .write type flags body =>
    let s := s.putRecord j.b type flags body
    if type == 8 then s.runOver j.b else s
  | .frame => if (s.flow j.b).resolved then s.armFrame j.b else s
  | _ => s

/-- JOB_COMPLETE: the core is free, the entry leaves its queue (R338 to R340). -/
def jobComplete (s : State) (core t : Nat) : State :=
  match s.sched.cores.find? (fun p => p.1 == core) with
  | none => s
  | some p =>
    let j := p.2
    let s := s.at_ t
    let s := { s with sched := { s.sched with
      cores := s.sched.cores.filter (fun q => q.1 != core), freed := s.sched.freed.set 0 core s.now } }
    ((s.jobEffect j).dequeued j.b j.queue).closeRun j.b

def execJobComplete (core t : Nat) (s : State) : Step := .next (jobComplete s core t)

/-- ACQUIRE_TIMEOUT (R329, R331): engines that have not disarmed yield no value, and are disarmed. -/
def acquireTimeout (s : State) (b t : Nat) : State :=
  let f := s.flow b
  if f.phase != 2 || decide (t < f.timeoutAt) then s
  else
    let s := s.at_ t
    let l := f.acqs.filter (fun n => (s.acq n).armed)
    let s := l.foldl (fun s n => s.setAcq n { s.acq n with last := [] }) s
    (l.foldl State.disarmAcq s).acquireEnds b

def execAcquireTimeout (b t : Nat) (s : State) : Step := .next (acquireTimeout s b t)

/-- DELAY_TICK (R343, R345): every deferred job due moves to the tail of its list, by due tick and insertion. -/
def delayTick (s : State) (t : Nat) : State :=
  let s := s.at_ t
  let tick := s.tb.tod s.now / us
  let due := fun (j : Job) => decide (j.due.getD 0 ≤ tick)
  let moved := (s.sched.delayed.filter due).mergeSort (fun i j => decide (i.due.getD 0 ≤ j.due.getD 0))
  let bs := (moved.map (fun j => j.b)).eraseDups
  let s := { s with sched := { s.sched with
      ready := s.sched.ready ++ moved.map (fun j => { j with due := none })
      delayed := s.sched.delayed.filter (fun j => !due j) } }
  bs.foldl (fun s b => s.signal (0x840 + b)) s

def execDelayTick (t : Nat) (s : State) : Step := .next (delayTick s t)

end Sys2Proof.Machine
end

