-- ==== Sys2Proof/Machine/Bar2.lean ====
section
/-! DEFINITION. BAR2_ACCESS with the control blocks that lie in memory: the ring control block of a sparge stream and that of a
datalog ring (03_vector_data.md R80, R81; 12_site_services.md R336, R337). -/

namespace Sys2Proof.Machine
open Sys2Proof

/-- Whether [a, a + n) and [c, c + m) share a byte. -/
def overlaps (a n c m : Nat) : Bool := decide (a < c + m) && decide (c < a + n)

/-- The little-endian number stored in eight bytes. -/
def State.word64 (s : State) (a : Nat) : Nat := fld (s.peek a 8) 0 8

/-- A host write of n bytes at `off` that met a stream's block: FILL takes what the write left there, and every other byte of the block
stays as the engine holds it (R81). -/
def State.hitStream (s : State) (off n b seg : Nat) : State :=
  match (s.batch b).bind (fun x => assoc x.streams seg) with
  | none => s
  | some t =>
    let c := s.cbOffset b t
    if overlaps off n c 8 then fillWrite s b seg (s.word64 c)
    else if overlaps off n c 64 then s.setStream b seg t
    else s

/-- A host write that met the control block of a datalog ring: CONSUMED takes what the write left there, and every other byte stays as the
engine holds it (R336, R337, R6). -/
def State.hitRing (s : State) (off n b : Nat) : State :=
  let f := s.flow b
  let c := s.ringBase b f
  if f.loaded && overlaps off n c 64 then
    (if overlaps off n (c + 8) 8 then datalogConsumed s b (s.word64 (c + 8)) else s).syncRing b
  else s

/-- The control blocks that a write met. -/
def State.hitBlocks (s : State) (off n : Nat) : State :=
  s.batches.foldl (fun s p => (p.2.streams.foldl (fun s q => s.hitStream off n p.1 q.1) s).hitRing off n p.1) s

/-- BAR2_ACCESS. -/
def bar2Access (s : State) (fn off : Nat) (write : Bool) (data : List Byte) (len : Nat) : State :=
  let s := bar2 s fn off write data len
  if write then s.hitBlocks off data.length else s

def execBar2Access (fn off : Nat) (write : Bool) (data : List Byte) (len : Nat) (s : State) : Step :=
  .next (bar2Access s fn off write data len)

/-- STACK_RETRAIN_DONE (R367, R369, R370, R371): the training ends, and the host accesses that waited for it complete in their order
(R407). -/
def stackRetrainDone (s : State) (q : Nat) (eyes : List (Nat × Nat)) (t : Nat) : State :=
  let k := s.stack q
  if k.retraining then
    k.held.foldl (fun s h => bar2Access s h.fn h.off h.write h.data h.len) (retrainDone (s.setStack q { k with held := [] }) q eyes t)
  else retrainDone s q eyes t

def execStackRetrainDone (stack : Nat) (eyes : List (Nat × Nat)) (t : Nat) (s : State) : Step := .next (stackRetrainDone s stack eyes t)

end Sys2Proof.Machine
end

