-- ==== Sys2Proof/Machine/Collect.lean ====
section
/-! DEFINITION. The reports of units with what each does to its own unit, and the clearing of sources (16_faults_reserves.md R434 to R446,
R528; 11_commands.md R299). -/

namespace Sys2Proof.Machine
open Sys2Proof

/-! ## FAULT_REPORT -/

/-- What a report does to its own unit beside the collector: ACQ_FAULT disarms the engine, CORE_FAULT frees the core
(R436, R437). -/
def unitEffect (s : State) (src code : Nat) : State :=
  if baseCode code == 0x0220 then s.disarmAcq (src - 0x370)
  else if baseCode code == 0x0501 then coreFault s (src - 0x608)
  else s

/-- A unit's report: DRAM_FREEZE freezes its stack, at the address in DETAIL (R363); which command failed is not among what the report
carries, and a read of that word stands for it. -/
def State.unitReport (s : State) (src code detail until_ : Nat) : State :=
  if baseCode code == 0x0300 && !(s.stack (src - 0x480)).frozen then
    s.freezeStack (src - 0x480) detail code ⟨0, 3, (src - 0x480) * stackSize + detail % stackSize, 1, 0, false⟩ 0
  else if (s.src src).deaf s.now then s
  else unitEffect ((s.raise src code detail (decide (s.now < until_))).idleAt src until_) src code

/-- FAULT_REPORT (R440 to R444, R436): a report of a unit, or a batch fault whose domain is the batch's own (R528: the
faults 8, 10, 13, 14 and 15 come with the events that cause them); fault 2 is an edge generator behind its queue (R18, R119). A condition
stays in the report state until the grid time `until_`; an event's pair is idle again at once (R438). An injected code needs an injection
of its checker. -/
def faultReport (s : State) (src code detail t until_ : Nat) : State :=
  let inj := 32768 ≤ code
  if !canReport src code || (inj && s.injected (checkerOf src code) == 0) then s
  else
    let s := s.at_ t
    if within src 0x700 0x7FF then
      let k := src % 16
      let b := (src - 0x700) / 16 + 1
      if k == 8 || k == 10 || k == 13 || k == 14 || k == 15 then s
      else if k == 2 && (s.batch b).isSome then (s.batchFault b k).count 0x0103 1 (Ev.ofS b (s.lowSlice b))
      else s.batchFault b k
    else
      let s := if inj then s.useInject (checkerOf src code) else s
      s.unitReport src code detail until_

def execFaultReport (src code detail t until_ : Nat) (s : State) : Step := .next (faultReport s src code detail t until_)

/-! ## FAULT_CLEAR (R299, R446) -/

/-- One source's status, ECHO and TFIRST cleared, and the register it stands in emptied (R446). A broken pair whose levels are equal stays
in BROKEN_REPORT, and one that shows the report state keeps showing it; a core takes jobs again (R437). -/
def State.clearSrc (s : State) (n : Nat) : State :=
  let x := s.src n
  let f := s.flt
  let s := { s with flt := { f with
      first := if f.first.valid && f.first.src == n then FltReg.zero else f.first
      prelim := if f.prelim.valid && f.prelim.src == n then FltReg.zero else f.prelim } }
  let s := s.setSrc n { Src.zero with
    level := if x.shows s.now then x.level else none, broken := x.broken && decide (s.now < x.brokenTo), brokenTo := x.brokenTo
    clearedAt := s.now, until_ := x.until_ }
  if within n 0x608 0x610 then { s with sched := { s.sched with faulted := s.sched.faulted.filter (fun c => c != n - 0x608), freed := s.sched.freed.set 0 (n - 0x608) s.now } } else s

/-- A batch left without an uncleared own fault moves from FAULTED to STOPPED (R299, R109). -/
def State.unfault (s : State) : State :=
  { s with batches := s.batches.map (fun p => if p.2.state == 5 && !s.ownFault p.1 then (p.1, { p.2 with state := 4 }) else p) }

/-- A source that has not gone quiet reports again at once (R446): BROKEN_REPORT of a pair that is still broken, else the condition that
its pair shows, with what it does to its unit. -/
def State.reReport (s : State) (n : Nat) : State :=
  if (s.src n).broken then
    let f := s.fresh
    f.2.raiseNow n 0x0040 (f.1 % 18446744073709551616)
  else match (s.src n).level with
    | some p => unitEffect (s.raiseNow n p.1 p.2) n p.1
    | none => s

/-- Sources cleared, and those that have not gone quiet (R446). -/
def clearSources (s : State) (ns : List Nat) : State × List Nat :=
  let s := ns.foldl State.clearSrc s
  let again := ns.filter (fun n => (s.src n).broken || (s.src n).level.isSome)
  let s := if s.flt.srcs.any (fun p => p.2.status && !p.2.warn) then s else { s with flt := { s.flt with overflow := false } }
  (again.foldl State.reReport s, again)

/-- The sources of outputs that FAULT_CLEAR enables again (R514). -/
def State.enableOutputs (s : State) (ns : List Nat) : State :=
  { s with
    clks := s.clks.map (fun p => if ns.contains (0x018 + p.1) then (p.1, { p.2 with disabled := false, running := p.2.running && !p.2.disabled }) else p)
    trigOut := s.trigOut.map (fun p => if ns.contains (0x020 + p.1) then (p.1, { p.2 with disabled := false }) else p) }

/-- FAULT_CLEAR. With SRC 0xFFFF at the root CELLAR_FIRST and CELLAR_MASK clear too (R448). -/
def cmdFaultClear (h : Hdr) (src : Nat) (s : State) : State :=
  s.runCmd { h with rsv := h.rsv || (decide (4095 < src) && src != 0xFFFF) } 0x0009 [] none fun s =>
    let ns := (s.flt.srcs.filter (fun p => p.2.status && (src == 0xFFFF || p.1 == src))).map Prod.fst
    let r := clearSources s ns
    let s := ((r.1.thawStacks ns).enableOutputs ns).unfault
    let s := if src == 0xFFFF && s.isRoot then
      { s with flt := { s.flt with cellarFirst := none, cellarEcho := 0, cellarMask := 0, cellarOvf := false } } else s
    Res.ok s (le 2 ns.length ++ le 2 r.2.length) []

def execFaultClear (h : Hdr) (src : Nat) (s : State) : Step := .next (cmdFaultClear h src s)

end Sys2Proof.Machine
end

