-- ==== Sys2Proof/Machine/Epoch.lean ====
section
/-! DEFINITION. Epoch commits: COMMIT, the staging deadline, the verdicts, the commit instant, T, and ABORT (09_batches.md R250 to R254,
R257; R319). A decided commit waits in its units: each applies at its handover, its stop, or here at T. -/

namespace Sys2Proof.Machine
open Sys2Proof

/-! ## COMMIT (R250, R251) -/

/-- The lowest pace measured of the Maltster and the quadrant fabrics, in 2^-12 (R20, R251); 1 before the first window (log 27). -/
def State.commitPace (s : State) : Nat :=
  let l := (s.pace.drop 36).take 5 |>.filter (fun v => v != 0)
  match l with
  | [] => 4096
  | v :: vs => vs.foldl min v

/-- L_commit in fs at a pace in 2^-12 (R251). -/
def lCommit (pace h : Nat) : Nat := 4 * us * 4096 / pace + 200 * ns * h

/-- Whether the commit of a group is undecided. -/
def State.undecidedCommit (s : State) (g : Nat) : Bool := s.commits.any (fun c => c.group == g && c.state == 0)

/-- The other devices of a mask. -/
def State.otherDevs (s : State) (dmask : Nat) : List Nat := (ones dmask 64).filter (fun d => d != s.cdev)

/-- A message on the sync virtual lane to every other device of a mask. -/
def State.tellDevs (s : State) (dmask mtype : Nat) (body : List Byte) : State :=
  (s.otherDevs dmask).foldl (fun s d => s.sendMsg (if d < s.cdev then 0 else 1) d 0 mtype body) s

/-- The checks of R250. -/
def State.commitChecks (s : State) (b : Nat) (x : Batch) (p : CommitP) : List (Bool × Nat) :=
  let h := hopsIn p.dmask
  [(p.t.time.isNone || !p.bmask.testBit (b - 1) || !p.dmask.testBit s.cdev || s.dmaskBad p.dmask ||
     x.ep.items.isEmpty || x.ep.group != p.group || x.ep.epoch != p.epoch, eRange),
   (s.undecidedCommit p.group, eBusy),
   (decide (p.t.time.getD 0 < s.now + lCommit 4096 h + 100 * ns * h), eLatency)]

/-- COMMIT. -/
def cmdCommit (h : Hdr) (p : CommitP) (s : State) : State :=
  let b := cmdBatch h
  s.runCmd h 0x0112 [] none fun s =>
    match s.batch b with
    | none => Res.err s eState
    | some x =>
      let t := p.t.time.getD 0
      let c : CommitS := ⟨p.group, p.epoch, p.bmask, p.dmask, t, t - lCommit s.commitPace (hopsIn p.dmask), commitTc t p.dmask,
        some (h.tap, h.seq), b, [], false, 0⟩
      checked s (s.commitChecks b x p) (Res.acc (({ s with commits := s.commits ++ [c] }).tellDevs p.dmask 1 c.body))

def execCommit (h : Hdr) (p : CommitP) (s : State) : Step := .next (cmdCommit h p s)

/-! ## The decision (R251 to R253) -/

/-- The units of a commit on this device. -/
def CommitS.units (c : CommitS) : List Nat := (ones c.bmask 16).map (· + 1)

/-- Whether a unit is in time: its FINAL for GROUP and EPOCH no later than the deadline. -/
def State.inTime (s : State) (c : CommitS) (b : Nat) : Bool :=
  match s.batch b with
  | some x => x.destroying.isNone && x.ep.staged && x.ep.group == c.group && x.ep.epoch == c.epoch && decide (x.ep.finAt ≤ c.deadline)
  | none => false

/-- This device's verdict: the mask of its late units. -/
def State.ownVerdict (s : State) (c : CommitS) : Nat := (c.units.filter (fun b => !s.inTime c b)).foldl (fun m b => m + 2 ^ (b - 1)) 0

/-- The undecided commit of a group. -/
def State.openCommit (s : State) (g : Nat) : Option CommitS := s.commits.find? (fun c => c.group == g && c.state == 0)

/-- A commit put in the place of an earlier form of it. -/
def State.putCommit (s : State) (old new : CommitS) : State := { s with commits := s.commits.map (fun c => if c == old then new else c) }

/-- LATEDEV. -/
def CommitS.lateDev (c : CommitS) : Nat := (c.verdicts.filter (fun v => v.2 != 0)).foldl (fun m v => setBit m v.1) 0

/-- A unit of an aborted commit: the outcome of R254, its FINAL with E_EPOCH; the staged items stay. -/
def State.abortUnit (s : State) (c : CommitS) (reason lateB b : Nat) : State :=
  match s.batch b with
  | none => s
  | some x =>
    let mine := x.ep.group == c.group && x.ep.epoch == c.epoch
    let e := { x.ep with lastGroup := c.group, lastEpoch := c.epoch, outcome := reason + 1, lateDev := c.lateDev, lateB := c.verdicts.filter (fun v => v.2 != 0) }
    let e := if mine then { e with thr := none, fin := none, due := false } else e
    let s := s.setBatch b { (if mine then x.reverted else x) with ep := e }
    match x.ep.fin with
    | some k => if mine then s.finish k.1 k.2 eEpoch 0 (commitResult c.epoch reason lateB 0 c.lateDev) else s
    | none => s

/-- A commit aborted with REASON: 1 LATE, 2 PWRFAIL, 3 LOST. -/
def State.abortCommit (s : State) (c : CommitS) (reason : Nat) : State :=
  let lateB := (assoc c.verdicts s.cdev).getD 0
  let s := { s with commits := s.commits.filter (fun d => d != c) }
  let s := c.units.foldl (fun s b => s.abortUnit c reason lateB b) s
  match c.key with
  | some k => s.finish k.1 k.2 eEpoch 0 (commitResult c.epoch reason lateB 0 c.lateDev)
  | none => s

/-- A commit decided: its units apply at their first boundary at or after T. -/
def State.decideCommit (s : State) (c : CommitS) : State :=
  let s := s.putCommit c { c with state := 1 }
  c.units.foldl (fun s b => s.onBatch b (fun x => { x with ep := { x.ep with thr := some c.t } })) s

/-- A device that holds the verdicts of every unit decides (R252). -/
def State.decide_ (s : State) (c : CommitS) : State :=
  if (ones c.dmask 64).all (fun d => (assoc c.verdicts d).isSome) then
    (if c.lateDev == 0 then s.decideCommit c else s.abortCommit c 1)
  else s

/-- STAGING_DEADLINE (R251): the verdicts of this device's units are fixed and sent. -/
def stagingDeadline (s : State) (g t : Nat) : State :=
  match s.openCommit g with
  | none => s
  | some c =>
    if c.fixed || decide (t < c.deadline) then s
    else
      let s := s.at_ t
      let m := s.ownVerdict c
      let d := { c with fixed := true, verdicts := put c.verdicts s.cdev m }
      ((s.putCommit c d).tellDevs c.dmask 2 (le 1 g ++ le 1 s.cdev ++ le 2 m)).decide_ d

def execStagingDeadline (group t : Nat) (s : State) : Step := .next (stagingDeadline s group t)

/-- COMMIT_VERDICT_RX (R252). -/
def verdictRx (s : State) (g dev m t : Nat) : State :=
  match s.openCommit g with
  | none => s
  | some c =>
    if !c.dmask.testBit dev || dev == s.cdev then s
    else
      let d := { c with verdicts := put c.verdicts dev (m &&& c.bmask) }
      ((s.at_ t).putCommit c d).decide_ d

def execCommitVerdictRx (group dev mask t : Nat) (s : State) : Step := .next (verdictRx s group dev mask t)

/-- COMMIT_INSTANT (R253): a device that lacks a verdict at T_c aborts. -/
def commitInstant (s : State) (g t : Nat) : State :=
  match s.openCommit g with
  | none => s
  | some c => if t < c.tc then s else (s.at_ t).abortCommit c 3

def execCommitInstant (group t : Nat) (s : State) : Step := .next (commitInstant s group t)

/-! ## T (R252) and ABORT (R257) -/

/-- A unit at T: one whose batch is not RUNNING applies now, and reports so also where a boundary that never comes had taken the
items. -/
def State.unitAtT (s : State) (c : CommitS) (b : Nat) : State :=
  match s.batch b with
  | none => s
  | some x =>
    if x.state == 3 then s
    else if x.ep.thr == some c.t then (s.applyUnit b noVnum).finalOk b
    else if x.ep.due && x.ep.group == c.group && x.ep.epoch == c.epoch then (s.onBatch b (fun x => x.committed noVnum)).finalOk b
    else s

/-- COMMIT_APPLY: T arrives for the decided commits of a group. -/
def commitApply (s : State) (g t : Nat) : State :=
  let cs := s.commits.filter (fun c => c.group == g && c.state == 1 && decide (c.t ≤ t))
  cs.foldl (fun s c =>
    let s := c.units.foldl (fun s b => s.unitAtT c b) (s.at_ t)
    if c.key.isNone then { s with commits := s.commits.filter (fun d => d != c) } else s) s

def execCommitApply (group t : Nat) (s : State) : Step := .next (commitApply s group t)

/-- COMMIT_ABORT_RX: the ABORT of a warned device reaches this one before T. -/
def commitAbortRx (s : State) (g t : Nat) : State :=
  match s.commits.find? (fun c => c.group == g && decide (t < c.t)) with
  | none => s
  | some c => (s.at_ t).abortCommit c 2

def execCommitAbortRx (group t : Nat) (s : State) : Step := .next (commitAbortRx s group t)

/-- The commits with a unit here whose T_c the warning at `now` precedes or meets: ABORT to their devices, and their units abort
(R257). -/
def State.abortAtWarning (s : State) : State :=
  (s.commits.filter (fun c => c.dmask.testBit s.cdev && decide (s.now ≤ c.tc))).foldl (fun s c =>
    (s.tellDevs c.dmask 3 (le 1 c.group)).abortCommit c 2) s

end Sys2Proof.Machine
end

