-- ==== Sys2Proof/Machine/Identity.lean ====
section
/-! DEFINITION. IDENT and IMAGE_STATUS (10_taps.md R288; 11_commands.md R293). -/

namespace Sys2Proof.Machine
open Sys2Proof

/-- Device ID of a function, and the class code (R404). -/
def deviceId (fn : Nat) : Nat := if fn == 0 then 0x0512 else 0x0513
def classCode : Nat := 0x1200

/-- The identity record (R288). -/
def State.identity (s : State) : List Byte :=
  let safe := s.boot.bootSafe
  le 2 0x0512 ++ le 1 0xA1 ++ le 1 0xA1 ++ le 2 (if safe then Config.romSeries else 1) ++ le 2 (if safe then 0 else s.boot.fwPatch) ++
    le 2 (if safe then 0 else s.boot.ucPatch) ++ le 1 (b2n safe) ++ le 1 s.cellar.cdev ++ le 4 0 ++ le 16 Config.serial ++ le 16 0

/-- IDENT. -/
def cmdIdent (h : Hdr) (s : State) : State := s.runCmd h 0x0001 [] none fun s => Res.ok s s.identity []

def execIdent (h : Hdr) (s : State) : Step := .next (cmdIdent h s)

/-- The record of IMAGE_STATUS (R293). -/
def Boot.record (x : Boot) : List Byte :=
  le 1 x.source ++ le 1 x.verify ++ le 2 x.series ++ le 2 x.fwPatch ++ le 2 x.ucPatch ++ le 4 x.imglen ++ le 4 0 ++
    (x.digest ++ List.replicate 32 0).take 32

/-- IMAGE_STATUS. -/
def cmdImageStatus (h : Hdr) (s : State) : State := s.runCmd h 0x000E [] none fun s => Res.ok s s.boot.record []

def execImageStatus (h : Hdr) (s : State) : Step := .next (cmdImageStatus h s)

end Sys2Proof.Machine
end

