-- ==== Sys2Proof/Machine/Ptp.lean ====
section
/-! DEFINITION. IEEE 1588: PTP_CONFIG, the slave-only ordinary clock and the transparent clock (R300, R394 to R399).
Time stamps come as the port captured them, in fs of time of day; the factory constants of R396 are applied here. -/

namespace Sys2Proof.Machine
open Sys2Proof

def State.ptpPort (s : State) (p : Nat) : PtpPort := s.ptp.ports.get PtpPort.zero p

/-- PTP_CONFIG (R300, R292): MODE[7:3] is reserved. -/
def cmdPtpConfig (h : Hdr) (port mode transport domain : Nat) (asym : Int) (s : State) : State :=
  s.runCmd { h with rsv := h.rsv || decide (7 < mode) } 0x000B [] none fun s =>
    checked s [(decide (1 < port) || decide (2 < transport), eRange)]
      (Res.ok { s with ptp := { s.ptp with ports := s.ptp.ports.set PtpPort.zero port ⟨mode, transport, domain, asym⟩ } } [] [])

def execPtpConfig (h : Hdr) (port mode transport domain : Nat) (asym : Int) (s : State) : Step :=
  .next (cmdPtpConfig h port mode transport domain asym s)

/-- correctionField (2^-16 ns) in fs. -/
def cfFs (cf : Int) : Int := rhe (cf * 1000000) 65536

/-- The sample of R398 from t1, t2 and the latest exchange; none before the first exchange. -/
def Ptp.sample (p : Ptp) (port : Nat) (t1 t2 cf : Int) : Ptp :=
  match p.exch with
  | none => p
  | some (t3, t4, cfr) =>
    let asym := (p.ports.get PtpPort.zero port).asym
    let cs := cfFs cf + asym
    let cd := cfFs cfr - asym
    let mpd := rhe ((t2 - t3) + (t4 - t1) - cs - cd) 2
    { p with mpd := mpd, offset := t2 - t1 - mpd - cs, samples := (p.samples + 1) % 65536 }

/-- Whether a message comes from the parent in its port's domain. -/
def Ptp.fromParent (p : Ptp) (m : PtpMsg) : Bool :=
  p.parent == some (m.port, m.src) && (p.ports.get PtpPort.zero m.port).domain == m.domain &&
    (p.ports.get PtpPort.zero m.port).mode.testBit 0

/-- PTP_SYNC_RX (R398): a two-step Sync waits for its Follow_Up. -/
def ptpSync (s : State) (m : PtpMsg) (t2 : Int) : State :=
  let p := s.ptp
  if !p.fromParent m then s
  else
    let t2 := t2 - Config.ptpIngress m.port
    if m.twoStep then { s with ptp := { p with sync := some (m, t2) } } else { s with ptp := p.sample m.port m.ts t2 m.cf }

def execPtpSyncRx (m : PtpMsg) (t2 : Int) (s : State) : Step := .next (ptpSync s m t2)

/-- PTP_FOLLOW_UP_RX (R398). -/
def ptpFollowUp (s : State) (m : PtpMsg) : State :=
  let p := s.ptp
  match p.sync with
  | none => s
  | some (y, t2) =>
    if p.fromParent m && y.src == m.src && y.seqId == m.seqId && y.domain == m.domain then
      { s with ptp := { p.sample m.port m.ts t2 (y.cf + m.cf) with sync := none } }
    else s

def execPtpFollowUpRx (m : PtpMsg) (s : State) : Step := .next (ptpFollowUp s m)

/-- PTP_DELAY_RESP_RX (R398): the answer to the Delay_Req outstanding completes the exchange. -/
def ptpDelayResp (s : State) (m : PtpMsg) : State :=
  let p := s.ptp
  match p.req with
  | none => s
  | some (t3, seq) =>
    if p.fromParent m && m.own && m.seqId == seq then { s with ptp := { p with req := none, exch := some (t3, m.ts, m.cf) } } else s

def execPtpDelayRespRx (m : PtpMsg) (s : State) : Step := .next (ptpDelayResp s m)

/-! ## The parent (R395) -/

/-- Whether a list of numbers stands before another at the first place where they differ. -/
def lexBefore : List Nat → List Nat → Bool
  | [], ys => !ys.isEmpty
  | _ :: _, [] => false
  | x :: xs, y :: ys => decide (x < y) || (x == y && lexBefore xs ys)

/-- What the best master clock algorithm compares, lower values better: the standard's data set, then sourcePortIdentity and port
(PRESUMED from IEEE 1588-2019; log 68). -/
def Master.key (m : Master) : List Nat := m.rank ++ [m.src, m.port]

/-- The best of some masters. -/
def best : List Master → Option Master
  | [] => none
  | m :: ms => match best ms with
    | some n => some (if lexBefore n.key m.key then n else m)
    | none => some m

/-- Whether the ordinary clock of a master's port hears it (R395): MODE[0] and the port's domain. -/
def Ptp.hears (p : Ptp) (m : Master) : Bool :=
  (p.ports.get PtpPort.zero m.port).mode.testBit 0 && (p.ports.get PtpPort.zero m.port).domain == m.domain

/-- PTP_ANNOUNCE_RX (R395): the best master clock algorithm selects the parent over the masters of the ports with MODE[0]; a new parent has
no exchange yet. -/
def ptpAnnounce (s : State) (port : Nat) (a : Announce) : State :=
  let p := s.ptp
  let new : Master := ⟨port, a.src, a.domain, [a.prio1, a.clockClass, a.accuracy, a.variance, a.prio2, a.grandmaster, a.steps]⟩
  if !p.hears new then s
  else
    let others := p.masters.filter (fun m => !(m.port == port && m.src == a.src) && !a.lapsed.contains (m.port, m.src) && p.hears m)
    let masters := others ++ [new]
    let parent := (best masters).map (fun m => (m.port, m.src))
    let p := { p with masters := masters }
    { s with ptp := if parent == p.parent then p else { p with parent := parent, sync := none, req := none, exch := none } }

def execPtpAnnounceRx (port : Nat) (a : Announce) (s : State) : Step := .next (ptpAnnounce s port a)

/-! ## Frames of the engine's own and of the transparent clock (R395, R398, R399) -/

/-- The multicast destination of a transport (PRESUMED from the standard; log 68): layer 2, UDP over IPv4, UDP over IPv6. -/
def ptpDst : Nat → Nat
  | 0 => 0x011B19000000
  | 1 => 0xE0000181
  | _ => 0xFF0E0000000000000000000000000181

/-- A PTP message leaves a port over a transport: kind 0x88F7 is layer 2, 7 UDP over IPv4 and 8 over IPv6, where the data begins with the
UDP port, 319 for event messages and 320 for the others; then messageType and the message's fields in the order of the standard (R5). -/
def State.ptpSend (s : State) (port transport mtype : Nat) (body : List Byte) : State :=
  let data := le 1 mtype ++ body
  match transport with
  | 0 => s.emit (.frame port (ptpDst 0) 0x88F7 data)
  | k => s.emit (.frame port (ptpDst k) (6 + k) (be 2 (if mtype < 8 then 319 else 320) ++ data))

/-- DELAY_REQ_SEND (R398): by the port of the parent, with its egress time kept as t3. -/
def delayReq (s : State) (t3 : Int) : State :=
  let p := s.ptp
  match p.parent with
  | none => s
  | some (port, _) =>
    State.ptpSend { s with ptp := { p with req := some (t3 + Config.ptpEgress port, p.reqSeq), reqSeq := (p.reqSeq + 1) % 65536 } } port
      (s.ptpPort port).transport 1 (be 2 p.reqSeq)

def execDelayReqSend (t3 : Int) (s : State) : Step := .next (delayReq s t3)

/-- Residence time in correctionField units (R399). -/
def residence (r : Int) : Int := rhe (r * 65536) 1000000

/-- The four 16-bit words of a correctionField, summed. -/
def cfSum (cf : Int) : Nat :=
  let v := toField 64 cf
  v % 65536 + v / 65536 % 65536 + v / 4294967296 % 65536 + v / 281474976710656 % 65536

/-- A UDP checksum, or for IPv6 the checksum-complement bytes, after a change of the correctionField (R399); a UDP checksum of 0 says that
there is none. -/
def sumAfter (transport sum : Nat) (old new : Int) : Nat :=
  if old = new || (transport == 1 && sum == 0) then sum
  else
    let v := (((sum : Int) + cfSum old - cfSum new) % 65535).toNat
    if v == 0 then 65535 else v

/-- A message forwarded with a correctionField, and over UDP its checksum. -/
def State.forward (s : State) (m : PtpMsg) (kind : Nat) (cf : Int) : State :=
  let tr := (s.ptpPort m.port).transport
  s.ptpSend (1 - m.port) tr kind (be 8 (toField 64 cf) ++ (if tr == 0 then [] else be 2 (sumAfter tr m.sum m.cf cf)))

/-- Whether a two-step residence entry belongs to a message. -/
def TcEntry.of (e : TcEntry) (src seqId domain : Nat) : Bool := e.src == src && e.seqId == seqId && e.domain == domain

/-- TC_FORWARD (R395, R399): `kind` is the messageType of the standard: 0 Sync, 1 Delay_Req, 8 Follow_Up; peer delay messages, 2, 3 and 10, are
not forwarded, the others pass unchanged. -/
def tcForward (s : State) (m : PtpMsg) (kind : Nat) (ingress egress : Int) : State :=
  if !((s.ptpPort 0).mode.testBit 1 && (s.ptpPort 1).mode.testBit 1) || kind == 2 || kind == 3 || kind == 10 then s
  else
    let out := egress + Config.ptpEgress (1 - m.port)
    let r := out - (ingress - Config.ptpIngress m.port)
    let two := (s.ptpPort m.port).mode.testBit 2
    let p := s.ptp
    if kind == 0 && m.twoStep && two then
      if p.tc.length < 64 then State.forward { s with ptp := { p with tc := p.tc ++ [⟨m.src, m.seqId, m.domain, r, out⟩] } } m kind m.cf
      else (s.forward m kind (m.cf + residence r)).count 0x0806 1 Ev.dev
    else if kind == 0 || kind == 1 then s.forward m kind (m.cf + residence r)
    else if kind == 8 && two then
      match p.tc.find? (fun e => e.of m.src m.seqId m.domain) with
      | some e => State.forward { s with ptp := { p with tc := p.tc.erase e } } m kind (m.cf + residence e.r)
      | none => (s.forward m kind m.cf).count 0x0807 1 Ev.dev
    else s.forward m kind m.cf

def execTcForward (m : PtpMsg) (kind : Nat) (ingress egress : Int) (s : State) : Step := .next (tcForward s m kind ingress egress)

/-- TC_ENTRY_EXPIRY (R399): 1 s after its Sync left. -/
def tcExpiry (s : State) (src seqId : Nat) (e : TcEnd) : State :=
  match s.ptp.tc.find? (fun x => x.of src seqId e.domain) with
  | some x =>
    if x.egress + second ≤ e.tod then ({ s with ptp := { s.ptp with tc := s.ptp.tc.erase x } }).count 0x0807 1 Ev.dev else s
  | none => s

def execTcEntryExpiry (src seqId : Nat) (e : TcEnd) (s : State) : Step := .next (tcExpiry s src seqId e)

end Sys2Proof.Machine
end

