-- ==== Sys2Proof/Machine/Commands.lean ====
section
/-! DEFINITION. COMMAND_DISPATCH: the slot at the head of a tap's dispatch queue read by the layouts of R268, R292 and R305, the first
checks of R276, and the command's own meaning (10_taps.md R268 to R278; 11_commands.md R290). -/

namespace Sys2Proof.Machine
open Sys2Proof

/-! ## Payload fields -/

/-- A data reference at an offset (R271). -/
def refAt (p : List Byte) (o : Nat) : DRef :=
  ⟨fld p o 8, fld p (o + 8) 4, (fld p (o + 12) 1).testBit 0, decide (1 < fld p (o + 12) 1) || !zeros p (o + 13) 3⟩

/-- A signed field of n bytes. -/
def sfld (p : List Byte) (o n : Nat) : Int := sext (8 * n) (fld p o n)

/-- The record of R188. -/
def acqAt (p : List Byte) : AcqCfg :=
  { acq := fld p 0 1, ttype := fld p 1 1, tsel := fld p 2 1, flags := fld p 3 1, srcA := fld p 4 2, srcB := fld p 6 2
    tlim1 := fld p 8 8, tlim2 := fld p 16 8, pre := fld p 24 8, post := fld p 32 8, holdoff := fld p 40 8, recint := fld p 48 8
    measmask := fld p 56 2, avgk := fld p 58 1, evtmax := fld p 60 2, ringaddr := fld p 64 8, ringslots := fld p 72 4 }

/-- ACQ_ARM. -/
def acqArmAt (p : List Byte) : AcqArmP :=
  let f := fld p 1 1
  ⟨fld p 0 1, f.testBit 0, f.testBit 1, bits f 3 2, fld p 2 2, fld p 4 4, fld p 8 2, fld p 10 2⟩

/-- A device command's payload run by its opcode (R292). -/
def runDevice (h : Hdr) (op : Nat) (p : List Byte) (s : State) : State :=
  let z := fun (o n : Nat) => !zeros p o n
  let r := fun (b : Bool) => { h with rsv := b }
  match op with
  | 0x0001 => cmdIdent h s
  | 0x0002 => cmdBatchCreate (r (z 1 7)) (fld p 0 1) s
  | 0x0003 => cmdBatchDestroy h s
  | 0x0004 => cmdAssign (r (z 3 1 || z 12 4)) ⟨fld p 0 1, fld p 1 1, fld p 2 1, fld p 4 4, fld p 8 4⟩ s
  | 0x0005 => cmdPower (r (z 2 6)) (fld p 0 1) (fld p 1 1) s
  | 0x0006 => cmdRack (r (z 1 1)) (fld p 0 1) (fld p 2 2) (fld p 4 4) s
  | 0x0007 => cmdMapCommit (r (z 1 7)) (fld p 0 1) s
  | 0x0008 => cmdFaultRead (r (z 4 4)) (fld p 0 2) (fld p 2 2) (refAt p 8) s
  | 0x0009 => cmdFaultClear (r (z 2 6)) (fld p 0 2) s
  | 0x000A => cmdTimeSet (r (z 1 7)) (fld p 0 1) (sfld p 8 8) (pairAt p 16) s
  | 0x000B => cmdPtpConfig (r (z 4 4 || z 16 16)) (fld p 0 1) (fld p 1 1) (fld p 2 1) (fld p 3 1) (sfld p 8 8) s
  | 0x000C =>
    cmdCalRun (r (z 1 1 || z 17 3 || z 20 4 || z 56 8)) ⟨fld p 0 1, fld p 2 2, fld p 4 4, Per.ofBytes p 8, pairAt p 24, refAt p 40⟩ s
  | 0x000D => cmdCalStatus (r (z 2 6)) (fld p 0 2) (refAt p 8) s
  | 0x000E => cmdImageStatus h s
  | 0x000F => cmdPeScriptLoad h (fld p 0 2) (fld p 2 2) (fld p 4 4) (refAt p 8) s
  | 0x0010 => cmdInject (r (z 4 4)) (fld p 0 2) (fld p 2 2) s
  | 0x0011 => cmdWakeBudget (r (z 2 6)) (fld p 0 2) s
  | _ => s

/-- A batch command's payload run by its opcode (R305), first part. -/
def runBatch (h : Hdr) (op : Nat) (p : List Byte) (s : State) : State :=
  let z := fun (o n : Nat) => !zeros p o n
  let r := fun (b : Bool) => { h with rsv := b }
  match op with
  | 0x0100 => cmdTsLoad h (refAt p 0) s
  | 0x0101 => cmdTsInvalidate (r (z 1 7)) (fld p 0 1) s
  | 0x0102 => cmdPatLoad h (refAt p 0) (refAt p 16) s
  | 0x0103 =>
    cmdSegMap (r (z 5 3 || z 13 3 || z 20 4)) ⟨fld p 0 2, fld p 2 1, fld p 3 1, fld p 4 1, fld p 8 5, fld p 16 4, refAt p 24⟩ s
  | 0x0104 => cmdSiteDefine (r (z 10 2)) ⟨fld p 0 4, fld p 4 4, fld p 8 2, fld p 12 4, refAt p 16⟩ s
  | 0x0105 => cmdLevels (r (z 10 6)) (sfld p 0 4) (fld p 4 4) (fld p 8 2) (refAt p 16) s
  | 0x0106 =>
    cmdStart (r (decide (1 < fld p 41 1) || z 42 6)) ⟨pairAt p 0, fld p 16 8, fld p 24 16, fld p 40 1, (fld p 41 1).testBit 0⟩ s
  | 0x0107 => cmdStop h s
  | 0x0108 => cmdStatus h (refAt p 0) s
  | 0x0109 =>
    cmdSnapshot (r (decide (31 < fld p 1 1) || z 2 6)) ⟨fld p 0 1, fld p 1 1, fld p 8 8, pairAt p 16, fld p 32 32, refAt p 64⟩ s
  | 0x010A => cmdFailRead (r (decide (1 < fld p 4 1) || z 5 3)) (fld p 0 4) ((fld p 4 1).testBit 0) (refAt p 8) s
  | 0x010B => cmdAcqConfig (r (z 59 1 || z 62 2 || z 76 4)) (acqAt p) s
  | _ => s

/-- The same, second part. -/
def runBatch2 (h : Hdr) (op : Nat) (p : List Byte) (s : State) : State :=
  let z := fun (o n : Nat) => !zeros p o n
  let r := fun (b : Bool) => { h with rsv := b }
  match op with
  | 0x010C => cmdAcqArm (r (decide (15 < fld p 1 1) || z 12 4)) (acqArmAt p) s
  | 0x010D => cmdMeasRead (r (z 2 2)) (fld p 0 1) (fld p 1 1) (fld p 4 4) (refAt p 8) s
  | 0x010E => cmdFlowLoad h (refAt p 0) s
  | 0x010F => cmdStreamOpen (r (z 3 5)) (fld p 0 2) (fld p 2 1) (fld p 8 8) (refAt p 16) s
  | 0x0110 => cmdCounterSelect (r (z 8 8)) (fld p 0 1) (fld p 1 1) (fld p 2 2) (fld p 4 4) s
  | 0x0111 =>
    let f := fld p 2 1
    cmdStage (r (decide (3 < f) || z 3 1 || z 10 6)) ⟨fld p 0 1, fld p 1 1, f.testBit 0, f.testBit 1, fld p 4 4, fld p 8 2, refAt p 16⟩ s
  | 0x0112 => cmdCommit (r (z 1 1)) ⟨fld p 0 1, fld p 2 2, fld p 4 4, fld p 8 8, pairAt p 16⟩ s
  | 0x0113 => cmdClockOut (r (z 3 5)) ⟨fld p 0 1, fld p 1 1, fld p 2 1, fld p 8 8, pairAt p 16⟩ s
  | 0x0114 => cmdTrigConfig (r (z 3 1)) (fld p 0 1) (fld p 1 1) (fld p 2 1) (fld p 4 4) s
  | 0x0116 => cmdPeriodLoad (r (decide (3 < fld p 1 1) || z 2 6 || z 17 3 || z 20 4)) (fld p 0 1) (fld p 1 1) (Per.ofBytes p 8) s
  | _ => s

/-- A slot run: the first checks of R276, in the boot-safe state E_AUTH before them (R287), then the command. -/
def runSlot (tap : Nat) (slot inl : List Byte) (t : Nat) (s : State) : State :=
  let op := fld slot 0 2
  let h := slotHdr tap slot inl t
  let p := slot.drop 16
  let fail := fun st => (s.at_ t).post tap ⟨h.seq, st, 0, op, h.target, 0, []⟩ []
  if s.boot.bootSafe && op != 0x0001 && op != 0x000E then fail eAuth
  else match slotErr slot with
    | some st => fail st
    | none => if op < 0x0100 then runDevice h op p s else if op < 0x010C then runBatch h op p s else runBatch2 h op p s


/-- COMMAND_DISPATCH: the next command of the queue of a tap whose turn it is; the tap then comes after all others (R278). -/
def dispatchNext (s : State) (tap t : Nat) : State :=
  let x := s.tap tap
  match x.dq with
  | [] => s
  | q :: qs =>
    if !s.dispatches tap then s
    else
      let u := runSlot tap q.slot q.inl t (s.setTap tap { x with dq := qs })
      { u with served := u.served.filter (fun k => k != tap) ++ [tap] }

def execCommandDispatch (tap t : Nat) (s : State) : Step := .next (dispatchNext s tap t)

end Sys2Proof.Machine
end

