-- ==== Sys2Proof/Machine/Messages.lean ====
section
/-! DEFINITION. Cellar-link messages: their flits received and forwarded, and what a delivered message does (15_links.md R417, R420,
R421, R426; 09_batches.md R250 to R257; 16_faults_reserves.md R448, R449; 04_sequencer.md R106). -/

namespace Sys2Proof.Machine
open Sys2Proof

/-- What a message delivered to this device does, by its MTYPE; it does what the row of its kind does. The reports of match blocks and
repetitions are the operands of CONSENSUS_DECISION (log 15). -/
def State.delivered (s : State) (p src mtype : Nat) (m : List Byte) : State :=
  match mtype with
  | 1 => s.commitArrive m
  | 2 => verdictRx s (fld m 0 1) (fld m 1 1) (fld m 2 2) s.now
  | 3 => commitAbortRx s (fld m 0 1) s.now
  | 4 => cellarFaultMsg s (fld m 0 1) (fld m 1 2) (fld m 3 2)
  | 5 => s.lostPeer p (fld m 0 1)
  | 6 => syncReportRx s ⟨fld m 0 1, src, fld m 1 1, fld m 2 2, fld m 4 4, accAt m 9, fld m 8 1⟩ s.now
  | 7 => s.syncOutcome (fld m 0 1) (fld m 1 1) (accAt m 2)
  | _ => s

/-- DEST of a message from its first flit. -/
def destOf (f : Flit) : Nat := fld f.payload 0 1

/-- Whether a flit fits the FIRST, MID and LAST order after the fragments held (R426). -/
def fits_ (held : List Flit) (f : Flit) : Bool :=
  if f.ftype == 1 || f.ftype == 2 then held.isEmpty else !held.isEmpty

/-- An accepted flit joins its message (R426): fragments out of order, or a whole message with a bad NFLIT, are discarded and
counted; a message for another device, and each broadcast, goes out of the other port flit by flit; the buffers of a whole
message are freed. A fault message for CDEV 0 is for the root of a broken chain too (R448). -/
def assemble (s : State) (p : Nat) (f : Flit) : State :=
  let x := s.port p
  let held := (assoc x.rx f.vl).getD []
  if !fits_ held f then
    let n := held.length + 1
    let s := s.setPort (1 - p) ((s.port (1 - p)).endFwd f.vl)
    (s.setPort p ({ x with rx := x.rx.filter (fun r => r.1 != f.vl) }.free f.vl n)).count 0x0804 1 Ev.dev
  else
    let msg := held ++ [f]
    let dest := destOf (msg.headD f)
    let mine := dest == s.cdev || (dest == 0 && fld (msg.headD f).payload 2 1 == 4 && s.isRoot)
    let s := if mine then s else s.forwardFlit (1 - p) f
    let x := s.port p
    if f.ftype == 1 || f.ftype == 4 then
      let nflit := fld (msg.headD f).payload 3 1
      let s := s.setPort p ({ x with rx := x.rx.filter (fun r => r.1 != f.vl) }.free f.vl msg.length)
      if nflit == 0 || decide (16 < nflit) || nflit != msg.length then s.count 0x0804 1 Ev.dev
      else if mine || dest == 0xFF then
        let bytes := msg.flatMap (fun g => g.payload)
        s.delivered p (fld bytes 1 1) (fld bytes 2 1) (bytes.drop 4)
      else s
    else s.setPort p { x with rx := put x.rx f.vl msg }

/-- FLIT_RX_DATA (R417, R421, R426): the acknowledgement and RELEASED it carries, then its place in the sequence. -/
def rxData (s : State) (p : Nat) (f : Flit) : State :=
  let x := s.port p
  if !x.passes || f.ftype == 0 || decide (4 < f.ftype) then s
  else
    let x := if f.ackv then x.acked f.ack else x
    let x := { x with relSeen := atVl x.relSeen f.cvl (fun _ => f.rel % 65536) }
    let s := (s.setPort p x).pump p x.txq.length
    let x := s.port p
    if f.seq == x.exp then
      let s := s.setPort p { x with
        exp := (x.exp + 1) % 4096
        nak := false
        accepted := atVl x.accepted f.vl (fun v => (v + 1) % 65536)
        occ := atVl x.occ f.vl (fun v => v + 1) }
      (assemble s p f).sendAck p
    else if (x.exp + 4096 - f.seq) % 4096 ≤ 2048 then (s.sendAck p).count 0x0802 1 Ev.dev
    else (s.sendNak p).count 0x0803 1 Ev.dev

def execFlitRxData (port : Nat) (f : Flit) (s : State) : Step := .next (rxData s port f)

end Sys2Proof.Machine
end

