-- ==== Sys2Proof/Machine/Reset.lean ====
section
/-! DEFINITION. Power-fail warning, last-gasp record, thermal shutdown, the resets, start-up, images, the boot window and the
retention area (09_batches.md R255 to R258; 17_power_and_start.md R473 to R486; 19_electrical.md R506; 20_registers.md R523 to
R527; 10_taps.md R286). -/

namespace Sys2Proof.Machine
open Sys2Proof

/-! ## The last-gasp record (R258, R525, R526) -/

/-- FLT_FIRST or FLT_PRELIM as a register (R445). -/
def FltReg.word (f : FltReg) : Nat :=
  f.src + 65536 * b2n f.valid + 131072 * b2n f.settled + 262144 * b2n f.replaced + 4294967296 * f.domain + 281474976710656 * f.code

/-- A batch's entry: `vs` lists the batches that existed at t_w, with V_pf of those that were active. A unit of a commit that stands and
that has not applied applies at T (R257). -/
def State.gaspEntry (s : State) (vs : List (Nat × Option Nat)) (b : Nat) : List Byte :=
  match assoc vs b, s.batch b with
  | some v, some x =>
    let late := x.ep.thr.isSome || x.ep.due
    le 1 x.state ++ le 1 (if v.isSome then x.reason else 0) ++ le 1 (if late then 1 else x.ep.outcome) ++ le 1 (b2n x.reserrSat) ++
      le 4 (toField 32 x.reserr) ++ le 8 (v.getD noVnum) ++ le 4 (if late then x.ep.epoch else x.ep.cur) ++ le 4 0 ++
      le 8 (if late then (x.undo.map (fun u => u.v)).getD noVnum else x.ep.applied) ++ x.counts.bytes
  | _, _ => le 1 0xFF ++ List.replicate 191 0

/-- The record without its CRC. -/
def State.gaspBody (s : State) (g : Gasp) : List Byte :=
  le 4 0x4C415354 ++ le 2 1 ++ le 1 g.cause ++ le 1 0 ++ timeBytes g.tw ++ timeBytes g.tod ++ le 8 s.flt.first.word ++ le 8 s.flt.prelim.word ++
    List.replicate 8 0 ++ (List.range 16).flatMap (fun i => s.gaspEntry g.batches (i + 1))

/-- Bytes stored from offset 0 as a table. -/
def byteTab (bs : List Byte) : Tab Byte := (bs.mapIdx (fun i v => (i, v))).filter (fun p => p.2 != 0)

/-- Every domain parked but the ones kept: dependents before what they require. -/
def State.parkAllBut (s : State) (keep : List Nat) : State :=
  (([2] ++ (List.range 47).drop 3 ++ [48, 49, 51, 50, 47]).filter (fun d => !keep.contains d)).foldl State.park1 s

/-- Every ARMED or RUNNING batch stops at V_h with the reason PWRFAIL (R255). -/
def State.pwrfailStops (s : State) : State :=
  s.actives.foldl (fun s b => batchStop (s.onBatch b (fun x => x.addCause 6 x.vh)) b s.now) s

/-- The record that a warning owes is written, CRC last, and every domain but PD0, PD1 and PD47 parks (R258, R473); a batch started since the
warning stops first (log 51). -/
def State.gaspNow (s : State) : State :=
  match s.boot.gasp with
  | none => s
  | some g =>
    let s := s.pwrfailStops
    let body := s.gaspBody g
    ({ s with boot := { s.boot with ret := byteTab (body ++ le 4 (crc32 body)), retWriting := false, gasp := none } }).parkAllBut [0, 1, 47]

/-- The stop of R255 for a batch that the report of the warning has not stopped, its pair being broken (R439). -/
def Batch.powerFails (x : Batch) : Batch := if x.causes.any (fun c => c.1 == 6) then x else x.addCause 6 x.vh

/-- What a warning does at t_w (R255 to R258, R473); `cause` is DETAIL of PWRFAIL. The last-gasp record follows, once the strobes before
V_pf can be judged (R172, R256; log 51). Before READY start-up is given up without a record (R474); the report and its message are made
all the same. -/
def State.warn (s : State) (cause : Nat) : State :=
  if !s.boot.ready then (s.raise 0x001 0x0001 cause true).msi 0 2
  else
    let tw := s.now
    let vpf := fun (x : Batch) => if x.active then some x.vh else none
    let g : Gasp := ⟨cause, tw, s.tb.tod tw, s.batches.map (fun p => (p.1, vpf p.2))⟩
    let bs := s.actives
    let s := ((s.raise 0x001 0x0001 cause true).msi 0 2).abortAtWarning
    let s := { s with acqs := s.acqs.map (fun p => (p.1, p.2.powerFail tw s.tb)) }
    let s := bs.foldl (fun s b => batchStop (s.onBatch b Batch.powerFails) b tw) s
    let s := s.dropWakes (fun _ => true)
    { s with boot := { s.boot with retWriting := true, gasp := some g } }

/-- WAKE_SLOT (R468 to R472). The last-gasp record of a warning is written at the first slot 10 µs after t_w, within the 30 µs of R256
(log 51). -/
def wakeSlotRow (s : State) (t : Nat) : State :=
  let s := wakeSlot s t
  if s.boot.gasp.any (fun g => decide (g.tw + 10 * us ≤ t)) && t % (10 * us) == 0 then s.gaspNow else s

def execWakeSlot (t : Nat) (s : State) : Step := .next (wakeSlotRow s t)

/-- PWRFAIL_WARNING: PWRFAIL_N low for 100 ns. -/
def pwrfailWarn (s : State) (t : Nat) : State :=
  if s.pwr.pwrfailLow then s
  else
    let s := s.at_ t
    ({ s with pwr := { s.pwr with pwrfailLow := true } }).warn 0

def execPwrfailWarning (t : Nat) (s : State) : Step := .next (pwrfailWarn s t)

/-- THERMAL_SHUTDOWN (R506): as on a warning, until a cold reset. -/
def thermalShut (s : State) (t : Nat) : State :=
  if s.pwr.pwrfailLow then { s with pwr := { s.pwr with shut := true } }
  else
    let s := s.at_ t
    ({ s with pwr := { s.pwr with pwrfailLow := true, shut := true } }).warn 1

def execThermalShutdown (t : Nat) (s : State) : Step := .next (thermalShut s t)

/-! ## Resets (R474 to R476, R286) -/

/-- The rows repaired in each stack, which stay repaired (R372). -/
def Dram.rows (d : Dram) : Tab Stack :=
  (d.stackTab.filter (fun k => !k.2.ppr.isEmpty)).map (fun k => (k.1, { Stack.zero with ppr := k.2.ppr }))

/-- What no reset of the block touches: the queue of commands, what it has sent, the free values used, the repair map in flash, the
rows repaired in the stacks. -/
def State.fresh0 (s : State) : State :=
  { State.reset with
    pending := s.pending, free := s.free, out := s.out, rep := { State.reset.rep with copies := s.rep.copies }
    dram := { State.reset.dram with stackTab := s.dram.rows } }

/-- A cold reset keeps the retention memory (R475, R524). -/
def coldReset (s : State) : State := { s.fresh0 with boot := { Boot.zero with ret := s.boot.ret } }

def execColdReset (s : State) : Step := .next (coldReset s)

/-- A rail that leaves range leads to a cold reset once it returns; until then the block is not ready (R474). -/
def railLoss (s : State) : State := coldReset s

def execRailLoss (s : State) : Step := .next (railLoss s)

/-- POWER_ON_RESET. -/
def powerOnReset (s : State) : State := s.fresh0

def execPowerOnReset (s : State) : Step := .next (powerOnReset s)

/-- PWRFAIL_RETURN (R474, R258, R473): before READY a cold reset; else the batches stay FAULTED and the record in place, written now where
it still was not, and wakes stay refused for 1 ms. A thermal shutdown is left at a cold reset only. -/
def pwrfailBack (s : State) (t : Nat) : State :=
  if !s.pwr.pwrfailLow || s.pwr.shut then s
  else if !s.boot.ready then coldReset s
  else
    let s := (s.at_ t).gaspNow
    let s := s.setSrc 0x001 { s.src 0x001 with level := none }
    { s with pwr := { s.pwr with pwrfailLow := false, wakeBlock := t + 1000 * us } }

def execPwrfailReturn (t : Nat) (s : State) : Step := .next (pwrfailBack s t)

/-- PERST_N low: every function's tap and the configuration space with the MSI-X tables (R475, R286; log 14). -/
def fundamentalReset (s : State) : State :=
  let s := (List.range 17).foldl resetTap s
  { s with pcie := Pcie.zero, irq := { s.irq with masked := List.range 68, msiPend := [], msiTab := [] } }

def execPcieFundamentalReset (s : State) : Step := .next (fundamentalReset s)

/-- A function-level reset: its tap, its counter map and latches, its MSI-X table (R286, R497; log 14). -/
def functionReset (s : State) (fn : Nat) : State :=
  if !(fn == 0 || (s.pcie.vfEnable && decide (fn ≤ s.pcie.numVfs))) then s
  else
    let s := resetTap s fn
    let own := fun (v : Nat) => v / 4 == fn
    { s with
      wins := s.wins.set Window64.zero fn Window64.zero
      irq := { s.irq with
        masked := s.irq.masked.filter (fun v => !own v) ++ (List.range 4).map (fun v => 4 * fn + v)
        msiPend := s.irq.msiPend.filter (fun v => !own v)
        msiTab := s.irq.msiTab.filter (fun p => !own p.1) } }

def execFunctionLevelReset (fn : Nat) (s : State) : Step := .next (functionReset s fn)

/-! ## Images (R481 to R485) -/

/-- The PE scripts of an image keep the checks of R303. -/
def scriptsOk (l : List (Nat × Nat × Nat × List Byte)) : Bool :=
  l.all (fun p => decide (p.1 ≤ 1023) && p.2.1 != 0 && decide (p.2.2.2.length ≤ 4096) && scriptOk p.2.1 p.2.2.2) &&
  decide ((l.map (fun p => p.2.2.2.length)).sum ≤ 262144)

/-- VERIFY of an image (R484); a BUDGET outside R483, or a UCODE section of other than 1,024 words (R482), breaks the section contents. -/
def verifyImage (i : Image) : Nat :=
  if i.empty || i.magic != 0x5951494D then 1
  else if i.format != 1 || i.series != 1 || i.part != 0x0512 || i.die != 0xA1 || i.mod != 0xA1 || decide (8388608 < i.imglen) ||
      i.imglen != 368 + i.clen || !i.rsvOk then 2
  else if !i.sigOk then 3
  else if !i.tagOk then 4
  else if !i.sectOk || i.ucode.length != 1024 || !scriptsOk i.pescripts || (i.devFlags.testBit 2 && !within i.budget 1 1000) then 2
  else 0

/-- IMAGE_STATUS of an image found or not (R293). -/
def Boot.identify (x : Boot) (i : Image) (src v : Nat) : Boot :=
  if v == 1 then { x with source := 0xFF, verify := 1, series := 0, fwPatch := 0, ucPatch := 0, imglen := 0, digest := [] }
  else { x with source := src, verify := v, series := i.series, fwPatch := i.fwPatch, ucPatch := i.ucPatch, imglen := i.imglen, digest := i.digest }

/-- The boot-safe state with the window open (R479, R486, R478). -/
def State.bootSafe (s : State) : State :=
  let s := s.parkAllBut [0, 1, 47]
  ({ s with boot := { s.boot with ready := true, bootSafe := true, bwOpen := true, bwBusy := false } }).heldDoorbells

/-- IMAGE_FAIL (R484, R486). -/
def State.imageFail (s : State) (i : Image) (src v : Nat) : State :=
  ({ s with boot := s.boot.identify i src v }).raiseFree 0x030 0x0030 true

/-- The configuration block (R483, R380): AGEADJ is 0 where the block gives none. -/
def State.configure (s : State) (i : Image) : State :=
  let s := s.setTb (s.tb.rcorrFrom { s.tb with ageadj := if i.devFlags.testBit 1 then i.ageadj else 0 })
  let budget := if i.devFlags.testBit 2 then i.budget else 40
  let s := { s with pwr := { s.pwr with budget := budget, budgetNext := budget } }
  (List.range 4).foldl (fun s q => s.setStack q { s.stack q with freeze := i.devFlags.testBit 0 && !i.eccp.testBit q }) s

/-- The PE script defaults. -/
def State.loadScripts (s : State) (i : Image) : State :=
  { s with scripts := i.pescripts.foldl (fun m p => put m p.1 ⟨p.2.1, p.2.2.1, pieces 8 (p.2.2.2.length / 8) p.2.2.2⟩) s.scripts }

/-- Every domain that is parked is woken under the boot budget; its tokens are issued and used (R477, R470). `warm`: a slice
that was parked gets DUE (R463). -/
def State.wakeAll (s : State) (warm : Bool) : State :=
  let ds := (List.range 52).filter (fun d => !s.powered d)
  let n := (ds.map wakeCost).sum
  let s := if warm then (ds.filter (fun d => within d 3 34)).foldl (fun s d => s.delayDue (d - 3)) s else s
  { s with pwr := { s.pwr with on := 2 ^ 52 - 1, issued := s.pwr.issued + n, used := s.pwr.used + n } }

/-- Each stack trained, with the eye widths found, and cleared (R367, R370, R354). -/
def State.freshStacks (s : State) (eyes : List (Nat × Nat)) : State :=
  let s := { s with dram := { s.dram with mem := [], poison := [], flip := [], owner := [], clearing := [] } }
  (List.range 4).foldl (fun s q =>
    let k := s.stack q
    (s.setStack q { Stack.zero with freeze := k.freeze, temp := k.temp, trainTemp := k.temp, hot85 := k.hot85, ppr := k.ppr }).eyesDone q
      ((eyes.filter (fun p => p.1 / 2048 == q)).map (fun p => (p.1 % 2048, p.2)))) s

/-- The two results of an item that the boot sequence calibrates (R215, R226); a histogram may be discarded (R222), and a WORN item waits
for an external calibration (R228). -/
def State.bootCal (s : State) (item : Nat) (u v : Option CalVal × Bool) : State :=
  if (s.item item).state == 2 then s
  else (((s.setItem item { s.item item with first := none }).takeMeasure item u).takeMeasure item v)

/-- The items of step 7: the PLL item once the PLL has locked, and the TDCs of the reserve cells while REFIN is the active reference; a
histogram short of 2^20 events gives no result (R222). -/
def State.bootCals (s : State) (m : BootCal) : State :=
  if !s.tb.locked then s
  else
    let s := (s.bootCal 0x4000 (some (.lock m.trim m.band), true) (some (.lock m.trim2 m.band2), true)).showBand s.tb.vcoBand
    if s.tb.crystal then s
    else (List.range 64).foldl (fun s i =>
      let h := m.hists.getD i ([], [])
      if h.1.sum != histFull || h.2.sum != histFull then s
      else s.bootCal (0x2000 + 2 * (17 * (i / 2) + 16) + i % 2) (histVal h.1) (histVal h.2)) s

/-- Steps 4 to 8 with a verified image (R477, R480): `m` what the measurements give, the VCO band where the PLL locks only now
among it. -/
def State.bootImage (s : State) (i : Image) (src : Nat) (m : BootCal) (warm : Bool) (t : Nat) : State :=
  let s := { s with boot := s.boot.identify i src 0 }
  let s := s.setSrc 0x030 { s.src 0x030 with level := none }
  let s := (((s.configure i).decideRepair).loadScripts i).wakeAll warm
  let s := ((pllLock s m.band).at_ t).freshStacks m.eyes
  let s := (s.bootCals m).ethsUp
  ({ s with boot := { s.boot with ready := true, bootSafe := false, bwOpen := false, bwBusy := false, patch := i.ucode } }).heldDoorbells

/-- Step 3: the image in flash, unless BOOT_WIN is high (R479). -/
def State.bootFlash (s : State) (i : Image) (m : BootCal) (warm : Bool) (t : Nat) : State :=
  if s.boot.bwStrap then s.bootSafe
  else
    let v := verifyImage i
    if v == 0 then s.bootImage i 0 m warm t else (s.imageFail i 0 v).bootSafe

/-- START_UP (R477). PWRFAIL_N low gives it up (R474). -/
def startUp (s : State) (i : Image) (bootWin refinOk : Bool) (m : BootCal) (t : Nat) : State :=
  if s.boot.ready || s.pwr.pwrfailLow then s
  else
    let n := wakeCost 50 + wakeCost 47
    let on := setBit (setBit s.pwr.on 50) 47
    let s := { s with
      boot := { s.boot with bwStrap := bootWin }
      tb := { s.tb with refinOk := refinOk, refinSince := s.now, xtalOk := true }
      pwr := { s.pwr with on := on, issued := s.pwr.issued + n, used := s.pwr.used + n } }
    ((pllLock s m.band).at_ t).bootFlash i m false t

def execStartUp (img : Image) (bootWin refinOk : Bool) (m : BootCal) (t : Nat) (s : State) : Step := .next (startUp s img bootWin refinOk m t)

/-- What a warm reset leaves (R475, R476): active batches stop with their channels safe and cease to exist, with the swaps held to their
stop (R230); what it keeps. -/
def State.warm (s : State) : State :=
  let s := ((s.cal.items.filter (fun p => p.2.pending)).map Prod.fst).foldl State.swapItem s
  let p := s.pwr.drop (fun _ => true)
  { s.fresh0 with
    tb := s.tb
    ptp := s.ptp
    cal := { s.cal with asyncMask := 0, interval := 60, runs := [], slTurn := [], started := [], gather := [] }
    tdcs := s.tdcs
    fixture := s.fixture
    pwr := { p with queue := [], ramps := [], idlepark := 0 }
    dram := { State.reset.dram with
      stackTab := s.dram.stackTab.map (fun k => (k.1, { Stack.zero with temp := k.2.temp, trainTemp := k.2.trainTemp, hot85 := k.2.hot85, ppr := k.2.ppr })) }
    cellar := s.cellar
    eths := s.eths
    irq := { State.reset.irq with masked := s.irq.masked, msiPend := s.irq.msiPend, msiTab := s.irq.msiTab }
    pcie := s.pcie
    boot := { s.boot with ready := false, bootSafe := false, bwOpen := false, bwBusy := false, retWriting := false, clrRefused := false, gasp := none }
    pace := s.pace
    paceLow := s.paceLow }

/-- WARM_RESET (R475, R476): then start-up from step 3; the PLL keeps its lock, or locks again. With
PWRFAIL_N low, or after a thermal shutdown, start-up does not go on (R474, R506; log 30). -/
def warmReset (s : State) (i : Image) (m : BootCal) (t : Nat) : State :=
  if s.pwr.shut then s
  else
    let s := (s.at_ t).gaspNow.warm
    if s.pwr.pwrfailLow then s
    else s.bootFlash i m true t

def execWarmReset (up : WarmUp) (t : Nat) (s : State) : Step := .next (warmReset s up.img up.cal t)

/-! ## Boot window and retention area (R480, R523, R527) -/

/-- BW_LOAD: a write of BW_CTRL with LOAD; refused with REQ_ERR. -/
def bwLoad (s : State) (load persist : Bool) : State :=
  let x := s.boot
  if !load then s
  else if !x.bwOpen || x.bwBusy || x.bwLen == 0 || decide (8388608 < x.bwLen) then { s with boot := { x with bwReqErr := true } }
  else { s with boot := { x with bwBusy := true, bwPersist := persist } }

def execBwLoad (load persist : Bool) (s : State) : Step := .next (bwLoad s load persist)

/-- BW_LOAD_DONE: a load that fails R484 keeps the buffer and the window; one that verifies continues from step 4, after its write
to flash with PERSIST. -/
def bwLoadDone (s : State) (i : Image) (persistOk : Bool) (m : BootCal) (t : Nat) : State :=
  if !s.boot.bwBusy then s
  else
    let v := verifyImage i
    let s := { s with boot := { s.boot with bwBusy := false, bwVerify := v } }
    if v != 0 then s.imageFail i 1 v
    else
      let s := { s with boot := { s.boot with bwPersistFail := s.boot.bwPersist && !persistOk } }
      s.bootImage i 1 m false t

def execBwLoadDone (img : Image) (persistOk : Bool) (m : BootCal) (t : Nat) (s : State) : Step := .next (bwLoadDone s img persistOk m t)

/-- RET_CLEAR: refused while a record is being written. -/
def retClear (s : State) : State :=
  if s.boot.retWriting then { s with boot := { s.boot with clrRefused := true } } else { s with boot := { s.boot with ret := [] } }

def execRetClear (s : State) : Step := .next (retClear s)

end Sys2Proof.Machine
end

