-- ==== Sys2Proof/Machine/Regs.lean ====
section
/-! DEFINITION. The registers of BAR0: what each offset shows, and the write of a register field without behaviour of its
own (01_conventions.md R7 to R9; 20_registers.md R518 to R527; R260 to R263, R388, R410, R445, R472, R493). Reads that latch and writes
that act are rows of their own. -/

namespace Sys2Proof.Machine
open Sys2Proof

/-! ## What a read shows -/

/-- TAP_STATUS [127:64] (R260). -/
def State.tapStatus (s : State) (t : Nat) : Nat :=
  let x := s.tap t
  x.expSeq + 4294967296 * (x.hist.length + 128 * b2n x.dbErr + 256 * b2n x.cplErr + 512 * b2n x.netMode + 1024 * b2n s.boot.bootSafe +
    2048 * b2n (t != 0 && (s.batch t).isNone) + 4096 * x.asyncs.length)

/-- TB_CTRL (R388). -/
def TimeBase.ctrl (x : TimeBase) : Nat :=
  x.refsel + 4 * b2n x.todfollow + 8 * b2n x.cfgErr + 256 * b2n x.crystal + 512 * b2n x.refinOk + 1024 * b2n x.locked +
    2048 * b2n x.holdover + 4096 * b2n x.epochValid + 8192 * b2n x.epochArmed.isSome + 16384 * b2n x.todValid + 32768 * b2n x.gsBusy +
    65536 * b2n x.todfSat + 16777216 * x.vcoBand

/-- The time-base registers (R388). -/
def State.tbReg (s : State) (off : Nat) : Nat :=
  let x := s.tb
  match off with
  | 0x80 => x.ctrl
  | 0x88 => toField 32 x.ageadj
  | 0x90 => toField 32 x.refadj
  | 0x98 => toField 40 x.rcorr
  | 0xA0 => toField 32 x.gsTarget
  | 0xA8 => toField 32 x.gscale
  | 0xB0 => x.gsTimeS
  | 0xB8 => x.gsTimeF
  | 0xC0 => s.ptp.samples % 65536 + 65536 * b2n s.ptp.parent.isSome + 131072 * (s.ptp.parent.map Prod.fst).getD 0 + 4294967296 * s.ptp.tc.length
  | 0xC8 => toField 64 s.ptp.offsetLatch
  | 0xD0 => toField 64 s.ptp.mpdLatch
  | 0xD8 => x.lead + 65536 * b2n x.near + 4294967296 * x.syncCount
  | 0xE0 => x.syncLastLatch / second
  | 0xE8 => x.syncLastLatch % second
  | _ => 0

/-- CELLAR_FIRST (R445). -/
def Faults.cellarWord (f : Faults) : Nat :=
  match f.cellarFirst with
  | some (dev, src, dom) => dev + 64 + 128 * b2n f.cellarOvf + 65536 * src + 4294967296 * dom + 281474976710656 * f.cellarEcho
  | none => 0

/-- The fault summary (R445). LEVEL is the inverse of DRIVE: what else holds the line low is not in the model. -/
def State.fltReg (s : State) (off : Nat) : Nat :=
  let f := s.flt
  match off with
  | 0x400 => f.first.word
  | 0x408 => f.prelim.word
  | 0x410 =>
    b2n f.overflow + 65536 * (f.srcs.filter (fun p => p.2.status && !p.2.warn)).length +
      4294967296 * (f.srcs.filter (fun p => p.2.status && p.2.warn)).length
  | 0x418 => f.maskF + 65536 * f.maskW + 4294967296 * b2n f.drive + 8589934592 * b2n (!f.drive)
  | 0x420 => f.autorack
  | 0x428 => f.cellarWord
  | 0x430 => f.cellarMask
  | _ =>
    if 0x500 ≤ off && off < 0x700 then
      (f.srcs.filter (fun p => p.2.status && p.1 / 64 == (off - 0x500) / 8)).foldl (fun m p => setBit m (p.1 % 64)) 0
    else 0

/-- A word of the counter window (R493, R494): CNT_LO with the latch of its slot, or CNT_MAP. -/
def State.cntReg (s : State) (fn off : Nat) : Nat :=
  let w := s.win fn
  if off < 0x300 then
    let slot := (off - 0x100) / 8
    let n := w.ctr slot
    let l := w.latch.get (0, false) slot
    if s.reaches fn n then s.ctrValue (s.ctr n) % 4294967296 + 4294967296 * l.1 + 281474976710656 * b2n l.2 else 0
  else if off < 0x340 then ((List.range 8).map (fun j => w.ctr (off - 0x300 + j) * 2 ^ (8 * j))).sum
  else 0

/-- The 8 bytes of a table from an address. -/
def tab8 (m : Tab Byte) (a : Nat) : Nat := unle (Memory.reads m a 8)

/-- PRESENT and CUT of RET_CTRL (R527): MAGIC is there, and whether CRC matches. -/
def Boot.gaspFound (x : Boot) : Bool := unle (Memory.reads x.ret 0 4) == 0x4C415354
def Boot.gaspWhole (x : Boot) : Bool := crc32 (Memory.reads x.ret 0 3136) == unle (Memory.reads x.ret 3136 4)

/-- The boot-window and retention registers (R523, R527). -/
def Boot.reg (x : Boot) (off : Nat) : Nat :=
  match off with
  | 0x900 => x.bwLen
  | 0x908 => b2n x.bwOpen + 2 * b2n x.bwBusy + 4 * b2n x.bwReqErr + 8 * b2n x.bwPersistFail + 256 * x.bwVerify
  | 0x910 =>
    b2n (x.gaspFound && x.gaspWhole) + 2 * b2n (x.gaspFound && !x.gaspWhole) + 4 * b2n x.retWriting + 8 * b2n x.clrRefused
  | _ => 0

/-- Device ID of a function, and the class code of every one (R404). -/
def pcieDevice (fn : Nat) : Nat := if fn == 0 then 0x0512 else 0x0513
def pcieClass : Nat := 0x1200

/-- The settings of the PCIe configuration that R404 to R406 support: TotalVFs, payload and request sizes, link widths and speeds, BAR2 sizes. -/
def Pcie.legal (p : Pcie) : Bool :=
  decide (p.numVfs ≤ 16) && p.d3.all (fun fn => decide (fn ≤ 16)) && decide (p.mps ∈ [128, 256, 512]) &&
    decide (p.mrrs ∈ [128, 256, 512, 1024, 2048, 4096]) && decide (p.lanes ∈ [1, 2, 4, 8, 16]) && decide (p.speed ∈ [25, 50, 80, 160, 320]) &&
    [p.pfBar2, p.vfBar2].all (fun k => decide (30 ≤ k) && decide (k ≤ 36))

/-- The registers that only the physical function shows (R519). -/
def State.pfReg (s : State) (off : Nat) : Nat :=
  if off == 0x30 then s.netTaps + 4294967296 * s.udpPort
  else if off == 0x50 then Config.mac 0 % 281474976710656
  else if off == 0x60 then Config.mac 1 % 281474976710656
  else if off == 0x58 then (s.eth 0).addr + 4294967296 * (s.eth 0).plen + 1099511627776 * b2n (s.eth 0).en
  else if off == 0x68 then (s.eth 1).addr + 4294967296 * (s.eth 1).plen + 1099511627776 * b2n (s.eth 1).en
  else if off == 0x70 then s.pwr.on + 4503599627370496 * min 4095 (s.pwr.queue.map (fun w => w.cost)).sum
  else if off == 0x78 then s.pwr.idlepark
  else if off < 0x100 then s.tbReg off
  else if off < 0x800 then s.fltReg off
  else if off < 0x1000 then s.boot.reg off
  else if 0x8000 ≤ off && off < 0x9000 then tab8 s.boot.ret (off - 0x8000)
  else 0

/-- The 64 bits of BAR0 of a function at an offset that is a multiple of 8 (R519). DEVTIME, PTP_OFFSET, PTP_MPD, SYNC_LAST and
CNT_HI show their latches. -/
def State.bar0 (s : State) (fn off : Nat) : Nat :=
  if off == 0 then unle (s.identity.take 8)
  else if off == 0x08 then (s.tap fn).cmdTail + 4294967296 * (s.tap fn).cplHead
  else if off == 0x20 then (s.tap fn).cmdHead + 4294967296 * (s.tap fn).cplTail
  else if off == 0x28 then s.tapStatus fn
  else if off == 0x40 then (s.win fn).devtime / second
  else if off == 0x48 then (s.win fn).devtime % second
  else if 0x100 ≤ off && off < 0x400 then s.cntReg fn off
  else if 0x800 ≤ off && off < 0x868 then ((List.range 4).map (fun j => s.paceOf ((off - 0x800) / 2 + j) * 2 ^ (16 * j))).sum
  else if off == 0x868 then s.paceLow
  else if 0x1000 ≤ off && off < 0x3000 then tab8 (s.tap fn).ring (off - 0x1000)
  else if 0x3000 ≤ off && off < 0x4000 then
    match assoc (s.tap fn).cpls ((off - 0x3000) / 64) with
    | some c => fld c.bytes (off % 64) 8
    | none => 0
  else if fn == 0 then s.pfReg off
  else 0

/-! ## REGISTER_WRITE -/

/-- A 64-bit register after a write of its low or high half, or both. -/
def merge (lo hi : Bool) (old new : Nat) : Nat :=
  (if lo then new % 4294967296 else old % 4294967296) + 4294967296 * (if hi then new / 4294967296 % 4294967296 else old / 4294967296)

/-- The bits of IDLEPARK that exist: PD3 to PD38 and PD51 (R472, R466). -/
def idleparkBits : Nat := 2 ^ 39 - 2 ^ 3 + 2 ^ 51

/-- GS_TIME (R384): a time pair whose F breaks R29 is ignored and sets CFG_ERR. -/
def State.gsTimeF (s : State) (v : Nat) : State := if second ≤ v then s.cfgErr else s.setTb { s.tb with gsTimeF := v }

/-- NETx_IP4 (R410): a longer PREFIX is stored as 32. -/
def State.setIp (s : State) (p v : Nat) : State :=
  let e := { s.eth p with addr := v % 4294967296, plen := min 32 (bits v 37 32), en := v.testBit 40 }
  { s with eths := s.eths.set Eth.zero p e }

/-- CNT_MAP (R493): the counters of eight slots. -/
def Window64.setMap (w : Window64) (off v : Nat) : Window64 :=
  { w with map := (List.range 8).foldl (fun m j => m.set 0 (off - 0x300 + j) (bits v (8 * j + 7) (8 * j) ^^^ (off - 0x300 + j))) w.map }

/-- The fields that the physical function alone writes; `v` is the merged value of RW fields, `w` the bits written for W1C. -/
def State.pfWrite (s : State) (off v w : Nat) : State :=
  match off with
  | 0x30 => { s with netTaps := v % 131072, udpPort := bits v 47 32 }
  | 0x58 => s.setIp 0 v
  | 0x68 => s.setIp 1 v
  | 0x78 => { s with pwr := { s.pwr with idlepark := v &&& idleparkBits } }
  | 0x80 => if w.testBit 3 then s.setTb { s.tb with cfgErr := false } else s
  | 0xB0 => s.setTb { s.tb with gsTimeS := v }
  | 0xB8 => s.gsTimeF v
  | 0x418 => { s with flt := { s.flt with maskF := v % 512, maskW := bits v 24 16 } }
  | 0x420 => { s with flt := { s.flt with autorack := v % 16 } }
  | 0x900 => if s.boot.bwOpen then { s with boot := { s.boot with bwLen := v % 4294967296 } } else s
  | 0x908 => if s.boot.bwOpen && w.testBit 2 then { s with boot := { s.boot with bwReqErr := false } } else s
  | 0x910 => if w.testBit 3 then { s with boot := { s.boot with clrRefused := false } } else s
  | _ => s

/-- A write of the fields of one 64-bit word that have no behaviour of their own, by halves. -/
def State.regWrite (s : State) (fn off : Nat) (lo hi : Bool) (v : Nat) : State :=
  let w := merge lo hi 0 v
  let m := merge lo hi (s.bar0 fn off) v
  if off == 0x28 then
    let x := s.tap fn
    s.setTap fn { x with dbErr := x.dbErr && !w.testBit 39, cplErr := x.cplErr && !w.testBit 40 }
  else if 0x300 ≤ off && off < 0x340 then s.setWin fn ((s.win fn).setMap off m)
  else if 0x1000 ≤ off && off < 0x3000 then
    let x := s.tap fn
    s.setTap fn { x with ring := Memory.writes x.ring (off - 0x1000) (le 8 m) }
  else if fn == 0 then s.pfWrite off m w
  else s

/-- REGISTER_WRITE (R405, R518): of a function that exists, 4 or 8 aligned bytes; anything else is ignored. -/
def registerWrite (s : State) (fn off size value : Nat) : State :=
  if !s.pcie.up fn then s
  else if size == 8 && off % 8 == 0 then s.regWrite fn off true true value
  else if size == 4 && off % 8 == 0 then s.regWrite fn off true false value
  else if size == 4 && off % 8 == 4 then s.regWrite fn (off - 4) false true (4294967296 * (value % 4294967296))
  else s

def execRegisterWrite (fn off size value : Nat) (s : State) : Step := .next (registerWrite s fn off size value)

end Sys2Proof.Machine
end

