-- ==== Sys2Proof/Machine/Dispatch.lean ====
section
/-! DEFINITION. One command's effect on everything but the queue: one arm per constructor, each a direct call of its
meaning, or a refusal by name. -/

namespace Sys2Proof.Machine
open Sys2Proof

def exec (i : Instr) (s : State) : Host.Outcome State Fault Refusal :=
  match i with
  -- device commands (R292 to R304)
  | .ident h => Sys2Proof.Machine.execIdent h s
  | .batchCreate h weight => Sys2Proof.Machine.execBatchCreate h weight s
  | .batchDestroy h => Sys2Proof.Machine.execBatchDestroy h s
  | .batchDestroyDone b t => Sys2Proof.Machine.execBatchDestroyDone b t s
  | .assign h p => Sys2Proof.Machine.execAssign h p s
  | .granuleClearDone g t => Sys2Proof.Machine.execGranuleClearDone g t s
  | .power h domain action => Sys2Proof.Machine.execPower h domain action s
  | .rack h kind unit arg => Sys2Proof.Machine.execRack h kind unit arg s
  | .rackDone copies t => Sys2Proof.Machine.execRackDone copies t s
  | .repairMapCommit h src => Sys2Proof.Machine.execRepairMapCommit h src s
  | .repairMapCommitDone copies t => Sys2Proof.Machine.execRepairMapCommitDone copies t s
  | .faultRead h first count data => Sys2Proof.Machine.execFaultRead h first count data s
  | .faultClear h src => Sys2Proof.Machine.execFaultClear h src s
  | .timeSet h op value time => Sys2Proof.Machine.execTimeSet h op value time s
  | .ptpConfig h port mode transport domain asym => Sys2Proof.Machine.execPtpConfig h port mode transport domain asym s
  | .calRun h p => Sys2Proof.Machine.execCalRun h p s
  | .calRunDone t => Sys2Proof.Machine.execCalRunDone t s
  | .calStatus h nitem data => Sys2Proof.Machine.execCalStatus h nitem data s
  | .imageStatus h => Sys2Proof.Machine.execImageStatus h s
  | .peScriptLoad h script busmask settle data => Sys2Proof.Machine.execPeScriptLoad h script busmask settle data s
  | .inject h checker count => Sys2Proof.Machine.execInject h checker count s
  | .wakeBudget h budget => Sys2Proof.Machine.execWakeBudget h budget s
  -- batch commands (R305 to R321)
  | .tsLoad h data => Sys2Proof.Machine.execTsLoad h data s
  | .tsInvalidate h set => Sys2Proof.Machine.execTsInvalidate h set s
  | .patLoad h prog cmaps => Sys2Proof.Machine.execPatLoad h prog cmaps s
  | .segMap h p => Sys2Proof.Machine.execSegMap h p s
  | .siteDefine h p => Sys2Proof.Machine.execSiteDefine h p s
  | .levels h voff vstep script data => Sys2Proof.Machine.execLevels h voff vstep script data s
  | .start h p => Sys2Proof.Machine.execStart h p s
  | .stop h => Sys2Proof.Machine.execStop h s
  | .status h data => Sys2Proof.Machine.execStatus h data s
  | .snapshot h p => Sys2Proof.Machine.execSnapshot h p s
  | .failRead h maxrec purge data => Sys2Proof.Machine.execFailRead h maxrec purge data s
  | .acqConfig h c => Sys2Proof.Machine.execAcqConfig h c s
  | .acqArm h p => Sys2Proof.Machine.execAcqArm h p s
  | .measRead h acq mode maxrec data => Sys2Proof.Machine.execMeasRead h acq mode maxrec data s
  | .flowLoad h data => Sys2Proof.Machine.execFlowLoad h data s
  | .streamOpen h segid tsnum cbaddr data => Sys2Proof.Machine.execStreamOpen h segid tsnum cbaddr data s
  | .counterSelect h counter scopekind source scope => Sys2Proof.Machine.execCounterSelect h counter scopekind source scope s
  | .stage h p => Sys2Proof.Machine.execStage h p s
  | .commit h p => Sys2Proof.Machine.execCommit h p s
  | .clockOut h p => Sys2Proof.Machine.execClockOut h p s
  | .trigConfig h pin width flags offset => Sys2Proof.Machine.execTrigConfig h pin width flags offset s
  | .cancel h tseq => Sys2Proof.Machine.execCancel h tseq s
  | .periodLoad h index flags rec => Sys2Proof.Machine.execPeriodLoad h index flags rec s
  -- pattern instructions executed by the sequencers of batch b (R90)
  | .nop b => Sys2Proof.Machine.execNop b s
  | .vec b seg count => Sys2Proof.Machine.execVec b seg count s
  | .rpt b count => Sys2Proof.Machine.execRpt b count s
  | .loop b count => Sys2Proof.Machine.execLoop b count s
  | .endl b => Sys2Proof.Machine.execEndl b s
  | .call b c target => Sys2Proof.Machine.execCall b c target s
  | .ret b c => Sys2Proof.Machine.execRet b c s
  | .jmp b c target => Sys2Proof.Machine.execJmp b c target s
  | .matchBlock b seg timeout group => Sys2Proof.Machine.execMatchBlock b seg timeout group s
  | .tset b set => Sys2Proof.Machine.execTset b set s
  | .per b idx => Sys2Proof.Machine.execPer b idx s
  | .waitt b abs time => Sys2Proof.Machine.execWaitt b abs time s
  | .sync b timeout rdv t => Sys2Proof.Machine.execSync b timeout rdv t s
  | .trig b outs => Sys2Proof.Machine.execTrig b outs s
  | .mark b code => Sys2Proof.Machine.execMark b code s
  | .flag b setm clrm => Sys2Proof.Machine.execFlag b setm clrm s
  | .sitemask b entry => Sys2Proof.Machine.execSitemask b entry s
  | .peact b settle script => Sys2Proof.Machine.execPeact b settle script s
  | .halt b c => Sys2Proof.Machine.execHalt b c s
  -- running a batch
  | .batchRunBegin b => Sys2Proof.Machine.execBatchRunBegin b s
  | .vectorHandover b => Sys2Proof.Machine.execVectorHandover b s
  | .vectorBegin b => Sys2Proof.Machine.execVectorBegin b s
  | .edgeFire lch line => Sys2Proof.Machine.execEdgeFire lch line s
  | .compareDecision b sl obs => Sys2Proof.Machine.execCompareDecision b sl obs s
  | .failMemoryWrite b => Sys2Proof.Machine.execFailMemoryWrite b s
  | .consensusDecision b reports othersMatch others => Sys2Proof.Machine.execConsensusDecision b reports othersMatch others s
  | .syncReport group dev b rdv timeout aw t => Sys2Proof.Machine.execSyncReport group dev b rdv timeout aw t s
  | .syncTimeout group t => Sys2Proof.Machine.execSyncTimeout group t s
  | .markPost b => Sys2Proof.Machine.execMarkPost b s
  | .batchStop b t => Sys2Proof.Machine.execBatchStop b t s
  | .spargeDeadline b => Sys2Proof.Machine.execSpargeDeadline b s
  | .spargeFetchDone b seg => Sys2Proof.Machine.execSpargeFetchDone b seg s
  | .fillWrite b seg value => Sys2Proof.Machine.execFillWrite b seg value s
  | .peScriptDone bus e t => Sys2Proof.Machine.execPeScriptDone bus e t s
  | .peBusFault bus t => Sys2Proof.Machine.execPeBusFault bus t s
  | .trigInEdge pin fall t => Sys2Proof.Machine.execTrigInEdge pin fall t s
  -- site services
  | .flowPinStart pin t => Sys2Proof.Machine.execFlowPinStart pin t s
  | .jobDispatch core t => Sys2Proof.Machine.execJobDispatch core t s
  | .jobComplete core t => Sys2Proof.Machine.execJobComplete core t s
  | .acquireTimeout b t => Sys2Proof.Machine.execAcquireTimeout b t s
  | .delayTick t => Sys2Proof.Machine.execDelayTick t s
  | .datalogFrameSend b t => Sys2Proof.Machine.execDatalogFrameSend b t s
  | .datalogConsumedWrite b value => Sys2Proof.Machine.execDatalogConsumedWrite b value s
  | .addressResolutionRetry b t => Sys2Proof.Machine.execAddressResolutionRetry b t s
  | .irqSignal n => Sys2Proof.Machine.execIrqSignal n s
  | .irqClaim core => Sys2Proof.Machine.execIrqClaim core s
  | .irqComplete core n => Sys2Proof.Machine.execIrqComplete core n s
  | .maltsterTimer t => Sys2Proof.Machine.execMaltsterTimer t s
  | .msixUnmask fn vec => Sys2Proof.Machine.execMsixUnmask fn vec s
  -- taps
  | .tapDoorbellWrite tap v => Sys2Proof.Machine.execTapDoorbellWrite tap v s
  | .cplHeadWrite tap w => Sys2Proof.Machine.execCplHeadWrite tap w s
  | .commandTake tap => Sys2Proof.Machine.execCommandTake tap s
  | .commandDispatch tap t => Sys2Proof.Machine.execCommandDispatch tap t s
  | .tapModeChange tap => Sys2Proof.Machine.execTapModeChange tap s
  | .tapFrameRx via frame => Sys2Proof.Machine.execTapFrameRx via frame s
  | .seqQuery via tap => Sys2Proof.Machine.execSeqQuery via tap s
  -- Ethernet and PTP
  | .ethFrameDrop port => Sys2Proof.Machine.execEthFrameDrop port s
  | .arpRequest port r => Sys2Proof.Machine.execArpRequest port r s
  | .icmpEcho port r data => Sys2Proof.Machine.execIcmpEcho port r data s
  | .ptpSyncRx m t2 => Sys2Proof.Machine.execPtpSyncRx m t2 s
  | .ptpFollowUpRx m => Sys2Proof.Machine.execPtpFollowUpRx m s
  | .ptpDelayRespRx m => Sys2Proof.Machine.execPtpDelayRespRx m s
  | .ptpAnnounceRx port a => Sys2Proof.Machine.execPtpAnnounceRx port a s
  | .delayReqSend t3 => Sys2Proof.Machine.execDelayReqSend t3 s
  | .tcForward m kind ingress egress => Sys2Proof.Machine.execTcForward m kind ingress egress s
  | .tcEntryExpiry src seqId e => Sys2Proof.Machine.execTcEntryExpiry src seqId e s
  | .ethLinkDown port t => Sys2Proof.Machine.execEthLinkDown port t s
  | .ethFecUncorr port t => Sys2Proof.Machine.execEthFecUncorr port t s
  -- cellar links
  | .flitRxData port f => Sys2Proof.Machine.execFlitRxData port f s
  | .flitRxAck port ack rel => Sys2Proof.Machine.execFlitRxAck port ack rel s
  | .flitRxNak from_ nak => Sys2Proof.Machine.execFlitRxNak from_ nak s
  | .flitCrcFail port => Sys2Proof.Machine.execFlitCrcFail port s
  | .linkBadFlit port => Sys2Proof.Machine.execLinkBadFlit port s
  | .replayTimeout port t => Sys2Proof.Machine.execReplayTimeout port t s
  | .nakRepeat port t => Sys2Proof.Machine.execNakRepeat port t s
  | .syncFlitSend port t => Sys2Proof.Machine.execSyncFlitSend port t s
  | .syncFlitRx from_ sender txT gscale stamp => Sys2Proof.Machine.execSyncFlitRx from_ sender txT gscale stamp s
  | .enumRx f t => Sys2Proof.Machine.execEnumRx f t s
  | .enumTimeout t => Sys2Proof.Machine.execEnumTimeout t s
  | .linkRetrain port t => Sys2Proof.Machine.execLinkRetrain port t s
  | .linkRetrainDone port t r => Sys2Proof.Machine.execLinkRetrainDone port t r s
  | .auditRx from_ tx rx t => Sys2Proof.Machine.execAuditRx from_ tx rx t s
  | .linkDown port t => Sys2Proof.Machine.execLinkDown port t s
  | .linkTrainRetry port => Sys2Proof.Machine.execLinkTrainRetry port s
  | .linkUp u => Sys2Proof.Machine.execLinkUp u s
  -- epoch commits
  | .stagingDeadline group t => Sys2Proof.Machine.execStagingDeadline group t s
  | .commitVerdictRx group dev mask t => Sys2Proof.Machine.execCommitVerdictRx group dev mask t s
  | .commitInstant group t => Sys2Proof.Machine.execCommitInstant group t s
  | .commitApply group t => Sys2Proof.Machine.execCommitApply group t s
  | .commitAbortRx group t => Sys2Proof.Machine.execCommitAbortRx group t s
  -- power and resets
  | .pwrfailWarning t => Sys2Proof.Machine.execPwrfailWarning t s
  | .pwrfailReturn t => Sys2Proof.Machine.execPwrfailReturn t s
  | .thermalShutdown t => Sys2Proof.Machine.execThermalShutdown t s
  | .powerOnReset => Sys2Proof.Machine.execPowerOnReset s
  | .coldReset => Sys2Proof.Machine.execColdReset s
  | .railLoss => Sys2Proof.Machine.execRailLoss s
  | .startUp img bootWin refinOk m t => Sys2Proof.Machine.execStartUp img bootWin refinOk m t s
  | .warmReset up t => Sys2Proof.Machine.execWarmReset up t s
  | .pcieFundamentalReset => Sys2Proof.Machine.execPcieFundamentalReset s
  | .functionLevelReset fn => Sys2Proof.Machine.execFunctionLevelReset fn s
  | .bwLoad load persist => Sys2Proof.Machine.execBwLoad load persist s
  | .bwLoadDone img persistOk m t => Sys2Proof.Machine.execBwLoadDone img persistOk m t s
  | .retClear => Sys2Proof.Machine.execRetClear s
  -- time base
  | .refselWrite refsel => Sys2Proof.Machine.execRefselWrite refsel s
  | .todfollowWrite on t => Sys2Proof.Machine.execTodfollowWrite on t s
  | .refadjWrite v t => Sys2Proof.Machine.execRefadjWrite v t s
  | .ageadjWrite v t => Sys2Proof.Machine.execAgeadjWrite v t s
  | .gsTargetWrite v t => Sys2Proof.Machine.execGsTargetWrite v t s
  | .gridScaleStep slot t => Sys2Proof.Machine.execGridScaleStep slot t s
  | .refinLoss t => Sys2Proof.Machine.execRefinLoss t s
  | .xtalLoss t => Sys2Proof.Machine.execXtalLoss t s
  | .refinOkSet t => Sys2Proof.Machine.execRefinOkSet t s
  | .holdoverBuildOut t => Sys2Proof.Machine.execHoldoverBuildOut t s
  | .refinReturn t => Sys2Proof.Machine.execRefinReturn t s
  | .buildOutDone t => Sys2Proof.Machine.execBuildOutDone t s
  | .pllUnlock t => Sys2Proof.Machine.execPllUnlock t s
  | .pllLock band => Sys2Proof.Machine.execPllLock band s
  | .syncInPulse lead near t => Sys2Proof.Machine.execSyncInPulse lead near t s
  | .clockOutAction output t => Sys2Proof.Machine.execClockOutAction output t s
  -- directly addressed registers
  | .devtimeRead fn t => Sys2Proof.Machine.execDevtimeRead fn t s
  | .ptpStatRead => Sys2Proof.Machine.execPtpStatRead s
  | .syncLeadRead => Sys2Proof.Machine.execSyncLeadRead s
  | .cntLoRead fn slot => Sys2Proof.Machine.execCntLoRead fn slot s
  | .cntOvfClear fn slot => Sys2Proof.Machine.execCntOvfClear fn slot s
  | .registerWrite fn off size value => Sys2Proof.Machine.execRegisterWrite fn off size value s
  | .bar2Access fn off write data len => Sys2Proof.Machine.execBar2Access fn off write data len s
  -- outputs
  | .outputShort src t => Sys2Proof.Machine.execOutputShort src t s
  | .contention src t => Sys2Proof.Machine.execContention src t s
  | .errornStuck t => Sys2Proof.Machine.execErrornStuck t s
  -- power wake queue
  | .wakeSlot t => Sys2Proof.Machine.execWakeSlot t s
  | .wakeRampEnd pd t => Sys2Proof.Machine.execWakeRampEnd pd t s
  | .wakeFail pd t => Sys2Proof.Machine.execWakeFail pd t s
  | .idlePark pd t => Sys2Proof.Machine.execIdlePark pd t s
  -- DRAM
  | .dramRequest b cls addr branch op t => Sys2Proof.Machine.execDramRequest b cls addr branch op t s
  | .dramReadReturn addr r t => Sys2Proof.Machine.execDramReadReturn addr r t s
  | .dramParityAlert stack pc t n => Sys2Proof.Machine.execDramParityAlert stack pc t n s
  | .refreshDue stack pc post => Sys2Proof.Machine.execRefreshDue stack pc post s
  | .patrolScrub addr e t => Sys2Proof.Machine.execPatrolScrub addr e t s
  | .trackingStep stack pc lane up t => Sys2Proof.Machine.execTrackingStep stack pc lane up t s
  | .tempRetrain stack t => Sys2Proof.Machine.execTempRetrain stack t s
  | .stackRetrainDone stack eyes t => Sys2Proof.Machine.execStackRetrainDone stack eyes t s
  | .stackClearDone e t => Sys2Proof.Machine.execStackClearDone e t s
  -- calibration
  | .sliceTempReading sl temp t => Sys2Proof.Machine.execSliceTempReading sl temp t s
  | .calIntervalDue sl line t => Sys2Proof.Machine.execCalIntervalDue sl line t s
  | .calMeasurementDone item r ext t => Sys2Proof.Machine.execCalMeasurementDone item r ext t s
  | .tdcHistogramTimeout e => Sys2Proof.Machine.execTdcHistogramTimeout e s
  | .reserveSeqCheck q ok t => Sys2Proof.Machine.execReserveSeqCheck q ok t s
  -- pace and faults
  | .paceWindowEnd vals t => Sys2Proof.Machine.execPaceWindowEnd vals t s
  | .faultReport src code detail t until_ => Sys2Proof.Machine.execFaultReport src code detail t until_ s
  | .faultWindowClose t => Sys2Proof.Machine.execFaultWindowClose t s
  | .brokenReport src t until_ => Sys2Proof.Machine.execBrokenReport src t until_ s
  | .cellarFaultMsg dev src dom => Sys2Proof.Machine.execCellarFaultMsg dev src dom s
  | .peerLost port c t => Sys2Proof.Machine.execPeerLost port c t s
  | .autoracked src t => Sys2Proof.Machine.execAutoracked src t s
  -- acquisition
  | .tdcStamp pcell cml rise raw => Sys2Proof.Machine.execTdcStamp pcell cml rise raw s
  | .tdcBlindEnd pcell cml level moved raw => Sys2Proof.Machine.execTdcBlindEnd pcell cml level moved raw s
  | .triggerQualification acq t => Sys2Proof.Machine.execTriggerQualification acq t s
  | .recordWrite acq t => Sys2Proof.Machine.execRecordWrite acq t s
  | .stackTemperatureReading stack temp t => Sys2Proof.Machine.execStackTemperatureReading stack temp t s
  | .scriptSettleEnd bus t => Sys2Proof.Machine.execScriptSettleEnd bus t s
  | .addressResolutionReply b => Sys2Proof.Machine.execAddressResolutionReply b s
  | .boundaryScanInstruction ins on t => Sys2Proof.Machine.execBoundaryScanInstruction ins on t s
  | .pcieAer t => Sys2Proof.Machine.execPcieAer t s
  | .fixtureWrite lch dir v => Sys2Proof.Machine.execFixtureWrite lch dir v s

end Sys2Proof.Machine
end

