-- ==== Sys2Proof/WellFormed.lean ====
section
/-! DEFINITION. When a command is well formed: every operand fits the field that carries it (the layouts of R268, R271, R292
and R305; the numbers of the units an event names). A value that fits its field and is illegal is no matter of form: the
command's own checks answer it. -/

namespace Sys2Proof

/-- A value fits an n-bit unsigned field. -/
def fits (n v : Nat) : Bool := decide (v < 2 ^ n)

/-- A value fits an n-bit two's complement field. -/
def fitsS (n : Nat) (v : Int) : Bool := decide (-(2 ^ (n - 1) : Int) ≤ v) && decide (v < (2 ^ (n - 1) : Int))

/-- A batch number (R236). -/
def isBatch (b : Nat) : Bool := decide (1 ≤ b) && decide (b ≤ 16)

/-- A time pair in its two 64-bit fields (R28). -/
def TPair.wf (p : TPair) : Bool := fits 64 p.s && fits 64 p.f

/-- A record of R35: 40, 16 and 16 bits. -/
def Per.wf (p : Per) : Bool := fits 40 p.i && fits 16 p.n && fits 16 p.d

/-- A data reference (R271). -/
def DRef.wf (r : DRef) : Bool := fits 64 r.addr && fits 32 r.len

/-- A command header (R268, R259) with inline data of a frame (R283). -/
def Hdr.wf (h : Hdr) : Bool := decide (h.tap ≤ 16) && fits 32 h.seq && fits 16 h.target && decide (h.inl.length ≤ 8960)

/-- A condition byte (R91). -/
def Cond.wf (c : Cond) : Bool := fits 7 c.cond

/-- A pattern instruction whose operands fit their fields (R90). -/
def PInstr.wf : PInstr → Bool
  | .nop | .endl => true
  | .vec seg count => fits 16 seg && fits 32 count
  | .rpt count => fits 40 count
  | .loop count => fits 32 count
  | .call c target | .jmp c target => c.wf && fits 14 target
  | .ret c | .halt c => c.wf
  | .mtch seg timeout group => fits 16 seg && fits 24 timeout && fits 8 group
  | .tset set => fits 8 set
  | .per idx => fits 6 idx
  | .waitt _ time => fits 48 time
  | .sync timeout rdv => fits 32 timeout && fits 16 rdv
  | .trig outs => fits 8 outs
  | .mark code => fits 16 code
  | .flag setm clrm => fits 16 setm && fits 16 clrm
  | .sitemask entry => fits 8 entry
  | .peact settle script => fits 32 settle && fits 16 script

/-- An observation of a channel of a slice (R151). -/
def Obs.wf (o : Obs) : Bool := decide (o.ch < 16)

/-- An exact time, its residue over the denominator of a period (R38). -/
def residueWf (n d : Nat) : Bool := decide (n < d) && fits 16 d

/-- A report of a match block (R181). -/
def BlockRep.wf (r : BlockRep) : Bool := residueWf r.n r.d && r.per.wf && fits 24 r.timeout && fits 16 r.delay

/-- A calibration measurement (R218, R219): an external one stamps 4,096 edges. -/
def CalRes.wf : CalRes → Bool
  | .hist | .fit => true
  | .refs _ raws => raws.length == 4096
  | .loop _ p raws => p.wf && raws.length == 4096

/-- What the boot sequence measures (R215, R222): two histograms of 128 bins for each TDC of the 32 reserve cells. -/
def BootCal.wf (m : BootCal) : Bool :=
  fits 6 m.band && fits 6 m.band2 && fits 8 m.trim && fits 8 m.trim2 && m.hists.length == 64 &&
    m.hists.all (fun h => h.1.length == 128 && h.2.length == 128) && m.eyes.all (fun e => decide (e.1 < 8192) && decide (e.2 ≤ 64))

/-- A transaction of a request at an address: 1 to 4 bursts of 32 bytes within one aligned 128-byte block (R355). -/
def DramOp.wf (op : DramOp) (a : Nat) : Bool :=
  match op with
  | .read n => decide (1 ≤ n) && decide (a % 128 / 32 + n ≤ 4)
  | .write d => decide (1 ≤ d.length) && decide (a % 128 + d.length ≤ 128)

/-- The errors of a word: bits of its 256 data and 16 check bits, each once, and a difference of five ADDRTAG bits (R360). -/
def DramErr.wf (e : DramErr) : Bool := e.flips.all (fun i => decide (i < 272)) && decide (e.flips.Nodup) && fits 5 e.tag

/-- A request to a network port (R411): a 48-bit MAC address and an address of its family. -/
def EthReq.wf (r : EthReq) : Bool := fits 48 r.mac && fits (if r.v6 then 128 else 32) r.target

/-- Where a flit comes from: port 0 or 1, and a 12-bit ACKSEQ (R414). -/
def FlitFrom.wf (r : FlitFrom) : Bool := decide (r.port < 2) && r.ack.all (fits 12 ·)

/-- Eye margins by lane: direction 0 or 1, lane 0 to 4 (R429). -/
def eyesWf (l : List (Nat × Nat)) : Bool := l.all (fun e => decide (e.1 < 16) && decide (e.1 % 8 < 5))

/-- A training: a lane 0 to 3 of a direction racked, eye margins (R422, R428). -/
def Trained.wf (r : Trained) : Bool := r.swap.all (fun p => decide (p.1 < 2) && decide (p.2 < 4)) && eyesWf r.eyes

/-- The bits that MISO shows: at most 32 at each READ (R431). -/
def PeEnd.wf (e : PeEnd) : Bool := e.miso.all (fits 32 ·)

/-- A PTP message (R395, R398). -/
def PtpMsg.wf (m : PtpMsg) : Bool := decide (m.port < 2) && fits 80 m.src && fits 16 m.seqId && fits 8 m.domain && fits 16 m.sum

/-- An Announce message (R395). -/
def Announce.wf (a : Announce) : Bool :=
  fits 80 a.src && fits 8 a.domain && fits 8 a.prio1 && fits 8 a.clockClass && fits 8 a.accuracy && fits 16 a.variance && fits 8 a.prio2 &&
    fits 64 a.grandmaster && fits 16 a.steps && a.lapsed.all (fun p => decide (p.1 < 2) && fits 80 p.2)

/-- What a read of at most four bursts brings back (R355). -/
def DramRet.wf (r : DramRet) : Bool := decide (r.errs.length ≤ 4) && r.errs.all DramErr.wf

/-- A stack, and eye widths of its lanes in 1/64 unit interval. -/
def StackEnd.wf (e : StackEnd) : Bool := decide (e.stack < 4) && e.eyes.all (fun p => decide (p.1 < 2048) && decide (p.2 ≤ 64))

/-- A flit's fields (R414). -/
def Flit.wf (f : Flit) : Bool := fits 8 f.ftype && decide (f.vl < 4) && fits 12 f.seq && fits 12 f.ack && decide (f.payload.length ≤ 22)

/-- Whether a command is well formed. -/
def Instr.wf : Instr → Bool
  | .ident h | .batchDestroy h | .imageStatus h | .stop h => h.wf
  | .batchCreate h weight => h.wf && fits 8 weight
  | .batchDestroyDone b _ => isBatch b
  | .assign h p => h.wf && fits 8 p.op && fits 8 p.rtype && fits 8 p.weight && fits 32 p.index && fits 32 p.count
  | .granuleClearDone g _ => decide (g < 32768)
  | .power h domain action => h.wf && fits 8 domain && fits 8 action
  | .rack h kind unit arg => h.wf && fits 8 kind && fits 16 unit && fits 32 arg
  | .rackDone copies _ => fits 3 copies
  | .repairMapCommit h src => h.wf && fits 8 src
  | .repairMapCommitDone copies _ => fits 3 copies
  | .faultRead h first count data => h.wf && fits 16 first && fits 16 count && data.wf
  | .faultClear h src => h.wf && fits 16 src
  | .timeSet h op value time => h.wf && fits 8 op && fitsS 64 value && time.wf
  | .ptpConfig h port mode transport domain asym =>
    h.wf && fits 8 port && fits 8 mode && fits 8 transport && fits 8 domain && fitsS 64 asym
  | .calRun h p => h.wf && fits 8 p.mode && fits 16 p.n && fits 32 p.calint && p.pref.wf && p.t0.wf && p.data.wf
  | .calStatus h nitem data => h.wf && fits 16 nitem && data.wf
  | .peScriptLoad h script busmask settle data => h.wf && fits 16 script && fits 16 busmask && fits 32 settle && data.wf
  | .inject h checker count => h.wf && fits 16 checker && fits 16 count
  | .wakeBudget h budget => h.wf && fits 16 budget
  | .tsLoad h data | .status h data | .flowLoad h data => h.wf && data.wf
  | .tsInvalidate h set => h.wf && fits 8 set
  | .patLoad h prog cmaps => h.wf && prog.wf && cmaps.wf
  | .segMap h p =>
    h.wf && fits 16 p.segid && fits 8 p.mode && fits 8 p.peridx && fits 8 p.trig && fits 40 p.length && fits 32 p.ringgran && p.data.wf
  | .siteDefine h p => h.wf && fits 32 p.blimit && fits 32 p.fmcap && fits 16 p.matchDelay && fits 32 p.tpe && p.data.wf
  | .levels h voff vstep script data => h.wf && fitsS 32 voff && fits 32 vstep && fits 16 script && data.wf
  | .start h p => h.wf && p.t.wf && fits 64 p.dmask && fits 128 p.cmgrp && fits 8 p.syncgrp
  | .snapshot h p => h.wf && fits 8 p.when_ && fits 5 p.sect && fits 64 p.vnum && p.time.wf && fits 256 p.cmask && p.data.wf
  | .failRead h maxrec _ data => h.wf && fits 32 maxrec && data.wf
  | .acqConfig h c => h.wf && fits 8 c.acq && fits 8 c.ttype && fits 8 c.tsel && fits 8 c.flags
  | .acqArm h p => h.wf && fits 8 p.acq && fits 2 p.level && fits 16 p.script && fits 32 p.nrec && fits 16 p.codeLo && fits 16 p.codeHi
  | .measRead h acq mode maxrec data => h.wf && fits 8 acq && fits 8 mode && fits 32 maxrec && data.wf
  | .streamOpen h segid tsnum cbaddr data => h.wf && fits 16 segid && fits 8 tsnum && fits 64 cbaddr && data.wf
  | .counterSelect h counter kind source scope => h.wf && fits 8 counter && fits 8 kind && fits 16 source && fits 32 scope
  | .stage h p => h.wf && fits 8 p.group && fits 8 p.kind && fits 32 p.epoch && fits 16 p.index && p.data.wf
  | .commit h p => h.wf && fits 8 p.group && fits 16 p.bmask && fits 32 p.epoch && fits 64 p.dmask && p.t.wf
  | .clockOut h p => h.wf && fits 8 p.output && fits 8 p.format && fits 8 p.action && fits 64 p.freq && p.time.wf
  | .trigConfig h pin width flags offset => h.wf && fits 4 pin && fits 8 width && fits 8 flags && fits 32 offset
  | .cancel h tseq => h.wf && fits 32 tseq
  | .periodLoad h index flags r => h.wf && fits 8 index && fits 2 flags && r.wf
  | .nop b | .endl b | .batchRunBegin b | .vectorHandover b | .vectorBegin b | .failMemoryWrite b | .markPost b
  | .spargeDeadline b | .batchStop b _ | .acquireTimeout b _ | .datalogFrameSend b _ | .addressResolutionRetry b _
  | .addressResolutionReply b => isBatch b
  | .vec b seg count => isBatch b && (PInstr.vec seg count).wf
  | .rpt b count => isBatch b && (PInstr.rpt count).wf
  | .loop b count => isBatch b && (PInstr.loop count).wf
  | .call b c target => isBatch b && (PInstr.call c target).wf
  | .ret b c => isBatch b && c.wf
  | .jmp b c target => isBatch b && (PInstr.jmp c target).wf
  | .matchBlock b seg timeout group => isBatch b && (PInstr.mtch seg timeout group).wf
  | .tset b set => isBatch b && fits 8 set
  | .per b idx => isBatch b && fits 6 idx
  | .waitt b _ time => isBatch b && fits 48 time
  | .sync b timeout rdv _ => isBatch b && (PInstr.sync timeout rdv).wf
  | .trig b outs => isBatch b && fits 8 outs
  | .mark b code => isBatch b && fits 16 code
  | .flag b setm clrm => isBatch b && (PInstr.flag setm clrm).wf
  | .sitemask b entry => isBatch b && fits 8 entry
  | .peact b settle script => isBatch b && (PInstr.peact settle script).wf
  | .halt b c => isBatch b && c.wf
  | .edgeFire lch line => decide (lch < 512) && decide (line < 3)
  | .compareDecision b sl obs => isBatch b && decide (sl < 32) && obs.all Obs.wf
  | .consensusDecision b reports _ others => isBatch b && reports.all (fun r => decide (r.sl < 32)) && others.all BlockRep.wf
  | .syncReport group dev b rdv timeout aw _ => fits 8 group && decide (dev.dev < 64) && isBatch b && fits 16 rdv && fits 32 timeout &&
      residueWf aw.n aw.d && decide (1 ≤ dev.members) && decide (dev.members ≤ 16)
  | .syncTimeout group _ => fits 8 group
  | .spargeFetchDone b seg => isBatch b && fits 16 seg
  | .fillWrite b seg value => isBatch b && fits 16 seg && fits 64 value
  | .peScriptDone bus e _ => decide (bus < 16) && e.wf
  | .peBusFault bus _ | .scriptSettleEnd bus _ => decide (bus < 16)
  | .trigInEdge pin _ _ => decide (pin < 8)
  | .flowPinStart pin _ => decide (pin < 8)
  | .jobDispatch core _ | .jobComplete core _ => decide (core < 9)
  | .delayTick _ | .maltsterTimer _ | .tapModeChange _ | .enumTimeout _ | .pwrfailWarning _ | .pwrfailReturn _
  | .thermalShutdown _ | .powerOnReset | .coldReset | .railLoss | .pcieFundamentalReset | .bwLoad _ _
  | .retClear | .ptpStatRead | .syncLeadRead | .refinLoss _ | .xtalLoss _ | .refinOkSet _ | .holdoverBuildOut _
  | .refinReturn _ | .buildOutDone _ | .pllUnlock _ | .errornStuck _ | .wakeSlot _ | .faultWindowClose _ | .pcieAer _
  | .calRunDone _ => true
  | .datalogConsumedWrite b value => isBatch b && fits 64 value
  | .irqSignal n => fits 32 n
  | .irqClaim core => decide (core < 10)
  | .irqComplete core n => decide (core < 10) && fits 12 n
  | .msixUnmask fn n => decide (fn ≤ 16) && decide (n < 4)
  | .tapDoorbellWrite tap v => decide (tap ≤ 16) && fits 32 v
  | .cplHeadWrite tap w => decide (tap ≤ 16) && fits 32 w
  | .commandTake tap => decide (tap ≤ 16)
  | .commandDispatch tap _ => decide (tap ≤ 16)
  | .tapFrameRx via frame => decide (via.src.port < 2) && fits 16 via.dport && decide (frame.length ≤ 9216)
  | .seqQuery via tap => decide (via.src.port < 2) && fits 16 via.dport && decide (tap ≤ 16)
  | .ethFrameDrop port | .linkTrainRetry port | .flitCrcFail port | .linkBadFlit port => decide (port < 2)
  | .arpRequest port r => decide (port < 2) && r.wf
  | .icmpEcho port r data => decide (port < 2) && r.wf && decide (data.length ≤ 9216)
  | .ptpSyncRx m _ | .ptpFollowUpRx m | .ptpDelayRespRx m => m.wf
  | .tcForward m kind _ _ => m.wf && fits 4 kind
  | .ptpAnnounceRx port a => decide (port < 2) && a.wf
  | .delayReqSend _ => true
  | .tcEntryExpiry src seqId e => fits 80 src && fits 16 seqId && fits 8 e.domain
  | .ethLinkDown port _ | .ethFecUncorr port _ | .replayTimeout port _ | .nakRepeat port _ | .syncFlitSend port _
  | .linkRetrain port _ | .linkDown port _ => decide (port < 2)
  | .linkRetrainDone port _ r => decide (port < 2) && r.wf
  | .linkUp u => decide (u.port < 2) && eyesWf u.eyes
  | .flitRxData port f => decide (port < 2) && f.wf
  | .flitRxAck port ack rel => decide (port < 2) && fits 12 ack && decide (rel.length ≤ 4)
  | .flitRxNak r nak => r.wf && fits 12 nak
  | .syncFlitRx r sender _ _ _ => r.wf && decide (sender < 64)
  | .enumRx f _ => decide (f.c < 64) && f.ack.all (fits 12 ·)
  | .auditRx r tx rx _ => r.wf && tx.all (fun a => decide (a.sent.length = 4)) && rx.all (fun a => decide (a.accepted.length = 4))
  | .stagingDeadline group _ | .commitInstant group _ | .commitApply group _ | .commitAbortRx group _ => fits 8 group
  | .commitVerdictRx group dev mask _ => fits 8 group && decide (dev < 64) && fits 16 mask
  | .startUp _ _ _ m _ => m.wf
  | .warmReset up _ => up.cal.wf
  | .functionLevelReset fn => decide (fn ≤ 16)
  | .bwLoadDone _ _ m _ => m.wf
  | .refselWrite refsel => fits 2 refsel
  | .todfollowWrite _ _ => true
  | .refadjWrite v _ | .ageadjWrite v _ | .gsTargetWrite v _ => fitsS 32 v
  | .gridScaleStep _ _ => true
  | .pllLock band => fits 6 band
  | .syncInPulse _ _ _ => true
  | .clockOutAction output _ => decide (output < 8)
  | .devtimeRead fn _ => decide (fn ≤ 16)
  | .cntLoRead fn slot | .cntOvfClear fn slot => decide (fn ≤ 16) && decide (slot < 64)
  | .registerWrite fn off size value => decide (fn ≤ 16) && fits 16 off && decide (size ∈ [1, 2, 4, 8]) && fits 64 value
  | .bar2Access fn off _ data len => decide (fn ≤ 16) && fits 36 off && decide (data.length ≤ 4096) && decide (len ≤ 4096)
  | .outputShort src _ | .contention src _ | .brokenReport src _ _ | .autoracked src _ => fits 12 src
  | .wakeRampEnd pd _ | .wakeFail pd _ | .idlePark pd _ => decide (pd < 52)
  | .dramRequest b cls addr _ op _ => decide (b ≤ 16) && decide (cls < 4) && fits 36 addr && op.wf addr
  | .dramReadReturn addr r _ => fits 36 addr && r.wf
  | .patrolScrub addr e _ => fits 36 addr && e.wf
  | .dramParityAlert stack pc _ _ => decide (stack < 4) && decide (pc < 32)
  | .refreshDue stack pc _ => decide (stack < 4) && decide (pc < 32)
  | .trackingStep stack pc _ _ _ => decide (stack < 4) && decide (pc < 32)
  | .tempRetrain stack _ | .stackRetrainDone stack _ _ | .stackTemperatureReading stack _ _ => decide (stack < 4)
  | .stackClearDone e _ => e.wf
  | .sliceTempReading sl _ _ => decide (sl < 32)
  | .calIntervalDue sl line _ => decide (sl < 32) && decide (line < 48)
  | .calMeasurementDone item r _ _ => decide (item < 65536) && r.wf
  | .tdcHistogramTimeout e => decide (e.item < 65536)
  | .reserveSeqCheck q _ _ => decide (q < 4)
  | .paceWindowEnd vals _ => decide (vals.length = 50) && vals.all (fits 16)
  | .faultReport src code _ _ _ => fits 12 src && fits 16 code
  | .cellarFaultMsg dev src dom => decide (dev < 64) && fits 12 src && fits 16 dom
  | .peerLost port c _ => decide (port < 2) && decide (c < 64)
  | .tdcStamp pcell _ _ _ | .tdcBlindEnd pcell _ _ _ _ => decide (pcell < 544)
  | .triggerQualification acq _ | .recordWrite acq _ => decide (acq < 12)
  | .boundaryScanInstruction ins _ _ => fits 8 ins
  | .fixtureWrite lch dir _ => decide (lch < 512) && decide (dir < 2)

end Sys2Proof
end

