-- ==== Sys2Proof/Safety.lean ====
section
/-! DEFINITION. What a safe run is: every step answers a next state; and when a tap command gets past everything that stands before its
opcode's own checks. -/

namespace Sys2Proof.Machine
open Sys2Proof

/-- k steps from a state that all answer a next state. -/
def SafeFor : Nat → State → Prop
  | 0, _ => True
  | k + 1, s => ∃ t, step s = .next t ∧ SafeFor k t

/-- A stretch of memory that reads without an error: no word of it is poisoned or has inverted bits, and its stack is not frozen
(R360 to R365). -/
def State.cleanBlock (s : State) (a n : Nat) : Bool := (s.marked a n).isEmpty && !(s.stack (aStack a)).frozen

/-- A data reference passes its checks at a command's dispatch (R271, R365): `inp` tells whether the engine reads the block. -/
def State.refOk (s : State) (h : Hdr) (r : DRef) (inp : Bool) : Bool :=
  !r.rsv && ((s.at_ h.t).refErr h inp r).isNone && !(inp && !r.inl && !(s.at_ h.t).cleanBlock r.addr r.len)

/-- A command passes everything that stands before its opcode's own checks: READY is high, its tap is served (R287) and, but for a CANCEL (R279), has its turn (R278), its header passes
R276, its tap has room for an asynchronous command where it is one (R273), and its payload's reserved fields are zero (R290).
Its data references pass `refOk`. -/
def State.admits (s : State) (h : Hdr) (op : Nat) (refs : List (DRef × Bool)) : Bool :=
  s.handles op h.tap && (!s.boot.bootSafe || op == 0x0001 || op == 0x000E) && !h.rsv && refs.all (fun r => s.refOk h r.1 r.2) &&
  match opInfo op with
  | some i => ((s.at_ h.t).hdrErr h op i).isNone && (!(i.kind == 1 || h.async) || decide ((s.tap h.tap).asyncs.length < 16))
  | none => false

end Sys2Proof.Machine
end

