-- ==== Sys2Proof/Certificates/Slice0/Obligations.lean ====
section
/-! DEFINITION. The statements for the provers. In the statements about tap commands `u` is the state that the command's own effect
leaves, before its completion posts; `State.settle` posts the completion (CompletionsArePosted, SettledAnswers). A frame is
written as `{ u with … } = …`: the fields named may differ, every other field stands. -/

open Sys2Proof Sys2Proof.Machine

/-! ## The block's queue -/

/-- A step runs the command at the front of the queue, with the queue's rest. On an empty queue the block idles (log 1: the model's
choice). -/
def Obligations.StepRunsFrontCommand : Prop :=
  (∀ (c : Instr) (rest : List Instr) (s : State), step { s with pending := c :: rest } = exec c { s with pending := rest }) ∧
  (∀ s : State, s.pending = [] → step s = .next s)

/-- No command reads or writes the queue of waiting commands (log 1: the queue is the model's). -/
def Obligations.CommandsLeaveTheQueue : Prop := ∀ (c : Instr) (s t : State), exec c s = .next t → t.pending = s.pending

/-! ## Completions (R263, R267, R272, R273, R283) -/

/-- A completion of a tap in ring mode stands in slot CPL_TAIL mod 64 with PHASE = (floor(k / 64) + 1) mod 2, CPL_TAIL counts it, and MSI-X
vector 0 of the function is sent or pended, or of a function that does not exist or is in D3hot (R404, R405) neither; nothing else changes. A completion of a tap in network mode is sent to the source of its
command's latest submission as TYPE 2, with the inline result behind it (both where no resubmission is held). -/
def Obligations.CompletionsArePosted : Prop :=
  (∀ (s : State) (tap : Nat) (c : Cpl) (inl : List Byte), (s.tap tap).netMode = false →
     (∀ e, (s.tap tap).histOf c.seq = some e → e.dups = []) → (∀ e ∈ (s.tap tap).old, e.dups = []) →
     let t := s.post tap c inl
     let k := (s.tap tap).cplTail
     assoc (t.tap tap).cpls (k % 64) = some { c with flags := c.flags + 32768 * ((k / 64 + 1) % 2) } ∧
     (t.tap tap).cplTail = (k + 1) % 4294967296 ∧
     (∀ j, j ≠ k % 64 → assoc (t.tap tap).cpls j = assoc (s.tap tap).cpls j) ∧
     (∀ j, j ≠ tap → t.tap j = s.tap j) ∧
     (if s.pcie.up tap = false then t.out = s.out ∧ t.irq = s.irq
      else if s.irq.masked.contains (4 * tap) then t.out = s.out ∧ 4 * tap ∈ t.irq.msiPend else t.out = s.out ++ [.msix tap 0] ∧ t.irq = s.irq) ∧
     { t with taps := s.taps, out := s.out, irq := { t.irq with msiPend := s.irq.msiPend } } = s) ∧
  (∀ (s : State) (tap : Nat) (c : Cpl) (inl : List Byte) (e : Hist) (src : NetSrc), (s.tap tap).netMode = true →
     (s.tap tap).histOf c.seq = some e → e.dups = [] → e.net = some src →
     let t := s.post tap c inl
     t.out = s.out ++ [.frame src.port src.addr 2 (be 2 src.udp ++ tapHead 2 tap inl.length ++ c.bytes ++ inl)] ∧
     (t.tap tap).cpls = (s.tap tap).cpls ∧ { t with taps := s.taps, out := s.out } = s)

/-- What a command's answer becomes. A synchronous command that is done posts one completion with its status, RESULT and RLEN (the RESULT
bytes and the bytes written to its block), and its result data change no byte outside its block; an accepted one posts ACCEPTED and stays
among the tap's asynchronous commands; one that waits for an event posts nothing yet and keeps its tap from dispatching.

How it gets there: a taken slot and a frame's slot join the dispatch queue, the front one is dispatched (shown of IDENT), a mode change is made on an
empty tap, SEQ_QUERY is answered, and CANCEL completes a command still in the queue with E_CANCELLED (R276, R278, R279, R287). -/
def Obligations.SettledAnswers : Prop :=
  (∀ (h : Hdr) (op st : Nat) (u : State) (result data : List Byte) (out : Option DRef), h.async = false →
    State.settle h op ⟨st, u, result, data, 0, false, none⟩ out =
      (u.putData out data).post h.tap ⟨h.seq, st, 0, op, h.target, result.length + data.length, result⟩
        (if out.any (fun d => d.inl) then data else [])) ∧
  (∀ (h : Hdr) (op : Nat) (u : State) (out : Option DRef),
    State.settle h op (Res.acc u) out =
      (u.setTap h.tap { u.tap h.tap with asyncs := (u.tap h.tap).asyncs ++ [⟨h.seq, op, h.target⟩] }).post h.tap
        ⟨h.seq, ACCEPTED, 0, op, h.target, 0, []⟩ []) ∧
  (∀ (h : Hdr) (op : Nat) (u : State) (w : WaitFor) (out : Option DRef), h.async = false →
    let t := State.settle h op (Res.wait_ u w) out
    t.waits = u.waits ++ [⟨h.tap, h.seq, op, h.target, cmdBatch h, false, w⟩] ∧ (t.tap h.tap).running = some h.seq ∧
    (t.tap h.tap).cpls = (u.tap h.tap).cpls ∧ { t with waits := u.waits, taps := u.taps } = u) ∧
  (∀ (u : State) (d : DRef) (data : List Byte) (a : Nat), d.inl = false → (a < d.addr ∨ d.addr + data.length ≤ a) →
    Memory.read (u.putData (some d) data).dram.mem a = Memory.read u.dram.mem a) ∧
  (∀ (s : State) (tap : Nat), let x := s.tap tap
    s.takes tap = true → x.netMode = false → s.modePending tap = false → x.cmdTail ≠ x.cmdHead → slotNeed (x.slot x.cmdHead) ≤ x.freeSlots →
    fld (x.slot x.cmdHead) 4 4 = x.expSeq → fld (x.slot x.cmdHead) 0 2 ≠ 0x0115 →
    ∃ u : State, exec (.commandTake tap) s = .next u ∧ (u.tap tap).dq = x.dq ++ [⟨x.expSeq, x.slot x.cmdHead, [], none⟩] ∧
      (u.tap tap).cmdHead = (x.cmdHead + 1) % 4294967296) ∧
  (∀ (s : State) (tap t : Nat) (q : QCmd) (qs : List QCmd), s.dispatches tap = true → (s.tap tap).dq = q :: qs → fld q.slot 0 2 = 0x0001 →
    slotErr q.slot = none →
    ∃ u : State, exec (.ident (slotHdr tap q.slot q.inl t)) (s.setTap tap { s.tap tap with dq := qs }) = .next u ∧
      exec (.commandDispatch tap t) s = .next { u with served := u.served.filter (fun k => k != tap) ++ [tap] }) ∧
  (∀ (s : State) (tap : Nat), s.modePending tap = true → (s.tap tap).dq = [] → (s.tap tap).running = none → (s.tap tap).asyncs = [] →
    ∃ u : State, exec (.tapModeChange tap) s = .next u ∧ (u.tap tap).netMode = !(s.tap tap).netMode) ∧
  (∀ (s : State) (src : NetSrc) (tap : Nat) (slot : List Byte), tap ≤ 16 → slot.length = 128 → (s.tap tap).netMode = true → s.takes tap = true →
    s.modePending tap = false → fld slot 4 4 = (s.tap tap).expSeq → fld slot 0 2 ≠ 0x0115 →
    ∃ u : State, exec (.tapFrameRx ⟨src, s.udpPort⟩ (tapHead 1 tap 0 ++ slot)) s = .next u ∧
      (u.tap tap).dq = (s.tap tap).dq ++ [⟨fld slot 4 4, slot, [], some src⟩]) ∧
  (∀ (s : State) (src : NetSrc) (tap : Nat), tap ≤ 16 → (s.tap tap).netMode = true →
    ∃ u : State, exec (.seqQuery ⟨src, s.udpPort⟩ tap) s = .next u ∧ u.out.length = s.out.length + 1) ∧
  (∀ (s : State) (h : Hdr) (q : QCmd), s.admits h 0x0115 [] = true → q.seq ≠ h.seq → (s.tap h.tap).dq = [q] →
    ∃ v : State, exec (.cancel h q.seq) s = .next (State.settle h 0x0115 (Res.ok
        (v.post h.tap ⟨q.seq, 0x0602, 2, fld q.slot 0 2, fld q.slot 10 2, 0, []⟩ []) [] []) none) ∧ (v.tap h.tap).dq = [])

/-- Before READY, and out of its tap's turn (R278, log 4), a BATCH_CREATE, a WAKE_BUDGET and a STOP change nothing, for they are not dispatched; in the boot-safe state a BATCH_CREATE and
a STOP on tap 0 complete with E_AUTH and no effect. -/
def Obligations.NotReadyTakesNothing : Prop :=
  (∀ (s : State) (h : Hdr) (w : Nat), s.dispatches h.tap = false → exec (.batchCreate h w) s = .next s) ∧
  (∀ (s : State) (h : Hdr) (b : Nat), s.dispatches h.tap = false → exec (.wakeBudget h b) s = .next s) ∧
  (∀ (s : State) (h : Hdr), s.dispatches h.tap = false → exec (.stop h) s = .next s) ∧
  (∀ (s : State) (h : Hdr) (w : Nat), s.dispatches h.tap = true → s.boot.bootSafe = true →
    exec (.batchCreate h w) s = .next ((s.at_ h.t).post h.tap ⟨h.seq, eAuth, 0, 0x0002, h.target, 0, []⟩ [])) ∧
  (∀ (s : State) (h : Hdr), s.dispatches h.tap = true → s.boot.bootSafe = true →
    exec (.stop h) s = .next ((s.at_ h.t).post h.tap ⟨h.seq, eAuth, 0, 0x0107, h.target, 0, []⟩ []))

/-! ## Device commands -/

/-- IDENT returns the record of its series, versions, state, CDEV and serial number, and IMAGE_STATUS that of the image in force; neither
changes anything else. -/
def Obligations.IdentityRecords : Prop :=
  (∀ (s : State) (h : Hdr), s.admits h 0x0001 [] = true →
    let safe := s.boot.bootSafe
    exec (.ident h) s = .next (State.settle h 0x0001 (Res.ok (s.at_ h.t)
      (le 2 0x0512 ++ le 1 0xA1 ++ le 1 0xA1 ++ le 2 (if safe then Config.romSeries else 1) ++ le 2 (if safe then 0 else s.boot.fwPatch) ++
        le 2 (if safe then 0 else s.boot.ucPatch) ++ le 1 (b2n safe) ++ le 1 s.cellar.cdev ++ le 4 0 ++ le 16 Config.serial ++ le 16 0) [])
      none)) ∧
  (∀ (s : State) (h : Hdr), s.admits h 0x000E [] = true →
    let x := s.boot
    exec (.imageStatus h) s = .next (State.settle h 0x000E (Res.ok (s.at_ h.t)
      (le 1 x.source ++ le 1 x.verify ++ le 2 x.series ++ le 2 x.fwPatch ++ le 2 x.ucPatch ++ le 4 x.imglen ++ le 4 0 ++
        (x.digest ++ List.replicate 32 0).take 32) []) none))

/-- BATCH_CREATE makes an UNLOADED batch with its weight and resets its tap's sequence; BATCH_DESTROY of a batch neither ARMED nor RUNNING
is accepted, puts its granules, which stay its own, into CLEARING, and gives each of its channels without a queued edge DEN off and, where DRV
is high, an edge that sets it low; no command waits for the batch any more; each GRANULE_CLEAR_DONE zeroes its granule and no other byte; after
BATCH_DESTROY_DONE, once no granule and no edge is left, the batch is gone and no slice, granule, bus, engine, clock or trigger belongs to it. -/
def Obligations.BatchLifeCycle : Prop :=
  (∀ (s : State) (h : Hdr) (w : Nat), s.admits h 0x0002 [] = true → h.target ≠ 0 → w ≠ 0 → s.batch h.target = none →
    ∃ u : State, exec (.batchCreate h w) s = .next (State.settle h 0x0002 (Res.ok u [] []) none) ∧
      u.batch h.target = some (Batch.new w) ∧ (∀ b, b ≠ h.target → u.batch b = s.batch b) ∧
      u.tap h.target = { s.tap h.target with
        expSeq := 0, hist := [], old := (s.tap h.target).old ++ (s.tap h.target).hist.filter Hist.open_ } ∧ (∀ t, t ≠ h.target → u.tap t = s.tap t) ∧
      { u with batches := s.batches, taps := s.taps } = s.at_ h.t) ∧
  (∀ (s : State) (h : Hdr), s.admits h 0x0003 [] = true → h.target ≠ 0 → s.isActive h.target = false → s.asyncOf h.target = false →
    (s.tap h.target).dq = [] →
    ∃ u : State, exec (.batchDestroy h) s = .next (State.settle h 0x0003 (Res.acc u) none) ∧ u.isActive h.target = false ∧
      (∀ g, s.dram.owner.get 0 g = h.target → g ∈ u.dram.clearing) ∧ u.dram.owner = s.dram.owner ∧
      (∀ x l, s.batch h.target = some x → l ∈ s.channels h.target → x.edges.any (fun e => e.lch == l) = false →
        u.denPins.get false (s.pcell l) = false ∧
        (s.drvPins.get false (s.pcell l) = true → ∃ y, u.batch h.target = some y ∧ safeEdge l 0 (s.at_ h.t).now ∈ y.edges)) ∧
      u.exists_ h.target = false ∧ (∀ b, b ≠ h.target → u.batch b = s.batch b) ∧ (∀ w ∈ u.waits, w ∈ s.waits ∧ w.endsWith h.target = false) ∧
      u.dram.mem = s.dram.mem ∧ u.sliceOwner = s.sliceOwner ∧ u.pwr = s.pwr ∧
      ((∀ p ∈ s.cal.items, p.2.pending = false ∨ itemKind p.1 ≠ 2) → u.flt = s.flt ∧ u.cal = s.cal)) ∧
  (∀ (s : State) (g t : Nat), g ∈ s.dram.clearing →
    ∃ u : State, exec (.granuleClearDone g t) s = .next u ∧ g ∉ u.dram.clearing ∧ (∀ k, k ≠ g → (k ∈ u.dram.clearing ↔ k ∈ s.dram.clearing)) ∧
      (∀ a, granule a = g → Memory.read u.dram.mem a = 0) ∧
      (∀ a, granule a ≠ g → Memory.read u.dram.mem a = Memory.read s.dram.mem a) ∧ { u with dram := s.dram } = s.at_ t) ∧
  (∀ (s : State) (b t : Nat) (x : Batch) (gs : List Nat), s.batch b = some x → x.destroying = some gs → gs.any s.dram.clearing.contains = false → x.edges = [] →
    ∃ u : State, exec (.batchDestroyDone b t) s = .next u ∧ u.batch b = none ∧ (∀ k, k ≠ b → u.batch k = s.batch k) ∧
      (b ≠ 0 → ∀ i, u.sliceOwner.get 0 i ≠ b ∧ u.busOwner.get 0 i ≠ b ∧ u.acqOwner.get 0 i ≠ b ∧ u.clkOwner.get 0 i ≠ b ∧
        u.trigOutOwner.get 0 i ≠ b ∧ u.trigInOwner.get 0 i ≠ b ∧ u.dram.owner.get 0 i ≠ b) ∧
      u.dram = { s.dram with owner := u.dram.owner } ∧ u.flt = s.flt ∧ u.pwr = s.pwr)

/-- ASSIGN gives the batch every unit named that no other batch owns, takes back every unit named that the batch owns (a granule goes to
CLEARING), and sets the weight; no other unit of any kind changes its owner (R238, R295). -/
def Obligations.AssignChangesOwners : Prop :=
  (∀ (s : State) (h : Hdr) (p : AssignP), s.admits h 0x0004 [] = true → h.target ≠ 0 → p.op = 0 → p.weight = 0 → p.rtype ≤ 7 → 0 < p.count →
    p.index + p.count ≤ unitCount p.rtype → (p.rtype = 1 → p.index / 8192 = (p.index + p.count - 1) / 8192) →
    (∀ i, i < p.count → s.unusable p.rtype (p.index + i) = false ∧
      (s.ownerOf p.rtype (p.index + i) = 0 ∨ s.ownerOf p.rtype (p.index + i) = h.target) ∧ (p.rtype = 1 → p.index + i ∉ s.dram.clearing)) →
    s.isActive h.target = false →
    (let v := assignUnits (s.at_ h.t) h.target h.target p.rtype ((List.range p.count).map (fun i => p.index + i))
     ∀ q, q < 4 → s.holdsStack h.target q = false → v.holdsStack h.target q = true → v.sharesHold [q] = true) →
    ∃ u : State, exec (.assign h p) s = .next (State.settle h 0x0004 (Res.ok u [] []) none) ∧
      (∀ k, u.ownerOf p.rtype k = if p.index ≤ k ∧ k < p.index + p.count then h.target else s.ownerOf p.rtype k) ∧
      (∀ r k, r ≤ 7 → r ≠ p.rtype → u.ownerOf r k = s.ownerOf r k) ∧ u.dram.mem = s.dram.mem ∧ u.taps = s.taps ∧ u.pwr = s.pwr ∧
      ((p.rtype = 3 → ∀ q ∈ s.cal.items, q.2.pending = false ∨ itemKind q.1 ≠ 2) → u.flt = s.flt)) ∧
  (∀ (s : State) (h : Hdr) (p : AssignP), s.admits h 0x0004 [] = true → h.target ≠ 0 → p.op = 1 → p.weight = 0 → p.rtype ≤ 7 → 0 < p.count →
    p.index + p.count ≤ unitCount p.rtype → (p.rtype = 1 → p.index / 8192 = (p.index + p.count - 1) / 8192) →
    (∀ i, i < p.count → s.unusable p.rtype (p.index + i) = false ∧ s.ownerOf p.rtype (p.index + i) = h.target ∧
      (p.rtype = 1 → p.index + i ∉ s.dram.clearing)) →
    s.isActive h.target = false →
    ∃ u : State, exec (.assign h p) s = .next (State.settle h 0x0004 (Res.ok u [] []) none) ∧
      (∀ k, u.ownerOf p.rtype k = if p.index ≤ k ∧ k < p.index + p.count then 0 else s.ownerOf p.rtype k) ∧
      (p.rtype = 1 → ∀ k, p.index ≤ k → k < p.index + p.count → k ∈ u.dram.clearing) ∧
      (∀ r k, r ≤ 7 → r ≠ p.rtype → u.ownerOf r k = s.ownerOf r k) ∧ u.dram.mem = s.dram.mem ∧ u.taps = s.taps ∧ u.pwr = s.pwr ∧
      ((p.rtype = 3 → ∀ q ∈ s.cal.items, q.2.pending = false ∨ itemKind q.1 ≠ 2) → u.flt = s.flt)) ∧
  (∀ (s : State) (h : Hdr) (p : AssignP) (x : Batch), s.admits h 0x0004 [] = true → h.target ≠ 0 → p.op = 2 → p.weight ≠ 0 → p.rtype = 0 →
    p.count = 0 → s.batch h.target = some x →
    (∀ q, q < 4 → s.holdsStack h.target q = true → ((s.at_ h.t).setBatch h.target { x with weight := p.weight }).sharesHold [q] = true) →
    ∃ u : State, exec (.assign h p) s = .next (State.settle h 0x0004 (Res.ok u [] []) none) ∧
      u = (s.at_ h.t).setBatch h.target { x with weight := p.weight })

/-- POWER parks a powered domain that nothing needs, wakes a parked one by a request that waits for its tokens, and says so where there is
nothing to do; WAKE_BUDGET takes the new budget for the next slot and returns the one before (R296, R304, R462, R468).

WAKE_SLOT issues the budget's tokens and lets the old slot's lapse; the end of a ramp powers its domain and completes the POWER commands
that wait for it; a failed ramp reports WAKE_FAIL and leaves its domain parked; an idle domain with its IDLEPARK bit parks (R466, R468 to
R471). -/
def Obligations.PowerAndWakes : Prop :=
  ((∀ (s : State) (h : Hdr) (d : Nat), s.admits h 0x0005 [] = true → (within d 3 46 || within d 48 51) = true → s.powered d = true →
     s.parkBusy d = false → s.required d = false →
     ∃ u : State, exec (.power h d 1) s = .next (State.settle h 0x0005 (Res.ok u [0] []) none) ∧ u.powered d = false ∧
       (∀ e, e ≠ d → ¬(within d 43 46 = true ∧ e + 4 = d) → u.powered e = s.powered e) ∧ (within d 43 46 = true → u.powered (d - 4) = false) ∧
       u.dram.mem = s.dram.mem ∧ u.taps = s.taps ∧ (within d 35 38 = false → u.flt = s.flt)) ∧
   (∀ (s : State) (h : Hdr) (d : Nat), s.admits h 0x0005 [] = true → (within d 3 46 || within d 48 51) = true → s.powered d = false →
     (within d 43 46 = true → s.powered (d - 4) = false) →
     exec (.power h d 1) s = .next (State.settle h 0x0005 (Res.ok (s.at_ h.t) [0] []) none)) ∧
   (∀ (s : State) (h : Hdr) (d : Nat), s.admits h 0x0005 [] = true → (within d 3 46 || within d 48 51) = true → s.pwr.pwrfailLow = false →
     s.pwr.wakeBlock ≤ h.t → s.powered d = true →
     exec (.power h d 0) s = .next (State.settle h 0x0005 (Res.ok (s.at_ h.t) [2] []) none)) ∧
   (∀ (s : State) (h : Hdr) (d : Nat), s.admits h 0x0005 [] = true → (within d 3 46 || within d 48 51) = true → s.pwr.pwrfailLow = false →
     s.pwr.wakeBlock ≤ h.t → s.powered d = false →
     ∃ u : State, exec (.power h d 0) s = .next (State.settle h 0x0005 (Res.wait_ u (.power d)) none) ∧ u.pwr.waking d = true ∧
       u.pwr.on = s.pwr.on ∧ { u with pwr := s.pwr, ctrs := s.ctrs } = s.at_ h.t) ∧
   (∀ (s : State) (h : Hdr) (n : Nat), s.admits h 0x0011 [] = true → 1 ≤ n → n ≤ 1000 →
     exec (.wakeBudget h n) s = .next (State.settle h 0x0011
       (Res.ok { s.at_ h.t with pwr := { s.pwr with budgetNext := n } } (le 2 s.pwr.budgetNext) []) none))) ∧
  ((∀ (s : State) (t : Nat), t % 10000000000 = 0 →
     s.boot.gasp.any (fun g => decide (g.tw + 10000000000 ≤ t)) = false →
     ∃ u : State, exec (.wakeSlot t) s = .next u ∧ u.pwr.issued = s.pwr.issued + s.pwr.budgetNext ∧ u.pwr.lapsed = s.pwr.lapsed + s.pwr.avail ∧
       u.pwr.budget = s.pwr.budgetNext ∧ u.pwr.on = s.pwr.on ∧ u.pwr.avail ≤ s.pwr.budgetNext ∧
       { u with pwr := s.pwr, ctrs := s.ctrs } = s.at_ t) ∧
   (∀ (s : State) (pd t : Nat) (w : Wake), s.pwr.ramps.find? (fun w => w.pd == pd && w.ramp) = some w → w.began + 20000000000 ≤ t →
     ∃ u : State, exec (.wakeRampEnd pd t) s = .next u ∧ u.powered pd = true ∧ (∀ d, s.powered d = true → u.powered d = true) ∧
       (∀ v, v ∈ u.waits → v.what ≠ .power pd) ∧ u.dram.mem = s.dram.mem ∧ u.flt = s.flt) ∧
   (∀ (s : State) (pd t : Nat), s.pwr.ramps.any (fun w => w.pd == pd && w.ramp && decide (w.began + 30000000000 ≤ t)) = true →
     ∃ u : State, exec (.wakeFail pd t) s = .next u ∧ (u.src 0x002).status = true ∧ u.pwr.on = s.pwr.on ∧ u.pwr.used = s.pwr.used ∧
       (∀ w, w ∈ u.pwr.ramps → w.pd ≠ pd) ∧ (∀ v, v ∈ u.waits → v.what ≠ .power pd) ∧ u.dram.mem = s.dram.mem) ∧
   (∀ (s : State) (pd t : Nat), s.pwr.idlepark.testBit pd = true → s.powered pd = true → s.idle pd = true →
     ∃ u : State, exec (.idlePark pd t) s = .next u ∧ u.powered pd = false ∧ (∀ d, d ≠ pd → u.powered d = s.powered d) ∧ u.dram.mem = s.dram.mem))

/-- RACK retires the unit, enters the reserve that now serves into the map and is accepted; RACK_DONE writes the copies as the next
generation and completes OK when all three are written, E_HW with PARTIAL otherwise; REPAIR_MAP_COMMIT applies the map it names, and its
end releases the units held out (R297, R298, R453, R455, R456, R458).

Automatic racking of a unit with a hard fault under its AUTORACK bit enters the map as RACK does and sends vector 3; a reserve sequencer's
check that fails marks it worn and warns, one that passes clears the mark (R122, R454). -/
def Obligations.Racking : Prop :=
  ((∀ (s : State) (h : Hdr) (k unit arg : Nat), s.admits h 0x0006 [] = true → s.rackRange k unit arg = true → s.gone k unit arg = false →
     s.reserveLeft k unit arg = true → s.rackBusy k unit arg = false →
     ∃ u : State, exec (.rack h k unit arg) s = .next (State.settle h 0x0006 (Res.acc u) none) ∧
       u.rep.map = s.rep.map ++ [⟨k, 0, unit, s.newUnit k unit, arg, (s.at_ h.t).tods⟩] ∧
       (k, unit, if 5 ≤ k then arg else 0) ∈ u.rep.retired ∧
       u.rep.ops = s.rep.ops ++ [(h.tap, h.seq, 0x0006, ⟨k, 0, unit, s.newUnit k unit, arg, (s.at_ h.t).tods⟩)] ∧
       u.rep.gen = s.rep.gen ∧ u.rep.copies = s.rep.copies ∧ u.dram.mem = s.dram.mem ∧ u.pwr = s.pwr ∧ u.taps = s.taps) ∧
   (∀ (s : State) (copies t tap seq : Nat) (e : MapE) (ops : List (Nat × Nat × Nat × MapE)),
     s.rep.ops = (tap, seq, 0x0006, e) :: ops → tap ≠ 64 → s.rackReady e = true →
     ∃ v : State, exec (.rackDone copies t) s = .next (State.msi
         (if copies % 8 = 7 then v.finish tap seq OK 0 (le 1 e.kind ++ le 1 (copies % 8) ++ le 2 e.newunit ++ le 4 (s.rep.gen + 1))
          else v.finish tap seq eHw 4 (le 1 e.kind ++ le 1 (copies % 8) ++ le 2 e.newunit ++ le 4 (s.rep.gen + 1))) 0 3) ∧
       v.rep.gen = s.rep.gen + 1 ∧ v.rep.ops = ops ∧ v.rep.map = s.rep.map ∧
       (∀ i, i < s.rep.copies.length → v.rep.copies[i]? = some (if copies.testBit i then .ok (s.rep.gen + 1) s.rep.map else .bad)) ∧
       (copies % 8 ≠ 7 → (v.src 0x031).status = true) ∧ v.dram = s.dram ∧ v.taps = s.taps) ∧
   (∀ (s : State) (h : Hdr) (src : Nat) (m : List MapE), s.admits h 0x0007 [] = true → src ≤ 3 → (src ≠ 0 → s.rep.conflict = true) →
     s.rep.source src = some m → s.differs m = false →
     ∃ u : State, exec (.repairMapCommit h src) s = .next (State.settle h 0x0007 (Res.acc u) none) ∧ u.rep.map = m ∧
       u.rep.heldOut = s.rep.heldOut ∧ u.rep.conflict = s.rep.conflict ∧
       u.rep.ops = s.rep.ops ++ [(h.tap, h.seq, 0x0007, ⟨0, 0, 0, 0, 0, 0⟩)] ∧
       u.cellar = { s.cellar with up := s.cellar.up.relane (mapLanes m 0), dn := s.cellar.dn.relane (mapLanes m 1) } ∧
       { u with rep := s.rep, cellar := s.cellar } = s.at_ h.t) ∧
   (∀ (s : State) (copies t tap seq : Nat) (e : MapE) (ops : List (Nat × Nat × Nat × MapE)),
     s.rep.ops = (tap, seq, 0x0007, e) :: ops → tap ≠ 64 →
     ∃ v : State, exec (.repairMapCommitDone copies t) s = .next
         (if copies % 8 = 7 then v.finish tap seq OK 0 (le 1 0 ++ le 1 (copies % 8) ++ le 2 0 ++ le 4 (s.rep.gen + 1))
          else v.finish tap seq eHw 4 (le 1 0 ++ le 1 (copies % 8) ++ le 2 0 ++ le 4 (s.rep.gen + 1))) ∧
       v.rep.gen = s.rep.gen + 1 ∧ v.rep.ops = ops ∧ v.rep.heldOut = [] ∧ v.rep.conflict = false ∧ v.dram = s.dram ∧ v.taps = s.taps)) ∧
  ((∀ (s : State) (src t k unit : Nat), srcUnit src = some (k, unit) → s.flt.autorack.testBit (k - 1) = true → (s.src src).hard t = true →
     s.rackRange k unit 0 = true → s.gone k unit 0 = false → s.reserveLeft k unit 0 = true → s.rackBusy k unit 0 = false →
     ∃ v : State, exec (.autoracked src t) s = .next (v.msi 0 3) ∧ (v.src src).status = true ∧
       v.rep.map = s.rep.map ++ [⟨k, 1, unit, s.newUnit k unit, 0, (s.at_ t).tods⟩] ∧ v.rep.ops.length = s.rep.ops.length + 1 ∧
       v.dram.mem = s.dram.mem ∧ v.taps = s.taps ∧ v.pwr = s.pwr) ∧
   (∀ (s : State) (q t : Nat), s.rep.seqRes.any (fun p => p.1 / 8 == q) = false →
     exec (.reserveSeqCheck q true t) s = .next { s.at_ t with rep := { s.rep with seqWorn := clrBit s.rep.seqWorn q } }) ∧
   (∀ (s : State) (q t : Nat), s.rep.seqRes.any (fun p => p.1 / 8 == q) = false →
     ∃ u : State, exec (.reserveSeqCheck q false t) s = .next u ∧ u.rep.seqWorn.testBit q = true ∧ (u.src (0x360 + q)).status = true ∧
       { u with flt := s.flt, free := s.free, rep := { u.rep with seqWorn := s.rep.seqWorn } } = s.at_ t))

/-! ## Faults -/

/-- FAULT_READ writes one 32-byte entry per source with uncleared status from FIRST on, in ascending source ID, up to COUNT, and changes
nothing (R299).

FAULT_CLEAR of one source whose pair is idle again clears its status, ECHO and TFIRST, empties the register it stands in, leaves every
other source as it was and reports one source cleared, none latched again; INJECT arms COUNT failing checks of a checker that its unit has
(R299, R304, R446, R450). -/
def Obligations.FaultCommands : Prop :=
  (∀ (s : State) (h : Hdr) (first count : Nat) (d : DRef), s.admits h 0x0008 [(d, false)] = true → first ≤ 4095 → 1 ≤ count → count ≤ 4096 →
     32 * count ≤ d.len →
     let all := s.flt.srcs.filter (fun p => p.2.status && decide (first ≤ p.1))
     exec (.faultRead h first count d) s = .next (State.settle h 0x0008 (Res.ok (s.at_ h.t)
       (le 2 (if s.flt.first.valid then s.flt.first.src else 0xFFFF) ++ le 2 (if s.flt.prelim.valid then s.flt.prelim.src else 0xFFFF) ++
         le 1 (b2n s.flt.overflow) ++ le 3 0 ++ le 4 (min count all.length) ++ le 4 (all.length - min count all.length))
       ((all.take count).flatMap (fun p => le 2 p.1 ++ le 2 p.2.domain ++ le 2 p.2.echo ++ le 2 p.2.code ++
         (le 8 (p.2.tfirst / 1000000000000000) ++ le 8 (p.2.tfirst % 1000000000000000)) ++ le 8 p.2.detail))) (some d))) ∧
  ((∀ (s : State) (h : Hdr) (src : Nat), s.admits h 0x0009 [] = true → src ≤ 4095 → Tab.wf Src.zero s.flt.srcs = true →
     (s.src src).status = true → (s.src src).shows (s.at_ h.t).now = false → (s.src src).broken = false →
     ∃ u : State, exec (.faultClear h src) s = .next (State.settle h 0x0009 (Res.ok u (le 2 1 ++ le 2 0) []) none) ∧
       (u.src src).status = false ∧ (u.src src).echo = 0 ∧ (u.src src).tfirst = 0 ∧ (∀ n, n ≠ src → u.src n = s.src n) ∧
       (s.flt.first.valid = true → s.flt.first.src = src → u.flt.first = FltReg.zero) ∧
       (s.flt.first.src ≠ src → u.flt.first = s.flt.first) ∧ u.dram.mem = s.dram.mem ∧ u.taps = s.taps ∧ u.pwr = s.pwr) ∧
   (∀ (s : State) (h : Hdr) (checker count : Nat), s.admits h 0x0010 [] = true → hasChecker (checker / 16) (checker % 16) = true → count ≠ 0 →
     ∃ u : State, exec (.inject h checker count) s = .next (State.settle h 0x0010 (Res.ok u (le 2 (checker / 16)) []) none) ∧
       u.injected checker = count ∧ (∀ c, c ≠ checker → u.injected c = s.injected c) ∧
       { u with flt := { u.flt with inject := s.flt.inject } } = s.at_ h.t))

/-- A report sets its source's STATUS, and on a clear one keeps its code and TFIRST, and no other source changes (a disarmed engine may bring TDC trims into force that lose headroom); a batch fault names V_h
as a stop boundary; a broken pair reports BROKEN_REPORT; ERRORN_STUCK, while boundary scan does not hold the ball, and PCIE_AER report from their sources; on a device outside a cellar
the close of the window of FLT_FIRST settles it, signals the interrupt controller and sends vector 1. -/
def Obligations.ReportsReachTheCollector : Prop :=
  (∀ (s : State) (src code detail t until_ : Nat), canReport src code = true → code < 32768 → within src 0x700 0x7FF = false →
    ∃ u : State, exec (.faultReport src code detail t until_) s = .next u ∧ (u.src src).status = true ∧
      ((s.src src).status = false → (u.src src).code = code ∧ (u.src src).tfirst = (s.at_ t).now ∧ (u.src src).echo = min 0xFFFF ((s.src src).echo + 1)) ∧
      ((code = 0x0220 → ∀ q ∈ s.cal.items, q.2.pending = false ∨ itemKind q.1 ≠ 2) → ∀ n, n ≠ src → u.src n = s.src n) ∧
      u.dram.mem = s.dram.mem ∧ u.taps = s.taps) ∧
  (∀ (s : State) (b k detail t until_ : Nat) (x : Batch), 1 ≤ b → b ≤ 16 → k ∈ [0, 1, 2, 3, 4, 5, 6, 7, 9, 11, 12] → s.batch b = some x →
    ∃ u : State, exec (.faultReport (0x700 + 16 * (b - 1) + k) (0x0100 + k) detail t until_) s = .next u ∧
      (u.src (0x700 + 16 * (b - 1) + k)).status = true ∧ (x.active = true → (u.batch b).map (fun y => y.causes) = some (x.causes ++ [(4, x.vh)])) ∧
      (∀ c, c ≠ b → u.batch c = s.batch c) ∧ u.dram.mem = s.dram.mem) ∧
  (∀ (s : State) (src t until_ : Nat), srcAssigned src = true → (s.src src).broken = false → s.injected (16 * src) < 2 →
    ∃ u : State, exec (.brokenReport src t until_) s = .next u ∧ (u.src src).status = true ∧ (u.src src).broken = true ∧
      ((s.src src).status = false → (u.src src).code = 0x0040) ∧ (∀ n, n ≠ src → u.src n = s.src n) ∧ u.dram = s.dram) ∧
  (∀ (s : State) (t : Nat), s.flt.drive = true → s.boot.scan = 0 →
    ∃ u : State, exec (.errornStuck t) s = .next u ∧ (u.src 0x028).status = true ∧ (∀ n, n ≠ 0x028 → u.src n = s.src n) ∧ u.dram = s.dram ∧ u.batches = s.batches) ∧
  (∀ (s : State) (t : Nat), ∃ u : State, exec (.pcieAer t) s = .next u ∧ (u.src 0x540).status = true ∧ (∀ n, n ≠ 0x540 → u.src n = s.src n) ∧
    u.dram = s.dram ∧ u.batches = s.batches) ∧
  (∀ (s : State) (t : Nat), s.flt.first.valid = true → s.flt.first.settled = false → s.flt.winEnd ≤ t → s.cellar.cdev = 0xFF →
    exec (.faultWindowClose t) s = .next (State.msi (State.signal
      { s.at_ t with flt := { s.flt with first := { s.flt.first with settled := true } } } s.flt.first.src) 0 1))

/-- The root latches the first message of the cellar as CELLAR_FIRST and sends vector 1; PEER_LOST reports from the arrival port with
domain 0x0080 + c, and stops a batch whose DMASK names the lost device with LINK_DOWN; the end of a pace window, at a whole multiple of
1.024 µs and at no other time, gives every powered region its value and a parked one 0.

A link's own events complete: a device takes its number, a link retrains and is ready again, audits, goes down, trains again and comes up (R422,
R423, R427). -/
def Obligations.CellarFaultsAndPace : Prop :=
  (∀ (s : State) (dev src dom : Nat), s.isRoot = true → s.flt.cellarFirst = none →
    ∃ v : State, exec (.cellarFaultMsg dev src dom) s = .next (v.msi 0 1) ∧ v.flt.cellarFirst = some (dev, src, dom) ∧ v.flt.cellarMask.testBit dev = true ∧
      { v with flt := s.flt } = s) ∧
  (∀ (s : State) (port c t : Nat) (b : Nat) (x : Batch), port < 2 → s.batch b = some x → (b, x) ∈ s.batches →
    (s.batches.filter (fun p => p.1 == b)).length = 1 → x.active = true → 1 ≤ b → b ≤ 16 → c < 64 → x.dmask.testBit c = true →
    ∃ u : State, exec (.peerLost port c t) s = .next u ∧ (u.src (0x520 + port)).status = true ∧
      ((s.src (0x520 + port)).status = false → (u.src (0x520 + port)).domain = 0x0080 + c) ∧
      (u.src (0x700 + 16 * (b - 1) + 15)).status = true ∧ (4, x.vh) ∈ ((u.batch b).map (fun y => y.causes)).getD [] ∧ u.dram.mem = s.dram.mem) ∧
  (∀ (s : State) (vals : List Nat) (t : Nat), t % 1024000000 ≠ 0 → exec (.paceWindowEnd vals t) s = .next s) ∧
  (∀ (s : State) (vals : List Nat) (t : Nat), t % 1024000000 = 0 →
    ∃ u : State, exec (.paceWindowEnd vals t) s = .next u ∧ (∀ i, i < 50 → u.paceOf i = if s.powered (paceDomain i) then vals.getD i 0 else 0) ∧
      (∀ i, i < 50 → (u.paceLow.testBit i = true ↔ u.paceOf i < 0x1000)) ∧
      { u with pace := s.pace, paceLow := s.paceLow, flt := s.flt, free := s.free } = s.at_ t) ∧
  (∀ (s : State) (c t : Nat), s.cellar.up.passes = true → s.cellar.cdev = 0xFF → s.cellar.tooLong = false → c < 63 →
    ∃ u : State, exec (.enumRx ⟨c, none⟩ t) s = .next u ∧ u.cellar.cdev = c + 1) ∧
  (∀ (s : State) (t : Nat), s.cellar.cdev = 0xFF → s.cellar.up.up = false → s.cellar.tooLong = false → s.boot.ready = true →
    ∃ u : State, exec (.enumTimeout t) s = .next u ∧ u.cellar.cdev = 0) ∧
  (∀ (s : State) (p t : Nat), p ≤ 1 → (s.port p).passes = true →
    ∃ u : State, exec (.linkRetrain p t) s = .next u ∧ u.port p = { s.port p with retrain := true, audited := false }) ∧
  (∀ (s : State) (p t : Nat), p ≤ 1 → (s.port p).up = true → (s.port p).retrain = true →
    ∃ u : State, exec (.linkRetrainDone p t ⟨none, []⟩) s = .next u ∧ (u.port p).retrain = false ∧ (u.port p).up = true) ∧
  (∀ (s : State) (p t : Nat) (tx : Audit), p ≤ 1 → (s.port p).passes = true → (s.port p).audited = false →
    ∃ u : State, exec (.auditRx ⟨p, none⟩ (some tx) none t) s = .next u ∧ (u.port p).gotTx = some tx.sent) ∧
  (∀ (s : State) (p t : Nat), p ≤ 1 → (s.port p).up = true →
    ∃ u : State, exec (.linkDown p t) s = .next u ∧ (u.port p).up = false ∧ (u.src (0x520 + p)).status = true) ∧
  (∀ (s : State) (p : Nat), p ≤ 1 → (s.port p).up = false → (p = 0 → s.cellar.tooLong = false) → (∀ h ∈ s.rep.heldOut, h.1 ≠ 7) →
    (∃ u : State, exec (.linkTrainRetry p) s = .next u ∧ (u.port p).retrain = true) ∧
    (∃ u : State, exec (.linkUp ⟨p, []⟩) s = .next u ∧ (u.port p).up = true))

/-! ## Time base -/

/-- TIME_SET steps, slews, arms and reads: OP 0 sets time of day to TIME, OP 1 adds VALUE fs, both set TOD_VALID; OP 2 writes INCR_FRAC;
each of the three latches the reference pair at the present cycle; OP 3 arms the epoch at the whole cycle at or before TIME. The RESULT is
the reference pair and INCR_FRAC after the operation (that its grid time is the latched one is the model's reading, log 23).

The registers of the time base: REFSEL changes only while no batch is ARMED or RUNNING, and 3 is refused with CFG_ERR; REFADJ, AGEADJ and
GS_TARGET take the value written, GS_TARGET only inside its limit; TODFOLLOW set first, or a change of RCORR under it, writes INCR_FRAC as
R382 computes it, inside the range of R33; cleared, INCR_FRAC stands (R376, R377, R380, R382, R384). -/
def Obligations.TimeBaseCommands : Prop :=
  (let result := fun (b : TimeBase) => timeBytes b.gL ++ timeBytes (b.tL / 4294967296) ++ le 4 (b.tL % 4294967296) ++ le 4 0 ++ le 8 (toField 64 b.incrFrac)
   (∀ (s : State) (h : Hdr) (time : TPair), s.admits h 0x000A [] = true → time.f < second →
     let b := { (s.at_ h.t).tb with
       todRaw := (time.s * second + time.f) * 4294967296, todValid := true, gL := (s.at_ h.t).now / cycle * cycle
       tL := (time.s * second + time.f) * 4294967296 }
     exec (.timeSet h 0 0 time) s = .next (State.settle h 0x000A (Res.ok { s.at_ h.t with tb := b } (result b) []) none)) ∧
   (∀ (s : State) (h : Hdr) (v : Int), s.admits h 0x000A [] = true → 0 ≤ ((s.at_ h.t).tb.todRaw : Int) + v * 4294967296 →
     let raw := (((s.at_ h.t).tb.todRaw : Int) + v * 4294967296).toNat
     let b := { (s.at_ h.t).tb with todRaw := raw, todValid := true, gL := (s.at_ h.t).now / cycle * cycle, tL := raw }
     exec (.timeSet h 1 v ⟨0, 0⟩) s = .next (State.settle h 0x000A (Res.ok { s.at_ h.t with tb := b } (result b) []) none)) ∧
   (∀ (s : State) (h : Hdr) (v : Int), s.admits h 0x000A [] = true → -274877906944 ≤ v → v ≤ 274877906944 →
     let b := { (s.at_ h.t).tb with incrFrac := v, gL := (s.at_ h.t).now / cycle * cycle, tL := (s.at_ h.t).tb.todRaw }
     exec (.timeSet h 2 v ⟨0, 0⟩) s = .next (State.settle h 0x000A (Res.ok { s.at_ h.t with tb := b } (result b) []) none)) ∧
   (∀ (s : State) (h : Hdr) (time : TPair), s.admits h 0x000A [] = true → time.f < second → (∀ p ∈ s.batches, p.2.active = false) →
     ∃ b : TimeBase, exec (.timeSet h 3 0 time) s = .next (State.settle h 0x000A (Res.ok { s.at_ h.t with tb := b } (result b) []) none) ∧
       (∃ g, b.epochArmed = some g ∧ g % 125000 = 0 ∧ g ≤ time.s * second + time.f ∧ time.s * second + time.f < g + 125000) ∧
       b.gL = (s.at_ h.t).now / cycle * cycle ∧ b.tL = b.todRaw ∧
       { b with epochArmed := s.tb.epochArmed, gL := s.tb.gL, tL := s.tb.tL } = (s.at_ h.t).tb)) ∧
  (let follows := fun (b : TimeBase) =>
     let v := followFrac b.rcorr b.gscale
     b.incrFrac = max (-274877906944) (min 274877906944 v) ∧ (b.todfSat = true ↔ v < -274877906944 ∨ 274877906944 < v) ∧
       b.gL = b.now / cycle * cycle ∧ b.tL = b.todRaw
   (∀ s : State, exec (.refselWrite 3) s = .next { s with tb := { s.tb with cfgErr := true } }) ∧
   (∀ (s : State) (r : Nat), r < 3 → r ≠ s.tb.refsel → (∃ p ∈ s.batches, p.2.active = true) →
     exec (.refselWrite r) s = .next { s with tb := { s.tb with cfgErr := true } }) ∧
   (∀ (s : State) (r : Nat), r < 3 → r ≠ s.tb.refsel → (∀ p ∈ s.batches, p.2.active = false) →
     ∃ u : State, exec (.refselWrite r) s = .next u ∧ u.tb.refsel = r ∧ u.tb.crystal = s.tb.crystal ∧
       (s.tb.locked = true → r = 2 → s.tb.crystal = false → u.tb.buildOut = some true) ∧
       (s.tb.locked = true → r ≠ 2 → s.tb.crystal = true → s.tb.refinOk = true → u.tb.buildOut = some false) ∧
       { u with tb := { u.tb with refsel := s.tb.refsel, buildOut := s.tb.buildOut } } = s) ∧
   (∀ (s : State) (t : Nat), s.tb.todfollow = false →
     ∃ u : State, exec (.todfollowWrite true t) s = .next u ∧ u.tb.todfollow = true ∧ follows u.tb ∧ u.tb.todRaw = (s.at_ t).tb.todRaw ∧
       { u with tb := s.tb } = { s.at_ t with tb := s.tb }) ∧
   (∀ (s : State) (t : Nat), exec (.todfollowWrite false t) s = .next { s.at_ t with tb := { (s.at_ t).tb with todfollow := false } }) ∧
   (∀ (s : State) (v : Int) (t : Nat),
     ∃ u : State, exec (.refadjWrite v t) s = .next u ∧ u.tb.refadj = v ∧ u.tb.rcorr = v + (if s.tb.crystal then s.tb.ageadj else 0) ∧
       (s.tb.todfollow = true → u.tb.rcorr ≠ s.tb.rcorr → follows u.tb) ∧ (s.tb.todfollow = false → u.tb.incrFrac = s.tb.incrFrac) ∧
       u.tb.todRaw = (s.at_ t).tb.todRaw ∧ { u with tb := s.tb } = { s.at_ t with tb := s.tb }) ∧
   (∀ (s : State) (v : Int) (t : Nat),
     ∃ u : State, exec (.ageadjWrite v t) s = .next u ∧ u.tb.ageadj = v ∧ u.tb.rcorr = s.tb.refadj + (if s.tb.crystal then v else 0) ∧
       (s.tb.todfollow = true → u.tb.rcorr ≠ s.tb.rcorr → follows u.tb) ∧ (s.tb.crystal = false → u.tb.incrFrac = s.tb.incrFrac) ∧
       u.tb.todRaw = (s.at_ t).tb.todRaw ∧ { u with tb := s.tb } = { s.at_ t with tb := s.tb }) ∧
   (∀ (s : State) (v : Int) (t : Nat), -549755813 ≤ v → v ≤ 549755813 →
     exec (.gsTargetWrite v t) s = .next { s.at_ t with tb := { (s.at_ t).tb with
       gsTarget := v, gsFrom := if s.tb.gscale ≠ s.tb.gsTarget then s.tb.gsFrom else (s.at_ t).now + 1000000000 } }) ∧
   (∀ (s : State) (v : Int) (t : Nat), v < -549755813 ∨ 549755813 < v →
     exec (.gsTargetWrite v t) s = .next { s.at_ t with tb := { (s.at_ t).tb with cfgErr := true } }))

/-- At a slot that GS_TIME and GS_FROM admit a step of the grid scale moves ε toward its target by at most 13,743,895 units and never past it,
uses its slot up, counts the reference edges on from the one in progress (log 65), keeps INCR_FRAC without TODFOLLOW, and changes nothing
outside the time base; with ε at its target, or at another time than its slot's, a step changes nothing. -/
def Obligations.GridScaleSteps : Prop :=
  (∀ (s : State) (k t : Nat), (s.at_ t).tb.gscale ≠ (s.at_ t).tb.gsTarget →
    let b := (s.at_ t).tb
    b.gsTimeS * second + b.gsTimeF + k * 20000000000 = t → b.now = t → b.gsFrom ≤ t →
    ∃ u : State, exec (.gridScaleStep k t) s = .next u ∧
      u.tb.gscale = b.gscale + max (-13743895) (min 13743895 (b.gsTarget - b.gscale)) ∧
      (u.tb.gscale - b.gscale).natAbs ≤ 13743895 ∧ (u.tb.gsTarget - u.tb.gscale).natAbs < (b.gsTarget - b.gscale).natAbs ∧
      u.tb.gsTarget = b.gsTarget ∧ u.tb.gsFrom = t + 1 ∧ u.tb.refEdge = b.edgeAt t + b.edgeStep ∧ u.tb.now = b.now ∧ u.tb.todRaw = b.todRaw ∧
      u.tb.locked = b.locked ∧ (b.todfollow = false → u.tb.incrFrac = b.incrFrac) ∧ { u with tb := s.tb } = { s.at_ t with tb := s.tb }) ∧
  (∀ (s : State) (k t : Nat), s.tb.gscale = s.tb.gsTarget → exec (.gridScaleStep k t) s = .next (s.at_ t)) ∧
  (∀ (s : State) (k t : Nat), s.tb.gsTimeS * second + s.tb.gsTimeF + k * 20000000000 ≠ t → exec (.gridScaleStep k t) s = .next (s.at_ t))

/-- The references (a loss of REFIN while boundary scan does not hold its balls): a loss of the active reference enters holdover and stops every ARMED or RUNNING batch at V_h with DEVICE_FAULT; a loss
of the other stops none; REFIN returns only after 1 ms of REFIN_OK; the end of a build-out changes the active reference, leaves holdover and clears EPOCH_VALID, time counting on
(R376 to R378, R436).

An unlock of the edge PLL, or a band search that fails, raises PLL_UNLOCK, discards every queued edge, stops every clock output, stops every ARMED or RUNNING batch at
V_h with DEVICE_FAULT, clears EPOCH_VALID and TOD_VALID and freezes both timescales; a lock records the band, which the
PLL item's trims show, starts θ from 0 and lets them go on from the values they held (R212, R379, R383, R389, R402). -/
def Obligations.ReferenceAndPll : Prop :=
  ((∀ (s : State) (t : Nat), s.tb.refinOk = true → s.tb.crystal = false → s.tb.locked = true → s.boot.scan = 0 →
     (s.src 0x010).deaf (s.at_ t).now = false →
     ∃ u : State, exec (.refinLoss t) s = .next u ∧ u.tb.refinOk = false ∧ u.tb.holdover = true ∧ u.tb.holdSince = (s.at_ t).now ∧
       u.tb.locked = true ∧ u.tb.crystal = false ∧ u.tb.now = (s.at_ t).now ∧ (u.src 0x010).status = true ∧
       (∀ b x, s.batch b = some x → x.active = true → ∃ y, u.batch b = some y ∧ (5, x.vh) ∈ y.causes ∧ ∀ e ∈ y.edges, e.vnum < x.vh) ∧
       (∀ n, n ≠ 0x010 → u.src n = s.src n) ∧ u.dram = s.dram ∧ u.taps = s.taps ∧ u.clks = s.clks) ∧
   (∀ (s : State) (t : Nat), s.tb.refinOk = true → s.tb.crystal = true → s.boot.scan = 0 →
     ∃ u : State, exec (.refinLoss t) s = .next u ∧ u.tb.refinOk = false ∧ u.tb.holdover = s.tb.holdover ∧ (u.src 0x010).status = true ∧
       u.batches = s.batches ∧ (∀ n, n ≠ 0x010 → u.src n = s.src n) ∧ u.dram = s.dram ∧ u.taps = s.taps ∧ u.clks = s.clks) ∧
   (∀ (s : State) (t : Nat), s.tb.xtalOk = true → s.tb.crystal = true → s.tb.locked = true → s.tb.refsel ≠ 2 →
     (s.src 0x011).deaf (s.at_ t).now = false →
     ∃ u : State, exec (.xtalLoss t) s = .next u ∧ u.tb.xtalOk = false ∧ u.tb.holdover = true ∧ u.tb.locked = true ∧ (u.src 0x011).status = true ∧
       (∀ b x, s.batch b = some x → x.active = true → ∃ y, u.batch b = some y ∧ (5, x.vh) ∈ y.causes) ∧
       (∀ n, n ≠ 0x011 → u.src n = s.src n) ∧ u.dram = s.dram ∧ u.taps = s.taps ∧ u.clks = s.clks) ∧
   (∀ (s : State) (t : Nat), s.tb.xtalOk = true → s.tb.crystal = false →
     ∃ u : State, exec (.xtalLoss t) s = .next u ∧ u.tb.xtalOk = false ∧ u.tb.holdover = s.tb.holdover ∧ (u.src 0x011).status = true ∧
       u.batches = s.batches ∧ (∀ n, n ≠ 0x011 → u.src n = s.src n) ∧ u.dram = s.dram ∧ u.clks = s.clks) ∧
   (∀ (s : State) (t : Nat), s.tb.refinOk = false →
     ∃ u : State, exec (.refinOkSet t) s = .next u ∧ u.tb.refinOk = true ∧ (u.src 0x010).level = none ∧ u.tb.refinSince = (s.at_ t).now ∧ (u.src 0x010).status = (s.src 0x010).status ∧
       (s.tb.refsel = 1 → s.tb.locked = true → s.tb.holdover = true ∨ s.tb.crystal = true → u.tb.buildOut = some false) ∧
       u.batches = s.batches ∧ (∀ n, n ≠ 0x010 → u.src n = s.src n)) ∧
   (∀ (s : State) (t : Nat), s.tb.holdover = true → s.tb.buildOut = none →
     (s.tb.refsel = 0 ∧ s.tb.holdSince + 10000000000 ≤ (s.at_ t).now) ∨ s.tb.holdSince + 10 * second ≤ (s.at_ t).now →
     (if s.tb.crystal then s.tb.refinOk else s.tb.xtalOk) = true →
     exec (.holdoverBuildOut t) s = .next { s.at_ t with tb := { (s.at_ t).tb with buildOut := some (!s.tb.crystal) } }) ∧
   (∀ (s : State) (t : Nat), s.tb.refsel = 0 → s.tb.refinOk = true → s.tb.refinSince + 1000000000000 ≤ (s.at_ t).now → s.tb.crystal = true → s.tb.locked = true →
     s.tb.buildOut = none →
     (∀ p ∈ s.batches, p.2.active = false) →
     exec (.refinReturn t) s = .next { s.at_ t with tb := { (s.at_ t).tb with buildOut := some false } }) ∧
   (∀ (s : State) (t : Nat), (∃ p ∈ s.batches, p.2.active = true) ∨ (s.at_ t).now < s.tb.refinSince + 1000000000000 → exec (.refinReturn t) s = .next s) ∧
   (∀ (s : State) (t : Nat) (crystal : Bool), s.tb.buildOut = some crystal →
     ∃ u : State, exec (.buildOutDone t) s = .next u ∧ u.tb.crystal = crystal ∧ u.tb.holdover = false ∧ u.tb.buildOut = none ∧ u.tb.epochValid = false ∧
       u.tb.todValid = s.tb.todValid ∧ u.tb.now = (s.at_ t).now ∧ u.tb.todRaw = (s.at_ t).tb.todRaw ∧ u.tb.vcoBand = s.tb.vcoBand ∧
       { u with tb := s.tb } = { s.at_ t with tb := s.tb })) ∧
  ((∀ (s : State) (t : Nat), s.tb.locked = true → (s.src 0x012).deaf (s.at_ t).now = false →
     ∃ u : State, exec (.pllUnlock t) s = .next u ∧ u.tb.locked = false ∧ u.tb.holdover = false ∧ u.tb.epochValid = false ∧ u.tb.todValid = false ∧
       u.tb.now = (s.at_ t).now ∧ (∀ g, (u.at_ g).tb = u.tb) ∧ (u.src 0x012).status = true ∧ (∀ o, (u.clk o).running = false) ∧
       (∀ b x, s.batch b = some x → ∃ y, u.batch b = some y ∧ y.edges = [] ∧ (x.active = true → (5, x.vh) ∈ y.causes)) ∧
       u.dram = s.dram ∧ u.taps = s.taps ∧ u.pwr = s.pwr ∧ u.cal = s.cal) ∧
   (∀ (s : State) (t : Nat), s.tb.locked = false → s.powered 50 = true →
     ∃ u : State, exec (.pllUnlock t) s = .next u ∧ (u.src 0x012).status = true ∧ u.tb.locked = false ∧ u.tb.now = s.tb.now ∧ u.dram = s.dram) ∧
   (∀ (s : State) (t : Nat), s.tb.locked = false → s.powered 50 = false → exec (.pllUnlock t) s = .next s) ∧
   (∀ (s : State) (band : Nat), s.tb.locked = false → s.powered 50 = true → (s.tb.refsel ≠ 2 ∧ s.tb.refinOk = true ∨ s.tb.xtalOk = true) →
     ∃ u : State, exec (.pllLock band) s = .next u ∧ u.tb.locked = true ∧ u.tb.vcoBand = band ∧ u.tb.refEdge = s.tb.now / 125000 * 274877906944 ∧
       u.tb.crystal = (s.tb.refsel == 2 || !s.tb.refinOk) ∧ u.tb.now = s.tb.now ∧ u.tb.todRaw = s.tb.todRaw ∧
       u.tb.epochValid = s.tb.epochValid ∧ u.tb.todValid = s.tb.todValid ∧ (∀ n, n ≠ 0x012 → u.src n = s.src n) ∧
       (u.item 0x4000).trims = [(s.item 0x4000).trims.getD 0 128, band] ∧ (∀ i, i ≠ 0x4000 → u.item i = s.item i) ∧
       { u with tb := s.tb, flt := s.flt, free := s.free, cal := { u.cal with items := s.cal.items } } = s))

/-- The grid epoch: an armed SYNC_IN pulse gives the present cycle the index of G0, sets EPOCH_VALID, disarms the epoch and every
acquisition engine, latches the reference pair and the lead, and moves the clock outputs' edges with it; an unarmed pulse updates SYNC_LEAD and SYNC_LAST only. DEVTIME, PTP_STAT
and SYNC_LEAD latch what they report (R388, R390, R521). -/
def Obligations.SyncInAndLatches : Prop :=
  (∀ (s : State) (lead g0 t : Nat) (near : Bool), s.tb.epochArmed = some g0 →
    ∃ u : State, exec (.syncInPulse lead near t) s = .next u ∧ u.tb.now = g0 + (s.at_ t).now % 125000 ∧ u.tb.epochArmed = none ∧ u.tb.epochValid = true ∧
      u.tb.gL = u.tb.now / cycle * cycle ∧ u.tb.tL = (s.at_ t).tb.todRaw ∧ u.tb.todRaw = (s.at_ t).tb.todRaw ∧ u.tb.lead = lead % 65536 ∧
      u.tb.near = near ∧ u.tb.syncAt = u.tb.now ∧ u.tb.syncCount = (s.tb.syncCount + 1) % 65536 ∧ (∀ a, a < 12 → (u.acqs.get Acq.zero a).armed = false) ∧
      u.clks = s.clks.map (fun p => (p.1, p.2.moved ((u.tb.now : Int) - (s.at_ t).now))) ∧ u.dram.mem = s.dram.mem) ∧
  (∀ (s : State) (lead t : Nat) (near : Bool), s.tb.epochArmed = none →
    exec (.syncInPulse lead near t) s = .next { s.at_ t with tb := { (s.at_ t).tb with
      lead := lead % 65536, near := near, syncCount := (s.tb.syncCount + 1) % 65536, syncAt := (s.at_ t).now } }) ∧
  (∀ s : State, exec .ptpStatRead s = .next { s with ptp := { s.ptp with offsetLatch := s.ptp.offset, mpdLatch := s.ptp.mpd } }) ∧
  (∀ s : State, exec .syncLeadRead s = .next { s with tb := { s.tb with syncLastLatch := s.tb.syncAt } }) ∧
  (∀ (s : State) (fn t : Nat), s.pcie.up fn = true →
    ∃ u : State, exec (.devtimeRead fn t) s = .next u ∧ (u.wins.get Window64.zero fn).devtime = (s.at_ t).now / cycle * cycle ∧
      (u.wins.get Window64.zero fn).map = (s.wins.get Window64.zero fn).map ∧ (u.wins.get Window64.zero fn).latch = (s.wins.get Window64.zero fn).latch ∧
      (∀ k, k ≠ fn → u.wins.get Window64.zero k = s.wins.get Window64.zero k) ∧ { u with wins := s.wins } = s.at_ t)

/-- CLOCK_OUT schedules its action at TIME, or at the first whole nanosecond 2 µs after its dispatch; CLOCK_OUT_ACTION carries the earliest
scheduled action out once its time has come: a start runs a stopped output at its frequency and format with its edges counted from its time, a stop ends it after the high
half-period in progress, a start of a running
output and a stop of a stopped one change nothing (R320, R401, R402).

TRIG_CONFIG sets an owned trigger output's offset and width or a trigger input's edge and posting; a short or a contention takes its output
to high impedance and warns; a boundary-scan instruction stops every ARMED or RUNNING batch that owns a slice, and raises nothing at the
outputs it holds (R78, R320, R513 to R515). -/
def Obligations.OutputsAndTriggers : Prop :=
  ((∀ (s : State) (h : Hdr) (p : ClkP), s.admits h 0x0113 [] = true → p.output < 8 → s.clkOwner.get 0 p.output = cmdBatch h → p.format ≤ 4 →
     p.action ≤ 2 → 10485760000000 ≤ p.freq → p.freq ≤ 6710886400000000 → p.time.f < second →
     ((s.clk p.output).running = true → p.format = (s.clk p.output).format) → (p.time = ⟨0, 0⟩ ∨ h.t + 2000000000 ≤ p.time.s * second + p.time.f) →
     (p.action = 1 → (s.clk p.output).disabled = false) →
     ∃ u : State, ∃ at_ : Nat, exec (.clockOut h p) s = .next (State.settle h 0x0113 (Res.ok u [] []) none) ∧
       u.clk p.output = { s.clk p.output with acts := (s.clk p.output).acts ++ [⟨at_, p.action, p.freq, p.format⟩] } ∧
       (p.time ≠ ⟨0, 0⟩ → at_ = p.time.s * second + p.time.f) ∧
       (p.time = ⟨0, 0⟩ → at_ % 1000000 = 0 ∧ h.t + 2000000000 ≤ at_ ∧ at_ < h.t + 2000000000 + 1000000) ∧
       (∀ o, o ≠ p.output → u.clk o = s.clk o) ∧ { u with clks := s.clks } = s.at_ h.t) ∧
   (∀ (s : State) (o t : Nat) (a : ClkAct), (s.clk o).acts = [a] → a.at_ ≤ (s.at_ t).now → (a.action = 1 → s.powered 51 = true) →
     ∃ u : State, exec (.clockOutAction o t) s = .next u ∧ (u.clk o).acts = [] ∧
       (a.action = 0 → u.clk o = { (if (s.clk o).running then (s.clk o).stopped a.at_ else s.clk o) with acts := [] } ∧ (u.clk o).running = false) ∧
       (a.action = 1 → (s.clk o).disabled = false →
         (u.clk o).running = true ∧ ((s.clk o).running = false → (u.clk o).freq = a.freq ∧ (u.clk o).format = a.format ∧ (u.clk o).from_ = ((a.at_ : Int), 1))) ∧
       (a.action = 1 → (s.clk o).running = true → u.clk o = { s.clk o with acts := [] }) ∧
       (a.action = 2 → u.clk o = { (s.clk o).changed a.at_ a.freq with
         acts := [], format := if (s.clk o).running then (s.clk o).format else a.format } ∧ (u.clk o).freq = a.freq) ∧
       (∀ k, k ≠ o → u.clk k = s.clk k) ∧ { u with clks := s.clks } = s.at_ t) ∧
   (∀ (s : State) (o t : Nat) (a : ClkAct), (s.clk o).acts = [a] → (s.at_ t).now < a.at_ → exec (.clockOutAction o t) s = .next s)) ∧
  ((∀ (s : State) (h : Hdr) (pin width offset : Nat), s.admits h 0x0114 [] = true → pin < 8 → s.trigOutOwner.get 0 pin = cmdBatch h → 2 ≤ width →
     s.isActive (cmdBatch h) = false →
     ∃ u : State, exec (.trigConfig h pin width 0 offset) s = .next (State.settle h 0x0114 (Res.ok u [] []) none) ∧
       u.trigO pin = { s.trigO pin with offset := offset, width := width } ∧ (∀ k, k ≠ pin → u.trigO k = s.trigO k) ∧
       { u with trigOut := s.trigOut } = s.at_ h.t) ∧
   (∀ (s : State) (h : Hdr) (pin flags : Nat), s.admits h 0x0114 [] = true → 8 ≤ pin → pin < 16 → flags < 4 →
     s.trigInOwner.get 0 (pin - 8) = cmdBatch h → s.isActive (cmdBatch h) = false →
     ∃ u : State, exec (.trigConfig h pin 0 flags 0) s = .next (State.settle h 0x0114 (Res.ok u [] []) none) ∧
       u.trigIn.get TrigIn.zero (pin - 8) = ⟨flags.testBit 0, flags.testBit 1⟩ ∧
       (∀ k, k ≠ pin - 8 → u.trigIn.get TrigIn.zero k = s.trigIn.get TrigIn.zero k) ∧ { u with trigIn := s.trigIn } = s.at_ h.t) ∧
   (∀ (s : State) (o t : Nat), o < 8 → s.boot.scan = 0 →
     ∃ u : State, exec (.outputShort (0x018 + o) t) s = .next u ∧ (u.clk o).disabled = true ∧ (u.src (0x018 + o)).status = true ∧
       (∀ k, k ≠ o → u.clk k = s.clk k) ∧ (∀ n, n ≠ 0x018 + o → u.src n = s.src n) ∧ u.batches = s.batches ∧ u.dram = s.dram) ∧
   (∀ (s : State) (o t : Nat), o < 8 → s.boot.scan = 0 →
     ∃ u : State, exec (.outputShort (0x020 + o) t) s = .next u ∧ (u.trigO o).disabled = true ∧ (u.src (0x020 + o)).status = true ∧
       (∀ k, k ≠ o → u.trigO k = s.trigO k) ∧ (∀ n, n ≠ 0x020 + o → u.src n = s.src n) ∧ u.batches = s.batches ∧ u.dram = s.dram) ∧
   (∀ (s : State) (o t : Nat), o < 8 → s.boot.scan = 0 →
     ∃ u : State, exec (.contention (0x018 + o) t) s = .next u ∧ (u.clk o).disabled = true ∧ (u.src (0x018 + o)).status = true ∧
       ((s.src (0x018 + o)).status = false → (u.src (0x018 + o)).code = 0x0021) ∧ u.batches = s.batches ∧ u.dram = s.dram) ∧
   (∀ (s : State) (src t : Nat), s.boot.scan ≠ 0 → exec (.outputShort src t) s = .next s ∧ exec (.contention src t) s = .next s) ∧
   (∀ (s : State) (ins t : Nat), 1 ≤ ins → ins ≤ 3 →
     ∃ u : State, exec (.boundaryScanInstruction ins true t) s = .next u ∧ u.boot.scan = ins ∧
       (∀ b x, s.batch b = some x → x.active = true → s.slices b ≠ [] → ∃ y, u.batch b = some y ∧ (5, x.vh) ∈ y.causes) ∧
       (∀ b, s.slices b = [] → u.batch b = s.batch b) ∧ { u with boot := s.boot, batches := s.batches } = s.at_ t) ∧
   (∀ (s : State) (ins t : Nat), 1 ≤ ins → ins ≤ 3 →
     exec (.boundaryScanInstruction ins false t) s = .next { s.at_ t with boot := { s.boot with scan := 0 } }))

/-! ## PTP and calibration -/

/-- PTP: PTP_CONFIG sets its port; a one-step Sync of the parent, or the Follow_Up of a two-step one, forms the sample of R398 from the
latest exchange; the Delay_Resp to this port's latest
Delay_Req, and no other, ends the exchange; the parent is the best of the masters heard, and a new parent has no exchange (the data set compared is
log 68); the Delay_Req goes out by the parent's port over its transport (R300, R395, R396, R398).

The transparent clock adds the residence time of R399 to the correctionField of a Delay_Req and a one-step Sync, holds it for a two-step
Sync under MODE[2] while fewer than 64 are held, adds it to the matching Follow_Up, updates a UDP checksum, forwards no
peer delay message, and drops an entry that expires 1 s after its Sync left. -/
def Obligations.PtpClocks : Prop :=
  (let sampled := fun (p q : Ptp) (port : Nat) (t1 t2 t3 t4 cf cfr : Int) =>
     let asym := (p.ports.get PtpPort.zero port).asym
     let mpd := rhe ((t2 - t3) + (t4 - t1) - (cfFs cf + asym) - (cfFs cfr - asym)) 2
     q.mpd = mpd ∧ q.offset = t2 - t1 - mpd - (cfFs cf + asym) ∧ q.samples = (p.samples + 1) % 65536
   (∀ (s : State) (h : Hdr) (port mode transport domain : Nat) (asym : Int), s.admits h 0x000B [] = true → port < 2 → mode < 8 → transport ≤ 2 →
     ∃ u : State, exec (.ptpConfig h port mode transport domain asym) s = .next (State.settle h 0x000B (Res.ok u [] []) none) ∧
       u.ptpPort port = ⟨mode, transport, domain, asym⟩ ∧ (∀ k, k ≠ port → u.ptpPort k = s.ptpPort k) ∧
       { u with ptp := { u.ptp with ports := s.ptp.ports } } = s.at_ h.t) ∧
   (∀ (s : State) (m : PtpMsg) (t2 t3 t4 cfr : Int), s.ptp.fromParent m = true → m.twoStep = false → s.ptp.exch = some (t3, t4, cfr) →
     ∃ u : State, exec (.ptpSyncRx m t2) s = .next u ∧ sampled s.ptp u.ptp m.port m.ts (t2 - Config.ptpIngress m.port) t3 t4 m.cf cfr ∧
       { u with ptp := { u.ptp with mpd := s.ptp.mpd, offset := s.ptp.offset, samples := s.ptp.samples } } = s) ∧
   (∀ (s : State) (m : PtpMsg) (t2 : Int), s.ptp.fromParent m = true → m.twoStep = true →
     exec (.ptpSyncRx m t2) s = .next { s with ptp := { s.ptp with sync := some (m, t2 - Config.ptpIngress m.port) } }) ∧
   (∀ (s : State) (y m : PtpMsg) (t2 t3 t4 cfr : Int), s.ptp.sync = some (y, t2) → s.ptp.fromParent m = true → y.src = m.src → y.seqId = m.seqId →
     y.domain = m.domain → s.ptp.exch = some (t3, t4, cfr) →
     ∃ u : State, exec (.ptpFollowUpRx m) s = .next u ∧ sampled s.ptp u.ptp m.port m.ts t2 t3 t4 (y.cf + m.cf) cfr ∧ u.ptp.sync = none ∧
       { u with ptp := { u.ptp with mpd := s.ptp.mpd, offset := s.ptp.offset, samples := s.ptp.samples, sync := s.ptp.sync } } = s) ∧
   (∀ (s : State) (m : PtpMsg) (t3 : Int), s.ptp.req = some (t3, m.seqId) → m.own = true → s.ptp.fromParent m = true →
     exec (.ptpDelayRespRx m) s = .next { s with ptp := { s.ptp with req := none, exch := some (t3, m.ts, m.cf) } }) ∧
   (∀ (s : State) (m : PtpMsg) (t3 : Int) (seq : Nat), s.ptp.req = some (t3, seq) → m.own = false ∨ m.seqId ≠ seq →
     exec (.ptpDelayRespRx m) s = .next s) ∧
   (∀ (s : State) (port : Nat) (a : Announce),
     let new : Master := ⟨port, a.src, a.domain, [a.prio1, a.clockClass, a.accuracy, a.variance, a.prio2, a.grandmaster, a.steps]⟩
     s.ptp.hears new = true →
     ((∀ m ∈ s.ptp.masters, m.port = port ∧ m.src = a.src ∨ (m.port, m.src) ∈ a.lapsed) → s.ptp.parent ≠ some (port, a.src) →
       exec (.ptpAnnounceRx port a) s = .next { s with ptp := { s.ptp with
         masters := [new], parent := some (port, a.src), sync := none, req := none, exch := none } }) ∧
     (∀ m : Master, s.ptp.masters = [m] → ¬(m.port = port ∧ m.src = a.src) → (m.port, m.src) ∉ a.lapsed → s.ptp.hears m = true →
       ∃ u : State, exec (.ptpAnnounceRx port a) s = .next u ∧ u.ptp.masters = [m, new] ∧
         u.ptp.parent = some (if lexBefore new.key m.key then (port, a.src) else (m.port, m.src)) ∧
         (u.ptp.parent ≠ s.ptp.parent → u.ptp.sync = none ∧ u.ptp.req = none ∧ u.ptp.exch = none))) ∧
   (∀ (s : State) (t3 : Int) (port addr : Nat), s.ptp.parent = some (port, addr) →
     ∃ u : State, exec (.delayReqSend t3) s = .next u ∧ u.ptp.req = some (t3 + Config.ptpEgress port, s.ptp.reqSeq) ∧
       u.ptp.reqSeq = (s.ptp.reqSeq + 1) % 65536 ∧
       ((s.ptpPort port).transport = 0 → u.out = s.out ++ [.frame port 0x011B19000000 0x88F7 (le 1 1 ++ be 2 s.ptp.reqSeq)]) ∧
       ((s.ptpPort port).transport = 1 → u.out = s.out ++ [.frame port 0xE0000181 7 (be 2 319 ++ (le 1 1 ++ be 2 s.ptp.reqSeq))]) ∧
       { u with out := s.out, ptp := { u.ptp with req := s.ptp.req, reqSeq := s.ptp.reqSeq } } = s)) ∧
  (let r := fun (port : Nat) (i e : Int) => (e + Config.ptpEgress (1 - port)) - (i - Config.ptpIngress port)
   let sent := fun (s : State) (m : PtpMsg) (kind : Nat) (cf : Int) =>
     let tr := (s.ptpPort m.port).transport
     if tr = 0 then Out.frame (1 - m.port) (ptpDst 0) 0x88F7 (le 1 kind ++ (be 8 (toField 64 cf) ++ []))
     else Out.frame (1 - m.port) (ptpDst tr) (6 + tr)
       (be 2 (if kind < 8 then 319 else 320) ++ (le 1 kind ++ (be 8 (toField 64 cf) ++ be 2 (sumAfter tr m.sum m.cf cf))))
   let on := fun (s : State) => (s.ptpPort 0).mode.testBit 1 = true ∧ (s.ptpPort 1).mode.testBit 1 = true
   (∀ (s : State) (m : PtpMsg) (kind : Nat) (i e : Int), on s → (kind = 1 ∨ kind = 0 ∧ m.twoStep = false) →
     exec (.tcForward m kind i e) s = .next { s with out := s.out ++ [sent s m kind (m.cf + rhe (r m.port i e * 65536) 1000000)] }) ∧
   (∀ (s : State) (m : PtpMsg) (i e : Int), on s → m.twoStep = true → (s.ptpPort m.port).mode.testBit 2 = true → s.ptp.tc.length < 64 →
     exec (.tcForward m 0 i e) s = .next { s with
       ptp := { s.ptp with tc := s.ptp.tc ++ [⟨m.src, m.seqId, m.domain, r m.port i e, e + Config.ptpEgress (1 - m.port)⟩] }
       out := s.out ++ [sent s m 0 m.cf] }) ∧
   (∀ (s : State) (m : PtpMsg) (i e : Int) (x : TcEntry), on s → (s.ptpPort m.port).mode.testBit 2 = true → s.ptp.tc = [x] → x.src = m.src →
     x.seqId = m.seqId → x.domain = m.domain →
     exec (.tcForward m 8 i e) s = .next { s with
       ptp := { s.ptp with tc := [] }, out := s.out ++ [sent s m 8 (m.cf + rhe (x.r * 65536) 1000000)] }) ∧
   (∀ (s : State) (m : PtpMsg) (kind : Nat) (i e : Int), kind = 2 ∨ kind = 3 ∨ kind = 10 → exec (.tcForward m kind i e) s = .next s) ∧
   (∀ (s : State) (x : TcEntry) (tod : Int), s.ptp.tc = [x] → tod < x.egress + second →
     exec (.tcEntryExpiry x.src x.seqId ⟨x.domain, tod⟩) s = .next s) ∧
   (∀ (s : State) (x : TcEntry) (tod : Int), s.ptp.tc = [x] → x.egress + second ≤ tod →
     ∃ u : State, exec (.tcEntryExpiry x.src x.seqId ⟨x.domain, tod⟩) s = .next u ∧ u.ptp.tc = [] ∧
       (∀ c, u.ctrs.get Ctr.zero c = s.ctrs.get Ctr.zero c ∨ (s.ctrs.get Ctr.zero c).source = 0x0807) ∧
       { u with ctrs := s.ctrs, ptp := { u.ptp with tc := s.ptp.tc } } = s))

/-- CAL_RUN is accepted and keeps the items that its mode calibrates; its end, when no item is left, posts the final completion (E_HW with
PARTIAL and the items that failed, where any did) and sends vector 3; CAL_STATUS returns one record per item and changes nothing (R216 to
R219, R301, R302, R348).

A first measurement waits for its repeat; one whose repeat agrees within the tolerance is accepted: the item is CALIBRATED, its count, time
and difference follow, DUE clears, and on a cell of no active batch the mean comes into force; one that does not agree keeps the
correction and counts a disagreement, the third in a row wears the item with a fault. A histogram of 2^20 events gives its DNL table or is
discarded, one that stays short is given up; an unusable model moves the trims from the model that was
fitted, the fourth in succession ends with RANGE. No other item changes, but that the line which the observer routes next has its interval from
then on (R214, R218, R219, R222, R226 to R229, R301; the end of a run's item without a measurement is log 54). -/
def Obligations.CalibrationRuns : Prop :=
  ((∀ (s : State) (h : Hdr) (p : CalRunP), s.admits h 0x000C [(p.data, true)] = true → p.mode = 1 ∨ p.mode = 3 → 1 ≤ p.n → p.n ≤ 544 → p.calint = 0 →
     p.t0.f < second → prefOk p.pref = true →
     let bs := (s.at_ h.t).dataIn h p.data
     let cells := (cellEntries bs p.n).map (fun e => fld e 0 2)
     16 * p.n ≤ bs.length → (∀ e ∈ cellEntries bs p.n, zeros e 2 2 = true ∧ zeros e 12 4 = true) → (∀ c ∈ cells, c < 544) →
     cells.eraseDups.length = cells.length → (∀ c ∈ cells, s.isActive (s.cellOwner c) = false) →
     ∃ u : State, exec (.calRun h p) s = .next (State.settle h 0x000C (Res.acc u) none) ∧
       u.cal.runs = s.cal.runs ++ [⟨h.tap, h.seq, p.mode, cells.flatMap (modeItems p.mode), [], false, (cellEntries bs p.n).map calCell, p.pref,
         p.t0.s * second + p.t0.f, p.data⟩] ∧
       (∀ i, { u.item i with first := (s.item i).first, tries := (s.item i).tries } = s.item i) ∧
       (∀ k, (u.tdcs.get Tdc.zero k).level = (s.tdcs.get Tdc.zero k).level ∧ (u.tdcs.get Tdc.zero k).blind = (s.tdcs.get Tdc.zero k).blind) ∧
       { u with tdcs := s.tdcs, cal := { u.cal with runs := s.cal.runs, items := s.cal.items, gather := s.cal.gather } } = s.at_ h.t) ∧
   (∀ (s : State) (h : Hdr) (p : CalRunP), s.admits h 0x000C [(p.data, true)] = true → p.mode = 4 → p.n = 0 → p.calint ≤ 3600 →
     p.t0 = ⟨0, 0⟩ → p.pref = ⟨0, 0, 0⟩ →
     let bs := (s.at_ h.t).dataIn h p.data
     72 ≤ bs.length → zeros bs 68 4 = true →
     ∃ u : State, exec (.calRun h p) s = .next (State.settle h 0x000C (Res.acc u) none) ∧ u.cal.asyncMask = fld bs 0 68 ∧
       u.cal.interval = (if p.calint = 0 then s.cal.interval else p.calint) ∧ u.cal.runs.length = s.cal.runs.length + 1 ∧
       (∀ i, { u.item i with begun := (s.item i).begun } = s.item i) ∧ { u with cal := s.cal } = s.at_ h.t) ∧
   (∀ (s : State) (r : CalRun) (rest : List CalRun) (t : Nat), s.cal.runs = r :: rest → r.left = [] → r.failed = [] → r.missed = false →
     ∃ v : State, exec (.calRunDone t) s = .next (State.msi (v.finish r.tap r.seq OK 0 []) 0 3) ∧
       v.cal.runs = rest ∧ v.dram = s.dram ∧ { v with cal := s.cal } = s.at_ t) ∧
   (∀ (s : State) (r : CalRun) (rest : List CalRun) (t : Nat), s.cal.runs = r :: rest → r.left = [] → (r.failed ≠ [] ∨ r.missed = true) →
     r.data.inl = false → s.cleanBlock r.data.addr (2 * r.failed.length) = true → (∀ q, (s.stack q).frozen = false) →
     ∃ v : State, exec (.calRunDone t) s = .next (State.msi (v.finishData r.tap r.seq eHw 4 [] (2 * r.failed.length) []) 0 3) ∧
       v.cal.runs = rest ∧ v.peek r.data.addr (2 * r.failed.length) = r.failed.flatMap (le 2) ∧ 
       { v with cal := s.cal, dram := s.dram, flt := s.flt, free := s.free } = s.at_ t) ∧
   (∀ (s : State) (h : Hdr) (n : Nat) (d : DRef), s.admits h 0x000D [(d, true)] = true → 1 ≤ n → n ≤ 3809 → 32 * n ≤ d.len →
     let ids := (List.range n).map (fun i => fld ((s.at_ h.t).dataIn h d) (2 * i) 2)
     (∀ i ∈ ids, itemValid i = true) →
     exec (.calStatus h n d) s = .next (State.settle h 0x000D (Res.ok (s.at_ h.t) [] (ids.flatMap (s.at_ h.t).calRecord)) (some d)))) ∧
  ((∀ (s : State) (item : Nat) (r : CalRes) (ext : Bool) (t : Nat) (v : CalVal), s.calibrating item ext = true →
     s.measured item r ext = some (some v, true) → (s.item item).first = none →
     ∃ u : State, exec (.calMeasurementDone item r ext t) s = .next u ∧ u.item item = { s.item item with first := some v, tries := 0 } ∧
       (∀ i, i ≠ item → u.item i = s.item i) ∧ u.cal.runs = s.cal.runs ∧ u.cal.started = s.cal.started ∧
       { u with cal := s.cal, tdcs := s.tdcs } = s.at_ t) ∧
   (∀ (s : State) (item : Nat) (r : CalRes) (ext : Bool) (t : Nat) (a v : CalVal), s.calibrating item ext = true →
     s.measured item r ext = some (some v, true) → (s.item item).first = some a → (s.item item).differ a v ≤ tolerance (itemKind item) →
     (∀ e, a.mean v = .err e → (newDeskew item (s.item item).value e).natAbs ≤ 10000000) →
     ∃ u : State, exec (.calMeasurementDone item r ext t) s = .next u ∧ (u.item item).state = 1 ∧ (u.item item).due = false ∧
       (u.item item).range = false ∧ (u.item item).count = min 0xFFFFFFFF ((s.item item).count + 1) ∧ (u.item item).tlast = (s.at_ t).now ∧
       (u.item item).lastdiff = lastDiff item ((s.item item).differ a v) ∧ (u.item item).disagree = 0 ∧ (u.item item).first = none ∧
       (∀ e, itemKind item = 3 → a.mean v = .err e → s.isActive (s.cellOwner (itemCell item)) = false →
         (u.item item).value = newDeskew item (s.item item).value e ∧ (u.item item).pending = false) ∧
       (∀ ds os, itemKind item = 1 → a.mean v = .model ds os → s.isActive (s.cellOwner (itemCell item)) = false →
         (u.item item).value = ds ∧ (u.item item).offs = os ∧ (u.item item).pendV = (s.item item).value ∧ (u.item item).pendO = (s.item item).offs) ∧
       (∀ i, i ≠ item → { u.item i with begun := (s.item i).begun } = s.item i) ∧
       (∀ x ∈ u.cal.runs, item ∉ x.left) ∧ u.dram = s.dram ∧ u.taps = s.taps ∧ u.batches = s.batches) ∧
   (∀ (s : State) (item : Nat) (r : CalRes) (ext : Bool) (t : Nat) (a v : CalVal), s.calibrating item ext = true →
     s.measured item r ext = some (some v, true) → (s.item item).first = some a → tolerance (itemKind item) < (s.item item).differ a v →
     ∃ u : State, exec (.calMeasurementDone item r ext t) s = .next u ∧ (u.item item).count = (s.item item).count ∧
       (u.item item).disagree = min 3 ((s.item item).disagree + 1) ∧ (u.item item).value = (s.item item).value ∧ (u.item item).trims = (s.item item).trims ∧
       (u.item item).lastdiff = lastDiff item ((s.item item).differ a v) ∧ (u.item item).first = none ∧ (u.item item).range = false ∧
       (u.item item).state = (if (s.item item).disagree = 2 then 2 else (s.item item).state) ∧
       ((s.item item).disagree = 2 → (u.src (itemSrc item)).status = true) ∧
       (∀ i, i ≠ item → { u.item i with begun := (s.item i).begun } = s.item i) ∧
       (∀ x ∈ u.cal.runs, item ∉ x.left) ∧ u.dram = s.dram ∧ u.taps = s.taps ∧ u.batches = s.batches) ∧
   (∀ (s : State) (item : Nat) (r : CalRes) (ext : Bool) (t : Nat) (v : Option CalVal), s.calibrating item ext = true →
     s.measured item r ext = some (v, false) → itemKind item = 2 →
     ∃ u : State, exec (.calMeasurementDone item r ext t) s = .next u ∧ u.cal = s.cal ∧ (u.tdcs.get Tdc.zero (item % 4096)).hist = [] ∧
       (∀ k, k ≠ item % 4096 → u.tdcs.get Tdc.zero k = s.tdcs.get Tdc.zero k) ∧ { u with tdcs := s.tdcs, ctrs := s.ctrs } = s.at_ t) ∧
   (∀ (s : State) (item : Nat) (r : CalRes) (ext : Bool) (t : Nat) (ds : Int) (os : List Int), s.calibrating item ext = true →
     s.measured item r ext = some (some (.model ds os), false) → itemKind item = 1 →
     ∃ u : State, exec (.calMeasurementDone item r ext t) s = .next u ∧ (u.item item).value = (s.item item).value ∧
       (u.item item).offs = (s.item item).offs ∧ (u.item item).disagree = (s.item item).disagree ∧ (u.item item).first = none ∧
       ((s.item item).tries < 3 → (u.item item).tries = (s.item item).tries + 1 ∧ (u.item item).trims = movedTrims item (s.item item) ds os ∧
         u.cal.runs = s.cal.runs) ∧
       (3 ≤ (s.item item).tries → (u.item item).range = true ∧ (u.item item).tries = 0 ∧ ∀ x ∈ u.cal.runs, item ∉ x.left) ∧
       (∀ i, i ≠ item → { u.item i with begun := (s.item i).begun } = s.item i) ∧ u.dram = s.dram ∧ u.taps = s.taps ∧ u.batches = s.batches) ∧
   (∀ (s : State) (item : Nat) (ext : Bool), itemKind item = 2 →
     let bins := (List.range 128).map ((s.tdcs.get Tdc.zero (item % 4096)).hist.get 0)
     bins.sum = 1048576 →
     ((∀ c ∈ bins, 4096 ≤ c ∧ c ≤ 12288) →
       s.measured item .hist ext = some (some (.dnl (bins.map (fun (c : Nat) => rhe (4096 * (128 * (c : Int) - 1048576)) 1048576))), true)) ∧
     ((∃ c ∈ bins, c < 4096 ∨ 12288 < c) → ∃ d, s.measured item .hist ext = some (d, false))) ∧
   (∀ (s : State) (item t f : Nat), itemKind item = 2 → itemValid item = true → (s.tdcs.get Tdc.zero (item % 4096)).since = some f →
     f + 10 * second ≤ t → (s.tdcs.get Tdc.zero (item % 4096)).bins.sum < 1048576 →
     ∃ u : State, exec (.tdcHistogramTimeout ⟨item, t⟩) s = .next u ∧ (u.tdcs.get Tdc.zero (item % 4096)).hist = [] ∧
       (u.tdcs.get Tdc.zero (item % 4096)).since = none ∧ (∀ k, k ≠ item % 4096 → u.tdcs.get Tdc.zero k = s.tdcs.get Tdc.zero k) ∧
       (∀ x ∈ u.cal.runs, item ∉ x.left) ∧ u.item item = { s.item item with first := none } ∧
       (∀ i, i ≠ item → u.item i = s.item i) ∧ { u with tdcs := s.tdcs, cal := s.cal } = s.at_ t))

/-- A slice temperature more than 2.0 °C from that of the last calibration starts the slice's delay items, a nearer one starts none; the
interval's end starts the line whose turn it is once per interval, passes a worn one over, and sets DUE of a line whose live pattern has
not reached every cell; the end of a line's interval that is not the one whose turn it is changes nothing; a fixture value comes in force
where every loaded set keeps R53 (that it cancels in those checks is the model's reading, log 31), completes with E_TIMING where one does
not and with E_RANGE outside ±20,000,000 fs, without effect. -/
def Obligations.CalibrationUpkeep : Prop :=
  (∀ (s : State) (sl t : Nat) (temp : Int), s.powered (3 + sl) = true → 16 < (temp - s.cal.calTemps.get 0 sl).natAbs → s.observerLost sl = false →
    ∃ u : State, exec (.sliceTempReading sl temp t) s = .next u ∧ u.cal.temps.get 0 sl = temp ∧ (∀ i ∈ s.delayItems sl, i ∈ u.cal.started) ∧
      (∀ i ∈ s.delayItems sl, i ∉ s.cal.started → (u.item i).begun = some (s.at_ t).now) ∧ (∀ i, { u.item i with begun := (s.item i).begun } = s.item i) ∧
      (∀ k, k ≠ sl → u.cal.temps.get 0 k = s.cal.temps.get 0 k) ∧ u.dram = s.dram ∧ u.taps = s.taps) ∧
  (∀ (s : State) (sl t : Nat) (temp : Int), s.powered (3 + sl) = true → (temp - s.cal.calTemps.get 0 sl).natAbs ≤ 16 →
    ∃ u : State, exec (.sliceTempReading sl temp t) s = .next u ∧ u.cal.temps.get 0 sl = temp ∧ u.cal.started = s.cal.started ∧ u.cal.items = s.cal.items) ∧
  (∀ (s : State) (sl line t : Nat), line ≠ s.cal.slTurn.get 0 sl → exec (.calIntervalDue sl line t) s = .next s) ∧
  (∀ (s : State) (sl line t : Nat), s.powered (3 + sl) = true → s.observerLost sl = false → s.tdcsOk (17 * sl + 16) = true →
    line = s.cal.slTurn.get 0 sl → let cur := (s.delayItems sl).getD line 0
    (s.watched sl = none → s.lineDue cur t = true → (s.item cur).state ≠ 2 → cur ∉ s.cal.started →
      ∃ u : State, exec (.calIntervalDue sl line t) s = .next u ∧ cur ∈ u.cal.started ∧ u.item cur = { s.item cur with begun := some (s.at_ t).now } ∧
        (∀ i, i ≠ cur → u.item i = s.item i) ∧ u.cal.slTurn.get 0 sl = (line + 1) % 48 ∧ { u with cal := s.cal } = s.at_ t) ∧
    (s.watched sl = none → s.lineDue cur t = true → (s.item cur).state = 2 →
      exec (.calIntervalDue sl line t) s = .next { s.at_ t with cal := { s.cal with slTurn := s.cal.slTurn.set 0 sl ((line + 1) % 48) } }) ∧
    (s.watched sl = none → s.lineDue cur t = false → exec (.calIntervalDue sl line t) s = .next (s.at_ t)) ∧
    (∀ i, s.watched sl = some i → s.lineDue i t = true →
      ∃ u : State, exec (.calIntervalDue sl line t) s = .next u ∧ (u.item i).due = true ∧ (∀ r ∈ u.cal.runs, i ∉ r.left) ∧
        (∀ j, j ≠ i → { u.item j with begun := (s.item j).begun } = s.item j) ∧ { u with cal := s.cal } = s.at_ t)) ∧
  (∀ (s : State) (lch dir : Nat) (v : Int), v.natAbs ≤ 20000000 →
    (∀ x, s.batch (s.sliceOwner.get 0 (lch / 16)) = some x → x.sets.all (fun p => p.2.legal x.periods x.factors) = true) →
    ∃ u : State, exec (.fixtureWrite lch dir v) s = .next u ∧ u.fixture.get 0 (2 * lch + dir) = v ∧ u.out = s.out ++ [.fixture OK] ∧
      (∀ k, k ≠ 2 * lch + dir → u.fixture.get 0 k = s.fixture.get 0 k) ∧ { u with fixture := s.fixture, out := s.out } = s) ∧
  (∀ (s : State) (lch dir : Nat) (v : Int), 20000000 < v.natAbs →
    exec (.fixtureWrite lch dir v) s = .next { s with out := s.out ++ [.fixture eRange] }) ∧
  (∀ (s : State) (lch dir : Nat) (v : Int) (x : Batch), v.natAbs ≤ 20000000 → s.batch (s.sliceOwner.get 0 (lch / 16)) = some x →
    x.sets.all (fun p => p.2.legal x.periods x.factors) = false →
    exec (.fixtureWrite lch dir v) s = .next { s with out := s.out ++ [.fixture eTiming] })

/-! ## PE control buses -/

/-- PE_SCRIPT_LOAD puts a well-formed script into the store; the END of a script frees its bus, which has sent what its WRITE and READ ops say, and
lets the script's next channel follow, or after the last one its use go on: a PEACT's boundary, the settling of a flow step, the codes of a LEVELS
entry; an EXPECT that the accumulator fails, a readback that differs or a bus outside BUSMASK takes the script off its buses, reports from the
bus and gives a PEACT batch fault 8; a readback
mismatch stops the batches that own the bus; a settled LEVELS completes (R98, R303, R310, R430 to R433). -/
def Obligations.PeScripts : Prop :=
  (∀ (s : State) (h : Hdr) (n busmask settle : Nat) (d : DRef), s.admits h 0x000F [(d, true)] = true → n ≤ 1023 → busmask ≠ 0 → 0 < d.len → d.len ≤ 4096 →
    let bs := (s.at_ h.t).dataIn h d
    scriptOk busmask bs = true → (∀ p ∈ s.batches, p.2.active = true → ∀ k, PInstr.peact k n ∉ p.2.prog) →
    ((s.scripts.filter (fun p => p.1 != n)).map (fun p => 8 * p.2.ops.length)).sum + bs.length ≤ 262144 →
    ∃ u : State, exec (.peScriptLoad h n busmask settle d) s = .next (State.settle h 0x000F (Res.ok u [] []) none) ∧
      u.script n = some ⟨busmask, settle, pieces 8 (bs.length / 8) bs⟩ ∧ (∀ k, k ≠ n → u.script k = s.script k) ∧ { u with scripts := s.scripts } = s.at_ h.t) ∧
  (let performed := fun (s : State) (n : Nat) (r : PeRun) (x : Script) (e : PeEnd) =>
     x.perform n (r.chans.headD 0) (s.bus n).div (s.runCodes r) ((x.buses r.chans).head? == some n) (Config.freeValue s.free) e
   let last := fun (s : State) (n : Nat) (r : PeRun) => (s.bus n).run = some r ∧ (s.bus n).queue = [] ∧
     (∀ z : Bus, z.run = none → z.queue = [] → (s.setBus n z).onBus r = false) ∧ ∀ k, (s.acq k).ls = none
   (∀ (s : State) (n t : Nat) (r : PeRun) (x : Script) (e : PeEnd) (y : Batch) (a : Option Acc), last s n r → s.script r.script = some x →
     (performed s n r x e).ok = true → x.setsLevels = false → r.use_ = 0 → r.left = [] → s.batch r.b = some y → y.seq.wait = some (.peact a) →
     ∃ u : State, exec (.peScriptDone n e t) s = .next u ∧ (u.bus n).run = none ∧ (∀ k, k ≠ n → u.bus k = s.bus k) ∧
       u.out = s.out ++ (performed s n r x e).sent ∧
       (∃ z, u.batch r.b = some z ∧ z.seq.wait = some (.peact (some ⟨(s.at_ t).now + max (r.settle * 1000000) 200000000, 0, 1⟩))) ∧
       (∀ k, k ≠ r.b → u.batch k = s.batch k) ∧ { u with buses := s.buses, batches := s.batches, out := s.out, free := s.free } = s.at_ t) ∧
   (∀ (s : State) (n t : Nat) (r : PeRun) (x : Script) (e : PeEnd) (c : Nat) (cs : List Nat), last s n r → s.script r.script = some x →
     (performed s n r x e).ok = true → x.setsLevels = false → r.left = c :: cs → x.buses [c] ≠ [] →
     ∃ u : State, exec (.peScriptDone n e t) s = .next u ∧ u.onBus { r with chans := [c], left := cs } = true ∧
       u.out = s.out ++ (performed s n r x e).sent ∧ { u with buses := s.buses, out := s.out, free := s.free } = s.at_ t) ∧
   (∀ (s : State) (n t : Nat) (r : PeRun) (x : Script) (e : PeEnd), last s n r → s.script r.script = some x →
     (performed s n r x e).ok = true → r.use_ = 2 → r.left = [] →
     ∃ u : State, exec (.peScriptDone n e t) s = .next u ∧ (u.bus n).run = none ∧
       (u.bus n).settling = (s.bus n).settling ++ [(r, (s.at_ t).now + max (r.settle * 1000000) 200000000)] ∧
       (∀ k, k ≠ n → u.bus k = s.bus k) ∧ u.out = s.out ++ (performed s n r x e).sent ∧ (x.setsLevels = false → u.acqs = s.acqs) ∧
       { u with buses := s.buses, acqs := s.acqs, out := s.out, free := s.free } = s.at_ t) ∧
   (∀ (s : State) (n t : Nat) (r : PeRun) (w : Waiter) (x : Script) (e : PeEnd) (y : Batch) (sc k vstep : Nat) (voff : Int)
     (v : Nat × Nat × Nat), last s n r → s.script r.script = some x → (performed s n r x e).ok = true → r.use_ = 1 → r.left = [] →
     s.levelsOf r = some w → w.what = .levels sc voff vstep [v] k → s.batch w.b = some y →
     ∃ u : State, exec (.peScriptDone n e t) s = .next u ∧ (u.bus n).run = none ∧
       (u.bus n).settling = (s.bus n).settling ++ [(r, (s.at_ t).now + r.settle * 1000000)] ∧ u.out = s.out ++ (performed s n r x e).sent ∧
       (∃ z, u.batch w.b = some z ∧ z.vth.get 0 v.1 = v.2.1 ∧ z.vtl.get 0 v.1 = v.2.2 ∧ z.lvls.get Lvl.zero v.1 = ⟨v.2.1, v.2.2, voff, vstep⟩) ∧
       (∀ k, k ≠ w.b → u.batch k = s.batch k) ∧ u.taps = s.taps ∧ u.dram = s.dram ∧ u.flt = s.flt) ∧
   (∀ (s : State) (n t : Nat) (r : PeRun) (x : Script) (e : PeEnd) (y : Batch), n < 16 → (s.bus n).run = some r → s.script r.script = some x →
     (performed s n r x e).ok = false → r.use_ = 0 → 1 ≤ r.b → r.b ≤ 16 → s.batch r.b = some y → y.active = true →
     ∃ u : State, exec (.peScriptDone n e t) s = .next u ∧ (u.src (0x550 + n)).status = true ∧ (u.src (0x700 + 16 * (r.b - 1) + 8)).status = true ∧
       (∃ z, u.batch r.b = some z ∧ z.thr = y.thr ++ [(4, (s.at_ t).now + 200000000)]) ∧ (∀ k, k ≠ r.b → u.batch k = s.batch k) ∧
       u.onBus r = false ∧ u.dram = s.dram ∧ u.taps = s.taps) ∧
   (∀ (s : State) (n t : Nat) (e : PeEnd), (s.bus n).run = none → exec (.peScriptDone n e t) s = .next s)) ∧
  (∀ (s : State) (n t : Nat), n < 16 → (s.bus n).run = none →
    ∃ u : State, exec (.peBusFault n t) s = .next u ∧ (u.src (0x550 + n)).status = true ∧
      ((s.src (0x550 + n)).deaf (s.at_ t).now = false →
        ∀ b x, s.batch b = some x → x.active = true → s.busOwner.get 0 n = b → ∃ y, u.batch b = some y ∧ (4, x.vh) ∈ y.causes) ∧
      (∀ b, s.busOwner.get 0 n ≠ b → u.batch b = s.batch b) ∧ (∀ k, k ≠ 0x550 + n → u.src k = s.src k) ∧ u.dram = s.dram ∧ u.taps = s.taps) ∧
  (∀ (s : State) (n t at_ : Nat) (r : PeRun) (w : Waiter), (s.bus n).settling = [(r, at_)] → at_ ≤ t → r.use_ = 1 → s.levelsOf r = some w →
    ∃ v : State, exec (.scriptSettleEnd n t) s = .next (v.finishWait w OK 0 [] [] false) ∧ (v.bus n).settling = [] ∧
      (∀ k, k ≠ n → v.bus k = s.bus k) ∧ v.waits = s.waits.filter (fun q => q != w) ∧ { v with buses := s.buses, waits := s.waits } = s.at_ t)

/-- LEVELS with entries stores VOFF and VSTEP, starts its script for the first entry and waits; STACK_TEMPERATURE_READING holds the reading
and makes a retraining due where it lies more than 10 °C from that of the last training (R310, R368, R369; that VOFF and VSTEP are stored
at the dispatch is the model's reading, log 20). -/
def Obligations.LevelsAndStackTemperature : Prop :=
  (∀ (s : State) (h : Hdr) (voff : Int) (vstep n : Nat) (d : DRef) (y : Batch) (x : Script), s.admits h 0x0105 [(d, true)] = true →
    s.batch (cmdBatch h) = some y → s.script n = some x → s.ownsBuses (cmdBatch h) x = true → vstep ≠ 0 → d.len % 8 = 0 →
    let bs := s.dataIn h d
    let es := levelEntries bs
    (∀ i, i < d.len / 8 → zeros bs (8 * i + 6) 2 = true) → es ≠ [] →
    (∀ e ∈ es, e.1 ≤ 511 ∧ s.sliceOwner.get 0 (e.1 / 16) = cmdBatch h ∧ s.powered (3 + e.1 / 16) = true ∧ e.2.2 ≤ e.2.1 ∧
      x.codeFits 1 e.2.1 = true ∧ x.codeFits 2 e.2.2 = true) →
    ∃ u : State, exec (.levels h voff vstep n d) s = .next (State.settle h 0x0105 (Res.wait_ u (.levels n voff vstep es 0)) none) ∧
      u.batch (cmdBatch h) = some { y with voff := voff, vstep := vstep } ∧ (∀ k, k ≠ cmdBatch h → u.batch k = s.batch k) ∧
      (x.buses ((es.take 1).map Prod.fst) ≠ [] →
        u.onBus ⟨n, 1, cmdBatch h, x.settle, (es.take 1).map Prod.fst, [], (h.tap, h.seq), s.peOrd + 1⟩ = true) ∧
      u.peOrd = s.peOrd + 1 ∧ { u with batches := s.batches, buses := s.buses, peOrd := s.peOrd } = s.at_ h.t) ∧
  (∀ (s : State) (q t : Nat) (temp : Int),
    ∃ u : State, exec (.stackTemperatureReading q temp t) s = .next u ∧ (u.stack q).temp = temp ∧ ((u.stack q).hot85 = true ↔ 680 < temp) ∧
      ((u.stack q).retrainDue = true ↔ (s.stack q).retrainDue = true ∨ 80 < (temp - (s.stack q).trainTemp).natAbs) ∧
      (∀ k, k ≠ q → u.stack k = s.stack k) ∧ u.dram.mem = s.dram.mem ∧ { u with dram := s.dram, flt := s.flt, free := s.free } = s.at_ t)

/-! ## Batch commands: timing, programs, segments, sites -/

/-- TS_LOAD stores an image that passes R127 under the next VERSION and returns it; TS_INVALIDATE takes the copies out of the caches of a
batch that does not run, and of one that does at the first boundary 440 ns on, with a region below pace 1 maybe later (R126, R143, R306,
R530, R531; how much later is left open, log 45). -/
def Obligations.TimingSets : Prop :=
  (∀ (s : State) (h : Hdr) (d : DRef) (x : Batch) (p : Per), s.admits h 0x0100 [(d, true)] = true → s.batch (cmdBatch h) = some x → x.active = false →
    let img := (s.at_ h.t).dataIn h d
    let n := (s.slices (cmdBatch h)).length
    let set := fld img 0 1
    d.len = imageLen n → h.live = false → x.holdsItem 1 set = false → s.parkedSlice (cmdBatch h) = false → imageRsv img n = false →
    fld img 1 1 ≤ 63 → fld img 2 1 = n → (∀ r ∈ imageRecs img n, r.unusedOk = true) → assoc x.periods (fld img 1 1) = some p →
    recsLegal (imageRecs img n) p x.factors = true →
    let v := nextVersion (x.version set)
    ∃ u : State, ∃ y : Batch, exec (.tsLoad h d) s = .next (State.settle h 0x0100 (Res.ok u (le 4 v) []) none) ∧ u.batch (cmdBatch h) = some y ∧
      assoc y.sets set = some ⟨v, fld img 1 1, imageRecs img n, false⟩ ∧ (∀ k, k ≠ set → assoc y.sets k = assoc x.sets k) ∧
      { y with sets := x.sets } = x ∧ (∀ k, k ≠ cmdBatch h → u.batch k = s.batch k) ∧ { u with batches := s.batches } = s.at_ h.t) ∧
  (∀ (s : State) (h : Hdr) (set : Nat) (x : Batch), s.admits h 0x0101 [] = true → s.batch (cmdBatch h) = some x → x.version set ≠ 0 → x.active = false →
    ∃ u : State, ∃ y : Batch, exec (.tsInvalidate h set) s = .next (State.settle h 0x0101 (Res.ok u (le 8 noVnum) []) none) ∧
      u.batch (cmdBatch h) = some y ∧ (∀ q ∈ y.caches, ∀ e ∈ q.2, e.set ≠ set) ∧ { y with caches := x.caches } = x ∧
      (∀ k, k ≠ cmdBatch h → u.batch k = s.batch k) ∧ { u with batches := s.batches } = s.at_ h.t) ∧
  (∀ (s : State) (h : Hdr) (set : Nat) (x : Batch), s.admits h 0x0101 [] = true → s.batch (cmdBatch h) = some x → x.version set ≠ 0 → x.active = true →
    ∃ thr n : Nat, exec (.tsInvalidate h set) s = .next (State.settle h 0x0101 (Res.wait_ (({ s.at_ h.t with free := n }).setBatch (cmdBatch h)
        { x with staleNext := x.staleNext ++ [(set, thr)] }) (.vector set thr none)) none) ∧
      (s.at_ h.t).now + 440000000 ≤ thr ∧ (4096 ≤ s.changePace (cmdBatch h) → thr = (s.at_ h.t).now + 440000000 ∧ n = s.free))

/-- A period record is legal when 1 ≤ D ≤ 65,535, N < D, I ≥ 500,000 and I + N/D ≤ 2^40 − 1; PERIOD_LOAD of any other completes with
E_RANGE and leaves the table as it is (R36; where the entry is in use E_BUSY comes before, R290). -/
def Obligations.PeriodRecords : Prop :=
  (∀ p : Per, p.legal = true ↔ (1 ≤ p.d ∧ p.d ≤ 65535) ∧ p.n < p.d ∧ 500000 ≤ p.i ∧ p.i * p.d + p.n ≤ (2 ^ 40 - 1) * p.d) ∧
  (∀ p : Per, p.n < p.d → (p.i * p.d + p.n ≤ (2 ^ 40 - 1) * p.d ↔ p.i < 2 ^ 40 - 1 ∨ (p.i = 2 ^ 40 - 1 ∧ p.n = 0))) ∧
  (∀ (s : State) (h : Hdr) (i : Nat) (p : Per) (x : Batch), s.admits h 0x0116 [] = true → s.batch (cmdBatch h) = some x → p.legal = false →
    (i ≤ 63 → x.active = false → x.holdsItem 2 i = false →
      exec (.periodLoad h i 0 p) s = .next (State.settle h 0x0116 (Res.err (s.at_ h.t) eRange) none)) ∧
    (exec (.periodLoad h i 1 p) s = .next (State.settle h 0x0116 (Res.err (s.at_ h.t) eRange) none)) ∧
    (∀ flags, flags < 2 → ∃ st : Nat, exec (.periodLoad h i flags p) s = .next (State.settle h 0x0116 (Res.err (s.at_ h.t) st) none)))

/-- PERIOD_LOAD puts a legal record into the table; with OVERRIDE it is in force at once where the batch does not run, else at the first
boundary 440 ns on, where the command completes; with REMOVE the override goes the same way (R148 to R150, R321). -/
def Obligations.PeriodsAndOverride : Prop :=
  (∀ (s : State) (h : Hdr) (i : Nat) (p : Per) (x : Batch), s.admits h 0x0116 [] = true → s.batch (cmdBatch h) = some x → i ≤ 63 → x.active = false →
    x.holdsItem 2 i = false → p.legal = true → (∀ c ∈ (s.at_ h.t).periodChecks (cmdBatch h) x i p, c.1 = false) →
    ∃ u : State, ∃ y : Batch, exec (.periodLoad h i 0 p) s = .next (State.settle h 0x0116 (Res.ok u [] []) none) ∧ u.batch (cmdBatch h) = some y ∧
      assoc y.periods i = some p ∧ (∀ k, k ≠ i → assoc y.periods k = assoc x.periods k) ∧ { y with periods := x.periods } = x ∧
      (∀ k, k ≠ cmdBatch h → u.batch k = s.batch k) ∧ { u with batches := s.batches } = s.at_ h.t) ∧
  (∀ (s : State) (h : Hdr) (i : Nat) (p : Per) (x : Batch), s.admits h 0x0116 [] = true → s.batch (cmdBatch h) = some x → i ≤ 63 ∨ i = 255 →
    (∀ c ∈ (s.at_ h.t).overrideChecks (cmdBatch h) x ⟨p, i⟩, c.1 = false) →
    (x.active = false → exec (.periodLoad h i 1 p) s = .next (State.settle h 0x0116 (Res.ok ((s.at_ h.t).setBatch (cmdBatch h)
      { x with ovr := some ⟨p, i⟩, vo := none }) (le 8 noVnum) []) none)) ∧
    (x.active = true → ∃ thr n : Nat, exec (.periodLoad h i 1 p) s = .next (State.settle h 0x0116 (Res.wait_ (({ s.at_ h.t with free := n }).setBatch
      (cmdBatch h) { x with ovrNext := x.ovrNext ++ [(thr, some (⟨p, i⟩ : Ovr))] }) (.override thr none)) none) ∧ (s.at_ h.t).now + 440000000 ≤ thr ∧
      (4096 ≤ s.changePace (cmdBatch h) → thr = (s.at_ h.t).now + 440000000 ∧ n = s.free))) ∧
  (∀ (s : State) (h : Hdr) (i : Nat) (x : Batch), s.admits h 0x0116 [] = true → s.batch (cmdBatch h) = some x → i ≤ 63 ∨ i = 255 →
    (x.active = false → exec (.periodLoad h i 3 ⟨0, 0, 0⟩) s = .next (State.settle h 0x0116 (Res.ok ((s.at_ h.t).setBatch (cmdBatch h)
      { x with ovr := none, vo := none }) (le 8 noVnum) []) none)) ∧
    (x.active = true → ∃ thr n : Nat, exec (.periodLoad h i 3 ⟨0, 0, 0⟩) s = .next (State.settle h 0x0116 (Res.wait_
      (({ s.at_ h.t with free := n }).setBatch (cmdBatch h) { x with ovrNext := x.ovrNext ++ [(thr, none)] }) (.override thr none)) none) ∧
      (s.at_ h.t).now + 440000000 ≤ thr ∧ (4096 ≤ s.changePace (cmdBatch h) → thr = (s.at_ h.t).now + 440000000 ∧ n = s.free)))

/-- PAT_LOAD whose checks all pass stores the decoded program and keeps the code maps that it does not name, and the batch is LOADED;
SEG_MAP stores the descriptor, and copies a loop-store segment's bytes; SITE_DEFINE stores the site map and the limits and takes the site
masks away. -/
def Obligations.ProgramsSegmentsSites : Prop :=
  (∀ (s : State) (h : Hdr) (d e : DRef) (x : Batch), s.admits h 0x0102 [(d, true), (e, true)] = true → s.batch (cmdBatch h) = some x →
    d.len % 8 = 0 → e.len % 40 = 0 →
    let ws := progWords ((s.at_ h.t).dataIn h d)
    let maps := pieces 40 (e.len / 40) ((s.at_ h.t).dataIn h e)
    (∀ c ∈ (s.at_ h.t).progChecks (cmdBatch h) x ws maps, c.1 = false) →
    ∃ u : State, ∃ y : Batch, exec (.patLoad h d e) s = .next (State.settle h 0x0102 (Res.ok u [] []) none) ∧ u.batch (cmdBatch h) = some y ∧
      y.state = 1 ∧ y.prog.length = ws.length ∧ (∀ i, i < ws.length → y.prog[i]? = PInstr.ofWord (ws.getD i 0)) ∧
      (∀ k, (∀ m ∈ maps, cmapKey (fld m 0 1) (fld m 1 1) ≠ k) → Tab.get [] y.cmaps k = Tab.get [] x.cmaps k) ∧
      { y with state := x.state, prog := x.prog, cmaps := x.cmaps } = x ∧
      (∀ k, k ≠ cmdBatch h → u.batch k = s.batch k) ∧ { u with batches := s.batches } = s.at_ h.t) ∧
  (∀ (s : State) (h : Hdr) (p : SegMapP) (x : Batch), s.admits h 0x0103 [(p.data, true)] = true → s.batch (cmdBatch h) = some x →
    let rs := (pieces 24 (p.data.len / 24) ((s.at_ h.t).dataIn h p.data)).map SegRec.ofBytes
    p.mode < 64 → x.active = false → x.holdsItem 3 p.segid = false → (p.mode.testBit 0 = true → s.parkedSlice (cmdBatch h) = false) →
    p.data.len = 24 * (s.slices (cmdBatch h)).length → (∀ sl ∈ s.slices (cmdBatch h), ∃ r ∈ rs, r.sl = sl) →
    (∀ c ∈ (s.at_ h.t).segChecks (cmdBatch h) x p rs, c.1 = false) →
    (p.mode.testBit 0 = true → (∀ q, (s.stack q).frozen = false) ∧ ∀ r ∈ rs,
      s.inRegion (cmdBatch h) (stackAddr r.sl r.src) (segOf p rs).bytes = true ∧ s.cleanBlock (stackAddr r.sl r.src) (segOf p rs).bytes = true) →
    ∃ u : State, ∃ y : Batch, exec (.segMap h p) s = .next (State.settle h 0x0103 (Res.ok u [] []) none) ∧ u.batch (cmdBatch h) = some y ∧
      assoc y.segs p.segid = some (segOf p rs) ∧ (∀ k, k ≠ p.segid → assoc y.segs k = assoc x.segs k) ∧
      (p.mode.testBit 0 = false → { y with segs := x.segs } = x ∧ { u with batches := s.batches } = s.at_ h.t) ∧
      (∀ a r, p.mode.testBit 0 = true → rs = [r] → r.addr ≤ a → a < r.addr + (segOf p rs).bytes →
        y.loops.get 0 (16384 * r.sl + a) = Memory.read s.dram.mem (stackAddr r.sl r.src + (a - r.addr))) ∧
      (∀ k, k ≠ cmdBatch h → u.batch k = s.batch k) ∧ u.dram = s.dram ∧ u.taps = s.taps) ∧
  (∀ (s : State) (h : Hdr) (p : SiteDefP) (x : Batch), s.admits h 0x0104 [(p.data, true)] = true → s.batch (cmdBatch h) = some x →
    let bs := (s.at_ h.t).dataIn h p.data
    let k := SiteBlock.ofBytes bs
    8 ≤ p.data.len → p.data.len = siteLen (fld bs 0 2) (fld bs 2 2) → (∀ c ∈ (s.at_ h.t).siteChecks (cmdBatch h) x p k, c.1 = false) →
    ∃ u : State, ∃ y : Batch, exec (.siteDefine h p) s = .next (State.settle h 0x0104 (Res.ok u [] []) none) ∧ u.batch (cmdBatch h) = some y ∧
      y.site.defined = true ∧ y.site.siteOf = k.map ∧ y.site.blimit = p.blimit ∧ y.site.fmcap = p.fmcap ∧ y.site.matchDelay = p.matchDelay ∧
      y.site.tpe = p.tpe ∧ y.masks = [] ∧
      (∀ i, i < 512 → i ∈ k.map → (y.site.sites.get Site.zero i).slimit = ((k.ents.find? (fun e => e.1 == i)).getD (i, 0, 0, false)).2.2.1 ∧
        (y.site.sites.get Site.zero i).fails = (x.site.sites.get Site.zero i).fails) ∧
      { y with site := x.site, masks := x.masks } = x ∧ (∀ k, k ≠ cmdBatch h → u.batch k = s.batch k) ∧ { u with batches := s.batches } = s.at_ h.t)

/-! ## Batch commands: running and reading -/

/-- START whose checks all pass arms the batch at T with its counts, caches, residue, flags and site counts cleared, its channels low and
off, and an armed epoch disarmed; BATCH_RUN_BEGIN then runs it at T (R44, R62, R101, R108, R109, R142, R162, R169, R311, R390). -/
def Obligations.StartArmsAndRuns : Prop :=
  (∀ (s : State) (h : Hdr) (p : StartP) (x : Batch), s.admits h 0x0106 [] = true → s.batch (cmdBatch h) = some x →
    (∀ c ∈ (s.at_ h.t).startChecks (cmdBatch h) x p, c.1 = false) →
    ∃ u : State, ∃ y : Batch, exec (.start h p) s = .next (State.settle h 0x0106 (Res.acc u) none) ∧ u.batch (cmdBatch h) = some y ∧
      y.state = 2 ∧ y.startT = p.t.s * second + p.t.f ∧ y.startKey = some (h.tap, h.seq) ∧ y.counts = Counts.zero ∧ y.caches = [] ∧ y.reserr = 0 ∧
      y.seq.flags = 0 ∧ y.seq.matchOk = false ∧ y.seq.matchTo = false ∧ y.seq.pc = 0 ∧ y.seq.per = 0 ∧ y.seq.begun = 0 ∧
      y.seq.hAcc.fs = p.t.s * second + p.t.f ∧ y.seq.hAcc.n = 0 ∧ y.causes = [] ∧ y.held = [] ∧
      (∀ i, (y.site.sites.get Site.zero i).fails = 0 ∧ (y.site.sites.get Site.zero i).off = none) ∧
      y.prog = x.prog ∧ y.segs = x.segs ∧ y.sets = x.sets ∧ y.periods = x.periods ∧ y.ovr = x.ovr ∧ u.tb = { (s.at_ h.t).tb with epochArmed := none } ∧
      (∀ c ∈ s.cells (cmdBatch h), u.drvPins.get false c = false ∧ u.denPins.get false c = false) ∧
      (∀ c, c ∉ s.cells (cmdBatch h) → u.drvPins.get false c = s.drvPins.get false c ∧ u.denPins.get false c = s.denPins.get false c) ∧
      (∀ k, k ≠ cmdBatch h → u.batch k = s.batch k) ∧
      { u with batches := s.batches, tb := s.tb, drvPins := s.drvPins, denPins := s.denPins, syncs := s.syncs } = s) ∧
  (∀ (s : State) (b : Nat) (x : Batch), s.batch b = some x → x.state = 2 → x.stopAt ≠ some 0 →
    exec (.batchRunBegin b) s = .next ((s.at_ x.startT).setBatch b { x with state := 3 }))

/-- STOP of an ARMED or RUNNING batch adds a stop threshold 440 ns after its dispatch and waits; BATCH_STOP, once every vector before the
smallest boundary has begun, stops the batch there with its reason and cause bit, FAULTED only for a fault of its own, withdraws what lies
behind the boundary (only edges that set a channel's DRV low are queued then, R138), and ends the waiting START (R110 to R112, R119, R311,
R312). -/
def Obligations.StopAtBoundary : Prop :=
  (∀ (s : State) (h : Hdr) (x : Batch), s.admits h 0x0107 [] = true → s.batch (cmdBatch h) = some x → x.active = true →
    exec (.stop h) s = .next (State.settle h 0x0107 (Res.wait_ ((s.at_ h.t).setBatch (cmdBatch h)
      ({ x with thr := x.thr ++ [(2, (s.at_ h.t).now + 440000000)] } : Batch).tied) .stop) none)) ∧
  (∀ (s : State) (b t r v : Nat) (x : Batch), s.batch b = some x → x.active = true → x.causes = [(r, v)] → x.thr = [] → v ≤ x.seq.begun →
    ∃ u : State, ∃ y : Batch, exec (.batchStop b t) s = .next u ∧ u.batch b = some y ∧ y.state = (if 3 < r ∧ s.ownFault b = true then 5 else 4) ∧
      y.reason = r ∧ y.stopCause = 2 ^ r ∧ y.stopV = v ∧ y.causes = [] ∧ y.startKey = none ∧ (∀ f ∈ y.seq.flight, f.vnum < v) ∧
      (∀ e ∈ y.edges, (e ∈ x.edges ∧ e.vnum < v) ∨ (e.line = 0 ∧ e.act = 0)) ∧ (∀ w ∈ u.waits, w.b = b → w.what ≠ .stop) ∧
      (∀ k, x.startKey = some k → ∀ a ∈ (u.tap k.1).asyncs, a.seq ≠ k.2) ∧ (∀ k, k ≠ b → u.batch k = s.batch k) ∧ u.pwr = s.pwr) ∧
  (∀ (s : State) (b t : Nat) (x : Batch), s.batch b = some x → x.causes = [] → exec (.batchStop b t) s = .next s)

/-- STATUS returns state, reason, flags, VNUM, epoch and fault count and changes nothing; a SNAPSHOT of a stopped batch returns the
selected sections, one of a running batch waits for its boundary; FAIL_READ hands out the oldest held records, or purges them, and keeps
the others, and waits while a SNAPSHOT of the batch captures (R167, R168, R171, R313 to R315). -/
def Obligations.StatusSnapshotFailRead : Prop :=
  (∀ (s : State) (h : Hdr) (d : DRef) (x : Batch), s.admits h 0x0108 [(d, false)] = true → s.batch (cmdBatch h) = some x → d.len = 0 →
    exec (.status h d) s = .next (State.settle h 0x0108 (Res.ok (s.at_ h.t)
      (le 1 x.state ++ le 1 x.reason ++ le 1 x.stopCause ++ le 1 x.ep.outcome ++ le 2 x.seq.flags ++ le 2 0 ++
        le 8 (if x.state = 4 ∨ x.state = 5 then x.stopV else x.seq.begun) ++ le 4 x.ep.cur ++ le 1 x.ep.lastGroup ++ le 3 0 ++ le 4 x.ep.lastEpoch ++
        le 2 (s.nfault (cmdBatch h)) ++ le 2 0 ++ le 8 x.ep.applied ++ le 8 x.ep.lateDev) []) (some d))) ∧
  (∀ (s : State) (h : Hdr) (d : DRef) (x : Batch), s.admits h 0x0108 [(d, false)] = true → s.batch (cmdBatch h) = some x → d.len ≠ 0 →
    (statusData x).length ≤ d.len →
    exec (.status h d) s = .next (State.settle h 0x0108 (Res.ok (s.at_ h.t) ((s.at_ h.t).statusResult (cmdBatch h) x) (statusData x)) (some d))) ∧
  (∀ (s : State) (h : Hdr) (p : SnapP) (x : Batch), s.admits h 0x0109 [(p.data, false)] = true → s.batch (cmdBatch h) = some x → p.when_ = 0 →
    x.active = false → (∀ k ∈ ones p.cmask 256, (s.ctr k).owner = cmdBatch h) → (s.at_ h.t).snapLen (cmdBatch h) x p ≤ p.data.len →
    x.judgedTo x.stopV = true →
    exec (.snapshot h p) s = .next (State.settle h 0x0109 (Res.ok (s.at_ h.t) (le 8 x.stopV ++ timeBytes x.seq.acc.fs)
      ((s.at_ h.t).snapBytes (cmdBatch h) x p ((s.at_ h.t).freeze (cmdBatch h) x p x.seq.acc.fs x.seq.begunSets))) (some p.data))) ∧
  (∀ (s : State) (h : Hdr) (p : SnapP) (x : Batch), s.admits h 0x0109 [(p.data, false)] = true → s.batch (cmdBatch h) = some x → p.when_ = 1 →
    x.active = true → (∀ k ∈ ones p.cmask 256, (s.ctr k).owner = cmdBatch h) → (s.at_ h.t).snapLen (cmdBatch h) x p ≤ p.data.len →
    x.snapLate p (s.at_ h.t).now = false →
    exec (.snapshot h p) s = .next (State.settle h 0x0109 (Res.wait_ (s.at_ h.t) (.snapshot p none (some p.vnum) none)) (some p.data))) ∧
  (∀ (s : State) (h : Hdr) (n : Nat) (purge : Bool) (d : DRef) (x : Batch), s.admits h 0x010A [(d, false)] = true → s.batch (cmdBatch h) = some x →
    n ≠ 0 → (if purge then d.len = 0 else 32 * n ≤ d.len) → (s.at_ h.t).capturing (cmdBatch h) = true →
    exec (.failRead h n purge d) s = .next (State.settle h 0x010A (Res.wait_ (s.at_ h.t) (.failRead n purge d)) (some d))) ∧
  (∀ (s : State) (h : Hdr) (n : Nat) (d : DRef) (x : Batch), s.admits h 0x010A [(d, false)] = true → s.batch (cmdBatch h) = some x → n ≠ 0 →
    32 * n ≤ d.len → (s.at_ h.t).capturing (cmdBatch h) = false →
    (∀ r ∈ x.held.take n, s.inRegion (cmdBatch h) r.2 32 = true ∧ s.cleanBlock r.2 32 = true) →
    ∃ u : State, ∃ y : Batch, exec (.failRead h n false d) s = .next (State.settle h 0x010A (Res.ok u
        (le 4 (min n x.held.length) ++ le 4 0 ++ le 8 (x.held.length - n)) ((x.held.take n).flatMap ((s.at_ h.t).heldBytes (cmdBatch h)))) (some d)) ∧
      u.batch (cmdBatch h) = some y ∧ y.held = x.held.drop n ∧ { y with held := x.held, counts := x.counts, chCounts := x.chCounts } = x ∧
      { u with batches := s.batches } = s.at_ h.t) ∧
  (∀ (s : State) (h : Hdr) (n : Nat) (d : DRef) (x : Batch), s.admits h 0x010A [(d, false)] = true → s.batch (cmdBatch h) = some x → n ≠ 0 →
    d.len = 0 → (s.at_ h.t).capturing (cmdBatch h) = false →
    ∃ u : State, ∃ y : Batch, exec (.failRead h n true d) s = .next (State.settle h 0x010A (Res.ok u
        (le 4 (min n x.held.length) ++ le 4 0 ++ le 8 (x.held.length - n)) []) (some d)) ∧
      u.batch (cmdBatch h) = some y ∧ y.held = x.held.drop n ∧ { y with held := x.held, counts := x.counts, chCounts := x.chCounts } = x ∧
      { u with batches := s.batches } = s.at_ h.t)

/-- ACQ_CONFIG gives an engine at rest its record; ACQ_ARM clears what an earlier arming left and arms it, or disarms it; MEAS_READ hands
out records or results, oldest first, and frees their places (R188, R189, R194, R196, R202, R207, R316, R317). -/
def Obligations.AcquisitionCommands : Prop :=
  (∀ (s : State) (h : Hdr) (c : AcqCfg), s.admits h 0x010B [] = true → c.acq < 12 → s.acqOwner.get 0 c.acq = cmdBatch h → (s.acq c.acq).armed = false →
    (∀ n, (s.acq n).ls = none) → acqRsv c = false → acqBad c = false →
    c.srcA < 512 → s.sliceOwner.get 0 (c.srcA / 16) = cmdBatch h →
    (c.srcB = 0xFFFF ∨ (c.srcB < 512 ∧ s.sliceOwner.get 0 (c.srcB / 16) = cmdBatch h)) → c.pre + c.post ≤ 100000000000000000 → 100000000 ≤ c.recint →
    (c.measmask.testBit 8 = true → c.srcB ≠ 0xFFFF) → c.ringaddr % 64 = 0 →
    s.inStack (cmdBatch h) (c.acq / 3) c.ringaddr (c.ringslots * slotBytes c) = true →
    ∃ u : State, exec (.acqConfig h c) s = .next (State.settle h 0x010B (Res.ok u [] []) none) ∧
      u.acq c.acq = { s.acq c.acq with
        cfg := some c, box := if (s.acq c.acq).cfg.all (fun o => o.avgk == c.avgk) then (s.acq c.acq).box else [] } ∧ (∀ n, n ≠ c.acq → u.acq n = s.acq n) ∧ { u with acqs := s.acqs } = s.at_ h.t) ∧
  (∀ (s : State) (h : Hdr) (n nrec : Nat) (c : AcqCfg), s.admits h 0x010C [] = true → n < 12 → s.acqOwner.get 0 n = cmdBatch h → (s.acq n).cfg = some c →
    s.acqPowered n = true → (s.acq n).armed = false →
    ∃ u : State, exec (.acqArm h ⟨n, false, false, 0, 0, nrec, 0, 0⟩) s = .next (State.settle h 0x010C (Res.ok u [] []) none) ∧
      u.acq n = { Acq.zero with cfg := some c, armed := true, nrec := nrec } ∧ (∀ k, k ≠ n → u.acq k = s.acq k) ∧ { u with acqs := s.acqs } = s.at_ h.t) ∧
  (∀ (s : State) (h : Hdr) (n : Nat), s.admits h 0x010C [] = true → n < 12 → s.acqOwner.get 0 n = cmdBatch h → (∀ k, (s.acq k).ls = none) →
    ∃ u : State, exec (.acqArm h ⟨n, true, false, 0, 0, 0, 0, 0⟩) s = .next (State.settle h 0x010C (Res.ok u [] []) none) ∧
      (u.acq n).armed = false ∧ (u.acq n).cfg = (s.acq n).cfg ∧ (u.acq n).recs = (s.acq n).recs ∧ (u.acq n).res = (s.acq n).res ∧
      (∀ k, k ≠ n → u.acq k = s.acq k) ∧ u.dram = s.dram ∧ u.taps = s.taps) ∧
  (∀ (s : State) (h : Hdr) (n k : Nat) (d : DRef) (c : AcqCfg), s.admits h 0x010D [(d, false)] = true → n < 12 → s.acqOwner.get 0 n = cmdBatch h →
    (s.acq n).cfg = some c → k ≠ 0 → k * slotBytes c ≤ d.len →
    (∀ r ∈ (s.acq n).recs.take k, s.inRegion (cmdBatch h) r.addr r.len = true ∧ s.cleanBlock r.addr r.len = true) →
    ∃ u : State, exec (.measRead h n 0 k d) s = .next (State.settle h 0x010D (Res.ok u []
        (((s.acq n).recs.take k).flatMap (fun r => s.peek r.addr r.len))) (some d)) ∧
      u.acq n = { s.acq n with recs := (s.acq n).recs.drop k } ∧ (∀ j, j ≠ n → u.acq j = s.acq j) ∧ { u with acqs := s.acqs } = s.at_ h.t) ∧
  (∀ (s : State) (h : Hdr) (n k : Nat) (d : DRef), s.admits h 0x010D [(d, false)] = true → n < 12 → s.acqOwner.get 0 n = cmdBatch h → k ≠ 0 → k * 32 ≤ d.len →
    ∃ u : State, exec (.measRead h n 1 k d) s = .next (State.settle h 0x010D (Res.ok u []
        (((s.acq n).res.take k).flatMap AvgRes.bytes)) (some d)) ∧
      u.acq n = { s.acq n with res := (s.acq n).res.drop k } ∧ (∀ j, j ≠ n → u.acq j = s.acq j) ∧ { u with acqs := s.acqs } = s.at_ h.t)

/-- FLOW_LOAD with LOAD puts its table in force and writes nothing but the control block of its ring, with START begins a run over every
defined site, with ABORT marks it; STREAM_OPEN opens a stream with counts 0 and writes its control block; COUNTER_SELECT gives a counter
its source from 0 and returns what it held (R80, R85, R318, R326, R328, R487, R488, R495).

A flow's events complete: its start pin starts it, a selected edge is posted, a timeout disarms the engines of its step, CONSUMED moves, a frame
is sent and moves it, its destination's address is asked for and kept (R320, R328, R329, R336, R337, R411). -/
def Obligations.FlowsStreamsCounters : Prop :=
  (∀ (s : State) (h : Hdr) (d : DRef) (x : Batch), s.admits h 0x010E [(d, true)] = true → s.batch (cmdBatch h) = some x →
    let bs := (s.at_ h.t).dataIn h d
    fld bs 0 1 = 0 → 64 + 64 * fld bs 2 2 ≤ d.len → (∀ c ∈ (s.at_ h.t).flowChecks (cmdBatch h) x bs, c.1 = false) →
    ∃ u : State, ∃ y : Batch, exec (.flowLoad h d) s = .next (State.settle h 0x010E (Res.ok u [] []) none) ∧ u.batch (cmdBatch h) = some y ∧
      y.flow = flowOf bs x.flow.runNo ∧ y.flow.loaded = true ∧ y.flow.steps.length = fld bs 2 2 ∧ { y with flow := x.flow, qs := x.qs } = x ∧
      (∀ a, let base := (s.at_ h.t).ringBase (cmdBatch h) y.flow
        (a < base ∨ base + 64 ≤ a) → Memory.read u.dram.mem a = Memory.read s.dram.mem a) ∧
      (∀ k, k ≠ cmdBatch h → u.batch k = s.batch k) ∧ u.taps = s.taps) ∧
  (∀ (s : State) (h : Hdr) (d : DRef) (x : Batch), s.admits h 0x010E [(d, true)] = true → s.batch (cmdBatch h) = some x →
    let bs := (s.at_ h.t).dataIn h d
    fld bs 0 1 = 1 → 64 ≤ d.len → (∀ c ∈ (s.at_ h.t).flowChecks (cmdBatch h) x bs, c.1 = false) →
    ∃ u : State, ∃ y : Batch, exec (.flowLoad h d) s = .next (State.settle h 0x010E (Res.ok u [] []) none) ∧ u.batch (cmdBatch h) = some y ∧
      y.flow.active = true ∧ y.flow.step = 0 ∧ y.flow.try_ = 1 ∧ y.flow.a = x.site.ids ∧ y.flow.bins = [] ∧ y.flow.steps = x.flow.steps ∧
      { y with flow := x.flow, qs := x.qs } = x ∧ (∀ k, k ≠ cmdBatch h → u.batch k = s.batch k) ∧ u.dram = s.dram ∧ u.taps = s.taps) ∧
  (∀ (s : State) (h : Hdr) (d : DRef) (x : Batch), s.admits h 0x010E [(d, true)] = true → s.batch (cmdBatch h) = some x →
    let bs := (s.at_ h.t).dataIn h d
    fld bs 0 1 = 2 → 64 ≤ d.len → (∀ c ∈ (s.at_ h.t).flowChecks (cmdBatch h) x bs, c.1 = false) → x.flow.phase ≠ 0 → x.flow.phase ≠ 4 →
    exec (.flowLoad h d) s = .next (State.settle h 0x010E (Res.ok ((s.at_ h.t).setBatch (cmdBatch h)
      { x with flow := { x.flow with abort := true } }) [] []) none)) ∧
  (∀ (s : State) (h : Hdr) (segid tsnum cb : Nat) (d : DRef) (x : Batch) (g : Seg), s.admits h 0x010F [(d, true)] = true →
    s.batch (cmdBatch h) = some x → x.active = false → assoc x.segs segid = some g → g.sparge = true →
    let n := (s.slices (cmdBatch h)).length
    let bs := (s.at_ h.t).dataIn h d
    d.len = 8 * g.m * n → cb % 64 = 0 → s.inStack (cmdBatch h) (s.lowSlice (cmdBatch h) / 8) cb 64 = true →
    State.keepBad bs = false → badNibbles bs = false → (∀ q, (s.stack q).frozen = false) →
    let at_ := stackAddr (s.lowSlice (cmdBatch h)) cb
    ∃ u : State, ∃ y : Batch, exec (.streamOpen h segid tsnum cb d) s = .next (State.settle h 0x010F (Res.ok u (le 8 at_) []) none) ∧
      u.batch (cmdBatch h) = some y ∧
      assoc y.streams segid = some ⟨cb, (s.slices (cmdBatch h)).zip (pieces (8 * g.m) n bs), tsnum, 0, 0, 0, 0, false, false, false, 0, false, []⟩ ∧
      { y with streams := x.streams } = x ∧ u.peek at_ 64 = List.replicate 64 0 ∧
      (∀ a, (a < at_ ∨ at_ + 64 ≤ a) → Memory.read u.dram.mem a = Memory.read s.dram.mem a) ∧
      (∀ k, k ≠ cmdBatch h → u.batch k = s.batch k) ∧ { u with batches := s.batches, dram := s.dram, flt := s.flt, free := s.free } = s.at_ h.t) ∧
  (∀ (s : State) (h : Hdr) (c kind source scope : Nat) (k : SrcClass), s.admits h 0x0110 [] = true → (s.ctr c).owner = cmdBatch h → kind ≤ 2 →
    srcClass source = some k → (kind = 0 → scope = 0) → (cmdBatch h ≠ 0 → k ≠ .d ∧ k ≠ .l) → k.allows (cmdBatch h != 0) kind = true →
    s.ownsScope (cmdBatch h) k kind scope = true →
    ∃ u : State, exec (.counterSelect h c kind source scope) s = .next (State.settle h 0x0110 (Res.ok u
        (le 8 (s.ctrValue (s.ctr c) + if (s.ctr c).ovf then 9223372036854775808 else 0)) []) none) ∧
      u.ctr c = ⟨0, false, source, kind, scope, s.ctrValue (s.ctr c), (s.ctr c).ovf, (s.ctr c).owner⟩ ∧ (∀ j, j ≠ c → u.ctr j = s.ctr j) ∧
      { u with ctrs := s.ctrs } = s.at_ h.t) ∧
  (∀ (s : State) (pin t : Nat) (x : Batch), let b := s.trigInOwner.get 0 pin
    s.batch b = some x → x.flow.loaded = true → x.flow.pinEn = true → x.flow.pin = pin → x.flow.active = false →
    ∃ u : State, exec (.flowPinStart pin t) s = .next u ∧ (u.flow b).active = true ∧ (u.flow b).step = 0) ∧
  (∀ (s : State) (pin t : Nat) (fall : Bool) (x : Batch), let b := s.trigInOwner.get 0 pin
    s.batch b = some x → x.flow.loaded = true → (s.trigIn.get TrigIn.zero pin).post = true → (s.trigIn.get TrigIn.zero pin).fall = fall →
    s.queueFull b 0 = false →
    ∃ u : State, exec (.trigInEdge pin fall t) s = .next u ∧ u.sched.ready.length = s.sched.ready.length + 1) ∧
  (∀ (s : State) (b t : Nat), (s.flow b).phase = 2 → (s.flow b).timeoutAt ≤ t →
    ∃ u : State, exec (.acquireTimeout b t) s = .next u ∧ (∀ n ∈ (s.flow b).acqs, (u.acq n).armed = false)) ∧
  (∀ (s : State) (b v : Nat) (x : Batch), s.batch b = some x → x.flow.loaded = true → x.flow.dlnet = false → x.flow.consumed ≤ v → v ≤ x.flow.produced →
    ∃ u : State, exec (.datalogConsumedWrite b v) s = .next u ∧ (u.flow b).consumed = v) ∧
  (∀ (s : State) (b t : Nat) (x : Batch), let f := x.flow
    let n := min 64 f.waitingRecords
    s.batch b = some x → s.canFrame f = true → s.framing b = true → n ≠ 0 → (n = 64 ∨ f.oldest + 10000000000 ≤ (s.at_ t).todNow) →
    (s.stack (aStack (s.ringBase b f + 64))).frozen = false →
    ∃ u : State, exec (.datalogFrameSend b t) s = .next u ∧ (u.flow b).consumed = f.consumed + n) ∧
  (∀ (s : State) (b t : Nat) (x : Batch), s.batch b = some x → x.flow.resolving = true →
    (∃ u : State, exec (.addressResolutionRetry b t) s = .next u ∧ u = (s.at_ t).askAddress b) ∧
    (∃ u : State, exec (.addressResolutionReply b) s = .next u ∧ (u.flow b).resolved = true))

/-! ## Epoch commits -/

/-- STAGE puts an item that passes its checks into the buffer, with FINAL marks the unit staged and is accepted, with DISCARD empties the
buffer; COMMIT fixes T, the deadline and T_c and is accepted (R248 to R251, R319).

The verdicts: at the deadline a device fixes its own; when the verdicts of every device of DMASK are held and name no late unit the commit
is decided and its units apply from T on, else it aborts as LATE; a device without a verdict at T_c aborts as LOST, an ABORT before T as
PWRFAIL; at T a unit that does not run applies its items and takes the epoch (R251 to R254, R257). -/
def Obligations.EpochCommit : Prop :=
  ((∀ (s : State) (h : Hdr) (p : StageP) (x : Batch), s.admits h 0x0111 [(p.data, true)] = true → s.batch (cmdBatch h) = some x → p.discard = false →
     p.fin = false → stageBad p = false → x.otherUnit p = false → x.ep.staged = false →
     let bs := (s.at_ h.t).dataIn h p.data
     let i := itemIndex p.kind p.index bs
     (p.kind = 1 → p.data.len = imageLen (s.slices (cmdBatch h)).length) → (x.stageItem p bs).ep.items.length ≤ 256 →
     (∀ c ∈ (s.at_ h.t).itemChecks (cmdBatch h) x p bs, c.1 = false) →
     ∃ u : State, ∃ y : Batch, exec (.stage h p) s = .next (State.settle h 0x0111 (Res.ok u (le 2 y.ep.items.length) []) none) ∧
       u.batch (cmdBatch h) = some y ∧
       y.ep.items = x.ep.items.filter (fun j => !(j.kind == p.kind && j.index == i)) ++ [⟨p.kind, i, bs⟩] ∧ y.ep.group = p.group ∧ y.ep.epoch = p.epoch ∧
       { y with ep := { y.ep with items := x.ep.items, group := x.ep.group, epoch := x.ep.epoch } } = x ∧
       (∀ k, k ≠ cmdBatch h → u.batch k = s.batch k) ∧ { u with batches := s.batches } = s.at_ h.t) ∧
   (∀ (s : State) (h : Hdr) (p : StageP) (x : Batch), s.admits h 0x0111 [(p.data, true)] = true → s.batch (cmdBatch h) = some x → p.discard = false →
     p.fin = true → stageBad p = false → x.otherUnit p = false → x.ep.staged = false → (s.tap h.tap).asyncs.length < 16 →
     (∀ c ∈ (s.at_ h.t).finalChecks (cmdBatch h) x, c.1 = false) →
     ∃ u : State, ∃ y : Batch, exec (.stage h p) s = .next (State.settle h 0x0111 (Res.acc u) none) ∧ u.batch (cmdBatch h) = some y ∧
       y.ep.staged = true ∧ y.ep.fin = some (h.tap, h.seq) ∧ y.ep.finAt = (s.at_ h.t).now ∧ y.ep.items = x.ep.items ∧ y.ep.cur = x.ep.cur ∧
       { y with ep := x.ep } = x ∧ (∀ k, k ≠ cmdBatch h → u.batch k = s.batch k) ∧ { u with batches := s.batches } = s.at_ h.t) ∧
   (∀ (s : State) (h : Hdr) (p : StageP) (x : Batch), s.admits h 0x0111 [(p.data, true)] = true → s.batch (cmdBatch h) = some x → p.discard = true →
     stageBad p = false → x.otherUnit p = false → x.ep.fin = none →
     exec (.stage h p) s = .next (State.settle h 0x0111 (Res.ok ((s.at_ h.t).setBatch (cmdBatch h)
       { x with ep := { x.ep with items := [], staged := false, fin := none } }) (le 2 0) []) none)) ∧
   (∀ (s : State) (h : Hdr) (p : CommitP) (x : Batch), s.admits h 0x0112 [] = true → s.batch (cmdBatch h) = some x →
     (∀ c ∈ (s.at_ h.t).commitChecks (cmdBatch h) x p, c.1 = false) → s.otherDevs p.dmask = [] →
     let t := p.t.s * second + p.t.f
     ∃ u : State, exec (.commit h p) s = .next (State.settle h 0x0112 (Res.acc u) none) ∧
       u.commits = s.commits ++ [⟨p.group, p.epoch, p.bmask, p.dmask, t, t - lCommit s.commitPace (hopsIn p.dmask),
         t - 100000000 - 100000000 * hopsIn p.dmask, some (h.tap, h.seq), cmdBatch h, [], false, 0⟩] ∧ { u with commits := s.commits } = s.at_ h.t)) ∧
  ((∀ (s : State) (g t : Nat) (c : CommitS), s.commits = [c] → c.group = g → c.state = 0 → c.fixed = false → c.deadline ≤ t →
     ones c.dmask 64 = [s.cdev] → c.verdicts = [] → (∀ b ∈ c.units, s.inTime c b = true) →
     ∃ u : State, ∃ d : CommitS, exec (.stagingDeadline g t) s = .next u ∧ u.commits = [d] ∧ d.state = 1 ∧ d.fixed = true ∧ d.t = c.t ∧
       (∀ b ∈ c.units, ∀ x, s.batch b = some x → ∃ y, u.batch b = some y ∧ y.ep.thr = some c.t ∧ y.ep.items = x.ep.items) ∧
       (∀ b, b ∉ c.units → u.batch b = s.batch b) ∧ { u with commits := s.commits, batches := s.batches } = s.at_ t) ∧
   (∀ (s : State) (g t b0 : Nat) (c : CommitS) (x : Batch), s.commits = [c] → c.group = g → c.state = 0 → c.fixed = false → c.deadline ≤ t →
     ones c.dmask 64 = [s.cdev] → c.verdicts = [] → b0 ∈ c.units → s.inTime c b0 = false → s.batch b0 = some x →
     ∃ u : State, ∃ y : Batch, exec (.stagingDeadline g t) s = .next u ∧ u.commits = [] ∧ u.batch b0 = some y ∧ y.ep.outcome = 2 ∧
       y.ep.lastGroup = c.group ∧ y.ep.lastEpoch = c.epoch ∧ y.ep.cur = x.ep.cur ∧ y.ep.items = x.ep.items ∧ (y.ep.lateDev).testBit s.cdev = true ∧
       u.dram = s.dram ∧ u.pwr = s.pwr) ∧
   (∀ (s : State) (g dev m t : Nat) (c : CommitS), s.commits = [c] → c.group = g → c.state = 0 → c.dmask.testBit dev = true → dev ≠ s.cdev → dev < 64 →
     (∃ d ∈ ones c.dmask 64, d ≠ dev ∧ assoc c.verdicts d = none) →
     ∃ u : State, ∃ d : CommitS, exec (.commitVerdictRx g dev m t) s = .next u ∧ u.commits = [d] ∧ assoc d.verdicts dev = some (m &&& c.bmask) ∧
       (∀ k, k ≠ dev → assoc d.verdicts k = assoc c.verdicts k) ∧ { d with verdicts := c.verdicts } = c ∧ { u with commits := s.commits } = s.at_ t) ∧
   (∀ (s : State) (g t b0 : Nat) (c : CommitS) (x : Batch), s.commits = [c] → c.group = g → c.state = 0 → c.tc ≤ t → b0 ∈ c.units → s.batch b0 = some x →
     ∃ u : State, ∃ y : Batch, exec (.commitInstant g t) s = .next u ∧ u.commits = [] ∧ u.batch b0 = some y ∧ y.ep.outcome = 4 ∧
       y.ep.cur = x.ep.cur ∧ y.ep.items = x.ep.items ∧ u.dram = s.dram) ∧
   (∀ (s : State) (g t b0 : Nat) (c : CommitS) (x : Batch), s.commits = [c] → c.group = g → t < c.t → b0 ∈ c.units → s.batch b0 = some x →
     ∃ u : State, ∃ y : Batch, exec (.commitAbortRx g t) s = .next u ∧ u.commits = [] ∧ u.batch b0 = some y ∧ y.ep.outcome = 3 ∧
       y.ep.cur = x.ep.cur ∧ y.ep.items = x.ep.items ∧ u.dram = s.dram) ∧
   (∀ (s : State) (g t b : Nat) (c : CommitS) (x : Batch), s.commits = [c] → c.group = g → c.state = 1 → c.t ≤ t → c.key = none → c.units = [b] →
     s.batch b = some x → x.state ≠ 3 → x.ep.thr = some c.t → (∀ i ∈ x.ep.items, i.kind ≠ 3) → x.ep.fin = none →
     ∃ u : State, ∃ y : Batch, exec (.commitApply g t) s = .next u ∧ u.commits = [] ∧ u.batch b = some y ∧ y.ep.cur = x.ep.epoch ∧ y.ep.items = [] ∧
       y.ep.staged = false ∧ y.ep.outcome = 1 ∧ y.ep.applied = noVnum ∧ (∀ i ∈ x.ep.items, i.kind = 2 → x.ep.items.filter (fun j => j.kind == 2) = [i] →
         assoc y.periods i.index = some (Per.ofBytes i.data 0)) ∧ (∀ k, k ≠ b → u.batch k = s.batch k) ∧ u.dram = s.dram ∧ u.taps = s.taps))

/-! ## Pattern instructions -/

/-- The word of a pattern instruction decodes to that instruction with every operand at every value that its field admits, and no reserved
bit of it is set. -/
def Obligations.PatternWordsRoundTrip : Prop :=
  ∀ i : PInstr, i.wf = true → PInstr.ofWord i.word = some i ∧ PInstr.reserved i.word = false ∧ i.word < 2 ^ 64

/-- Words spelled from R89 to R91: VEC of segment 7, 9 times; JMP under COND 0x30 with INV to 5; SYNC; HALT under condition 0; an opcode
value that is not listed decodes to nothing, and a reserved bit of NOP is seen. -/
def Obligations.PatternWordsSpelled : Prop :=
  PInstr.ofWord 0x0100000700000009 = some (.vec 7 9) ∧ PInstr.ofWord 0x07B0000000000005 = some (.jmp ⟨true, 0x30⟩ 5) ∧
  PInstr.ofWord 0x0C00000003E80002 = some (.sync 1000 2) ∧ PInstr.ofWord 0x3F00000000000000 = some (.halt ⟨false, 0⟩) ∧
  PInstr.ofWord 0x0B01000000000010 = some (.waitt true 16) ∧ PInstr.ofWord 0x0800000200000A81 = some (.mtch 2 10 0x81) ∧
  PInstr.ofWord 0x1200000000000000 = none ∧ PInstr.reserved 1 = true ∧ PInstr.reserved 0 = false

/-- The instructions of plain order, loops and branches: NOP goes on; VEC writes COUNT plays of its segment and RPT repeats the last
vector; LOOP opens a loop and ENDL counts it down; JMP, CALL and RET act as their condition says now, and wait where it is late and not yet
delivered; HALT names its effect boundary as a stop boundary (R56, R91 to R96, R103, R111). -/
def Obligations.PatternFlow : Prop :=
  let stands := fun (s : State) (b : Nat) (x : Batch) (i : PInstr) =>
    s.batch b = some x ∧ x.executes = true ∧ x.prog[x.seq.pc]? = some i
  (∀ (s : State) (b : Nat) (x : Batch), stands s b x .nop →
    exec (.nop b) s = .next (s.setBatch b { x with seq := { x.seq with pc := x.seq.pc + 1 } })) ∧
  (∀ (s : State) (b seg count : Nat) (x : Batch), stands s b x (.vec seg count) → count ≠ 0 →
    ∃ y : Batch, exec (.vec b seg count) s = .next (s.setBatch b y) ∧ y.seq.pc = x.seq.pc + 1 ∧
      y.seq.emitted = x.seq.emitted + count * x.segLen seg ∧
      y.seq.buf = x.seq.buf ++ [⟨seg, 0, count * x.segLen seg, false, false, x.seq.set, x.seq.per, x.seq.entry, x.seq.pc, x.seq.iter, !x.seq.loops.isEmpty, 0⟩] ∧
      { y with seq := { y.seq with pc := x.seq.pc, emitted := x.seq.emitted, buf := x.seq.buf, last := x.seq.last } } = x) ∧
  (∀ (s : State) (b count : Nat) (x : Batch) (r : Run), stands s b x (.rpt count) → count ≠ 0 → x.seq.last = some r →
    ∃ y : Batch, exec (.rpt b count) s = .next (s.setBatch b y) ∧ y.seq.pc = x.seq.pc + 1 ∧ y.seq.emitted = x.seq.emitted + count ∧
      y.seq.buf = x.seq.buf ++ [{ r with left := count, set := x.seq.set, per := x.seq.per, entry := x.seq.entry, addr := x.seq.pc, iter := x.seq.iter, inLoop := !x.seq.loops.isEmpty }] ∧
      { y with seq := { y.seq with pc := x.seq.pc, emitted := x.seq.emitted, buf := x.seq.buf, last := x.seq.last } } = x) ∧
  (∀ (s : State) (b count : Nat) (x : Batch), stands s b x (.loop count) →
    exec (.loop b count) s = .next (s.setBatch b { x with seq := { x.seq with
      pc := x.seq.pc + 1, loops := ⟨x.seq.pc + 1, count, count⟩ :: x.seq.loops } })) ∧
  (∀ (s : State) (b : Nat) (x : Batch) (l : LoopE) (ls : List LoopE), stands s b x .endl → x.seq.loops = l :: ls →
    exec (.endl b) s = .next (s.setBatch b { x with seq :=
      if 1 < l.left then { x.seq with pc := l.addr, loops := { l with left := l.left - 1 } :: ls }
      else { x.seq with pc := x.seq.pc + 1, loops := ls } })) ∧
  (∀ (s : State) (b target : Nat) (c : Cond) (x : Batch) (v : Bool), stands s b x (.jmp c target) → x.condition c.cond = some v →
    exec (.jmp b c target) s = .next (s.setBatch b { x with seq := { x.seq with
      decided := none, pc := if v != c.inv then target else x.seq.pc + 1 } })) ∧
  (∀ (s : State) (b target : Nat) (c : Cond) (x : Batch), stands s b x (.jmp c target) → x.condition c.cond = none →
    exec (.jmp b c target) s = .next (s.setBatch b { x with seq := { x.seq with wait := some (.late (x.seq.emitted - x.site.matchDelay)) } })) ∧
  (∀ (s : State) (b target : Nat) (c : Cond) (x : Batch) (v : Bool), stands s b x (.call c target) → x.condition c.cond = some v →
    exec (.call b c target) s = .next (s.setBatch b { x with seq :=
      if v != c.inv then { x.seq with decided := none, pc := target, calls := (x.seq.pc + 1) :: x.seq.calls }
      else { x.seq with decided := none, pc := x.seq.pc + 1 } })) ∧
  (∀ (s : State) (b a : Nat) (as : List Nat) (c : Cond) (x : Batch) (v : Bool), stands s b x (.ret c) → x.condition c.cond = some v → x.seq.calls = a :: as →
    exec (.ret b c) s = .next (s.setBatch b { x with seq :=
      if v != c.inv then { x.seq with decided := none, pc := a, calls := as } else { x.seq with decided := none, pc := x.seq.pc + 1 } })) ∧
  (∀ (s : State) (b : Nat) (c : Cond) (x : Batch) (v : Bool), stands s b x (.halt c) → x.condition c.cond = some v → (v != c.inv) = true →
    ∃ y : Batch, exec (.halt b c) s = .next (s.setBatch b y) ∧ y.seq.halted = true ∧ y.causes = x.causes ++ [(1, x.seq.emitted)] ∧
      y.seq.pc = x.seq.pc ∧ y.state = x.state ∧ y.seq.buf = x.seq.buf ∧ y.prog = x.prog ∧ y.counts = x.counts) ∧
  (∀ (s : State) (b : Nat) (c : Cond) (x : Batch) (v : Bool), stands s b x (.halt c) → x.condition c.cond = some v → (v != c.inv) = false →
    exec (.halt b c) s = .next (s.setBatch b { x with seq := { x.seq with decided := none, pc := x.seq.pc + 1 } }))

/-- FLAG first clears the bits of CLRMASK and then sets those of SETMASK, and goes on to the next instruction; START clears the flags, and
STATUS reports them as they stand (R101). -/
def Obligations.UserFlags : Prop :=
  (∀ (s : State) (b setm clrm : Nat) (x : Batch), s.batch b = some x → x.executes = true → x.prog[x.seq.pc]? = some (.flag setm clrm) →
    setm < 65536 → clrm < 65536 → x.seq.flags < 65536 →
    ∃ y : Batch, exec (.flag b setm clrm) s = .next (s.setBatch b y) ∧
      (∀ i, i < 16 → y.seq.flags.testBit i = (setm.testBit i || (x.seq.flags.testBit i && !clrm.testBit i))) ∧ y.seq.flags < 65536 ∧
      { y with seq := { y.seq with flags := x.seq.flags, pc := x.seq.pc } } = x ∧ y.seq.pc = x.seq.pc + 1) ∧
  (∀ (s : State) (h : Hdr) (p : StartP) (x : Batch), s.admits h 0x0106 [] = true → s.batch (cmdBatch h) = some x →
    (∀ c ∈ (s.at_ h.t).startChecks (cmdBatch h) x p, c.1 = false) →
    ∃ u : State, ∃ y : Batch, exec (.start h p) s = .next (State.settle h 0x0106 (Res.acc u) none) ∧ u.batch (cmdBatch h) = some y ∧ y.seq.flags = 0) ∧
  (∀ (s : State) (h : Hdr) (d : DRef) (x : Batch), s.admits h 0x0108 [(d, false)] = true → s.batch (cmdBatch h) = some x → x.seq.flags < 65536 →
    (d.len = 0 ∨ (statusData x).length ≤ d.len) →
    ∃ r data : List Byte, exec (.status h d) s = .next (State.settle h 0x0108 (Res.ok (s.at_ h.t) r data) (some d)) ∧ fld r 4 2 = x.seq.flags)

/-- The other instructions: TSET selects a set and its period entry and meets the cache at the effect boundary; PER selects a period entry;
WAITT repeats the last vector; SYNC reports its A_w or, in group 0, goes on 70 ns later; TRIG, MARK and PEACT act at the effect boundary, and a MARK with no place left for its pair waits;
SITEMASK selects a mask entry; MATCH plays its block and waits for the decision (R94 to R100, R102, R105, R106).

A pattern instruction that the program counter does not hold changes nothing, and one of a batch that does not exist neither (log 7). -/
def Obligations.PatternEffects : Prop :=
  (let stands := fun (s : State) (b : Nat) (x : Batch) (i : PInstr) =>
     s.batch b = some x ∧ x.executes = true ∧ x.prog[x.seq.pc]? = some i
   (∀ (s : State) (b set : Nat) (x : Batch), stands s b x (.tset set) →
     exec (.tset b set) s = .next (s.setBatch b { x with seq := { x.seq with
       pc := x.seq.pc + 1, set := set, per := 256 + x.seq.emitted, acts := x.seq.acts ++ [(x.seq.emitted, 5, set)] } })) ∧
   (∀ (s : State) (b idx : Nat) (x : Batch), stands s b x (.per idx) →
     exec (.per b idx) s = .next (s.setBatch b { x with seq := { x.seq with pc := x.seq.pc + 1, per := idx } })) ∧
   (∀ (s : State) (b time : Nat) (x : Batch) (r : Run) (p : Per), stands s b x (.waitt false time) → x.seq.last = some r →
     x.aw.2 = some p →
     ∃ y : Batch, exec (.waitt b false time) s = .next (s.setBatch b y) ∧ y.seq.pc = x.seq.pc + 1 ∧
       y.seq.emitted = x.seq.emitted + cdiv (time * 1000000 * p.d) p.num ∧
       { y with seq := { y.seq with pc := x.seq.pc, emitted := x.seq.emitted, buf := x.seq.buf, last := x.seq.last } } = x) ∧
   (∀ (s : State) (b time : Nat) (x : Batch) (r : Run) (p : Per), stands s b x (.waitt true time) → x.seq.last = some r →
     x.aw.2 = some p →
     ∃ y : Batch, exec (.waitt b true time) s = .next (s.setBatch b y) ∧ y.seq.pc = x.seq.pc + 1 ∧
       y.seq.emitted = x.seq.emitted + repeatsTo x.aw.1 (Acc.start (waitTarget x.aw.1 time) 1) p ∧
       { y with seq := { y.seq with pc := x.seq.pc, emitted := x.seq.emitted, buf := x.seq.buf, last := x.seq.last } } = x) ∧
   (∀ (s : State) (b timeout rdv t : Nat) (x : Batch), stands s b x (.sync timeout rdv) → x.syncgrp = 0 →
     exec (.sync b timeout rdv t) s = .next ((s.setBatch b { x with seq := { x.seq with
       pc := x.seq.pc + 1, wait := some (.peact (some (x.aw.1.plus 70000000))) } }).at_ t)) ∧
   (∀ (s : State) (b timeout rdv t : Nat) (x : Batch), stands s b x (.sync timeout rdv) → x.syncgrp ≠ 0 →
     exec (.sync b timeout rdv t) s = .next (((s.setBatch b { x with seq := { x.seq with
       pc := x.seq.pc + 1, wait := some (.sync x.aw.1 timeout rdv) } }).at_ t).syncReport x.syncgrp b rdv timeout x.aw.1)) ∧
   (∀ (s : State) (b outs : Nat) (x : Batch), stands s b x (.trig outs) →
     exec (.trig b outs) s = .next (s.setBatch b { x with seq := { x.seq with
       pc := x.seq.pc + 1, acts := x.seq.acts ++ [(x.seq.emitted, 0, outs)] } })) ∧
   (∀ (s : State) (b code : Nat) (x : Batch), stands s b x (.mark code) → s.marksFull b x = false →
     exec (.mark b code) s = .next (s.setBatch b { x with seq := { x.seq with
       pc := x.seq.pc + 1, acts := x.seq.acts ++ [(x.seq.emitted, 1, code)] } })) ∧
   (∀ (s : State) (b code : Nat) (x : Batch), stands s b x (.mark code) → s.marksFull b x = true → (x.seq.emitted, 4, x.seq.pc) ∉ x.seq.acts →
     exec (.mark b code) s = .next (s.setBatch b { x with seq := { x.seq with acts := x.seq.acts ++ [(x.seq.emitted, 4, x.seq.pc)] } })) ∧
   (∀ (s : State) (b entry : Nat) (x : Batch), stands s b x (.sitemask entry) →
     exec (.sitemask b entry) s = .next (s.setBatch b { x with seq := { x.seq with pc := x.seq.pc + 1, entry := entry } })) ∧
   (∀ (s : State) (b settle script : Nat) (x : Batch), stands s b x (.peact settle script) →
     exec (.peact b settle script) s = .next (s.setBatch b { x with seq := { x.seq with
       pc := x.seq.pc + 1, acts := x.seq.acts ++ [(x.seq.emitted, 2, script + 65536 * settle)], wait := some (.peact none) } })) ∧
   (∀ (s : State) (b seg timeout group : Nat) (x : Batch), stands s b x (.mtch seg timeout group) → timeout ≠ 0 →
     let l := x.segLen seg
     ∃ y : Batch, exec (.matchBlock b seg timeout group) s = .next (s.setBatch b y) ∧ y.seq.pc = x.seq.pc + 1 ∧
       y.seq.wait = some (.mtch x.seq.emitted l timeout group 0 none) ∧
       y.seq.emitted = x.seq.emitted + l * min timeout (1 + cdiv x.site.matchDelay (max 1 l)) ∧
       { y with seq := { y.seq with pc := x.seq.pc, emitted := x.seq.emitted, buf := x.seq.buf, last := x.seq.last, wait := x.seq.wait } } = x)) ∧
  ((∀ (s : State) (b : Nat) (x : Batch), s.batch b = some x → x.seq.wait = none → x.prog[x.seq.pc]? ≠ some .nop → exec (.nop b) s = .next s) ∧
   (∀ (s : State) (b seg count : Nat), s.batch b = none → exec (.vec b seg count) s = .next s) ∧
   (∀ (s : State) (b : Nat) (c : Cond) (x : Batch), s.batch b = some x → x.active = false → exec (.halt b c) s = .next s))

/-! ## Running a batch -/

/-- VECTOR_HANDOVER, with nothing due at its boundary, takes the next vector: the accumulator converts to the period's denominator and
advances by the period, the vector stands last among those handed over, its edges join the queues; with the buffer empty the batch starves:
batch fault 2, and a stop at that vector (R38, R42, R119, R135). -/
def Obligations.VectorsAreHandedOver : Prop :=
  (∀ (s : State) (b : Nat) (x : Batch) (r : Run) (rs : List Run) (g : Seg) (p : Per) (g0 : Seg) (ws : List SliceVec), s.batch b = some x → x.active = true →
    x.seq.wait = none → x.seq.buf = r :: rs → x.undecided r = false → x.limitsOpen x.seq.hNext = false → x.stopAt = none → x.thr = [] → x.ovrNext = [] → x.staleNext = [] → x.checks = [] →
    x.ep.thr = none → s.waits = [] → (∀ a ∈ x.seq.acts, a.2.1 ≠ 5) → (r.opens = true → s.pendingItems b [1, 3] = []) →
    assoc x.segs r.seg = some g0 → effPer x.periods x.ovr (x.runEntry r) = some p →
    let s1 := (s.at_ (x.seq.hAcc.fs - 60000000)).setBatch b x
    let c := x.seq.hAcc.convert p.d
    let took := s1.takeAll x ⟨x.seq.hNext, r, g, c.1, p, s.free⟩ ws (s.channels b)
    s1.fetchVec b g0 r (s.slices b) = (s1, true) → s1.vecOf x r (s.slices b) = some (g, ws) → x.setBreach g ws = none →
    (∀ q ∈ took, q.2.1.broken = false) →
    ∃ u : State, ∃ y : Batch, ∃ h : HVec, exec (.vectorHandover b) s = .next u ∧ u.batch b = some y ∧ y.seq.hNext = x.seq.hNext + 1 ∧
      y.seq.hAcc = c.1.advance p ∧ y.seq.hPer = some p ∧ y.seq.flight = x.seq.flight ++ [h] ∧ h.vnum = x.seq.hNext ∧ h.acc = c.1 ∧ h.per = p ∧ h.err = c.2 ∧
      y.seq.buf = x.popBuf ∧ y.seq.held = some (g, ws) ∧ y.edges = x.edges ++ took.flatMap (fun q => q.2.1.edges) ∧ y.seq.begun = x.seq.begun ∧ y.counts = x.counts ∧
      y.causes = x.causes ∧ y.state = x.state ∧ (∀ k, k ≠ b → u.batch k = s.batch k) ∧
      { u with batches := s.batches, free := s.free } = s.at_ (x.seq.hAcc.fs - 60000000)) ∧
  (∀ (s : State) (b : Nat) (x : Batch), 1 ≤ b → b ≤ 16 → s.batch b = some x → x.active = true → x.seq.wait = none → x.seq.buf = [] → x.stopAt = none →
    ∃ u : State, ∃ y : Batch, exec (.vectorHandover b) s = .next u ∧ (u.src (0x700 + 16 * (b - 1) + 2)).status = true ∧ u.batch b = some y ∧
      (4, x.seq.hNext) ∈ y.causes ∧ y.counts = x.counts ∧ (∀ k, k ≠ b → u.batch k = s.batch k) ∧ u.dram = s.dram ∧ u.taps = s.taps)

/-- VECTOR_BEGIN of the first vector handed over counts it as begun, takes the accumulator to its end, adds the rounding of its residue to
RESERR within 32 bits, and puts its strobes among those that await a decision; EDGE_FIRE takes the head of its line's queue and drives the
pin (R44, R57, R110, R137).

A mark waits for room in the event queue and then goes to it; without a flow table its record is counted and leaves at once (R99, R339). -/
def Obligations.VectorsBegin : Prop :=
  ((∀ (s : State) (b : Nat) (x : Batch) (h : HVec) (rest : List HVec), s.batch b = some x → x.state = 3 → x.seq.flight = h :: rest → x.stopAt = none →
     x.seq.acts = [] → s.waits = [] → x.ep.due = false → x.site.pend = [] → x.destroying = none → h.granule = none → h.idle = none → h.final = none → h.trigs = 0 → (∀ i, (x.site.site i).off = none) →
     ∃ u : State, ∃ y : Batch, exec (.vectorBegin b) s = .next u ∧ u.batch b = some y ∧ y.seq.begun = h.vnum + 1 ∧ y.seq.begunAt = h.acc.fs ∧ y.seq.acc = h.acc.advance h.per ∧
       y.seq.flight = rest ∧ y.seq.hNext = x.seq.hNext ∧ (∀ g ∈ h.groups, g.strobes ≠ [] → g ∈ y.awaiting) ∧
       (∀ g ∈ x.awaiting, g.strobes ≠ [] → g ∈ y.awaiting) ∧
       y.reserr = (if h.err = 0 then x.reserr else max (-2147483648) (min 2147483647 (x.reserr + rhe (h.err * 65536) h.errDen))) ∧
       y.state = 3 ∧ y.prog = x.prog ∧ y.edges = x.edges ∧ u.now = (s.at_ h.acc.fs).now ∧ (∀ k, k ≠ b → u.batch k = s.batch k) ∧
       u.dram = s.dram ∧ u.taps = s.taps ∧ (x.seq.wait = none → u.flt = s.flt)) ∧
   (∀ (s : State) (lch line : Nat) (x : Batch) (e : Edge), s.batch (s.sliceOwner.get 0 (lch / 16)) = some x → x.state = 3 → x.destroying = none →
     (∀ i, (x.site.site i).off = none) → x.edges.find? (fun e => e.lch == lch && e.line == line) = some e →
     let b := s.sliceOwner.get 0 (lch / 16)
     ∃ u : State, exec (.edgeFire lch line) s = .next u ∧ u.batch b = some { x with edges := x.edges.erase e } ∧
       (line = 0 → u.drvPins.get false (s.pcell lch) = (e.act == 1) ∧ u.denPins = s.denPins) ∧
       (line = 1 → u.denPins.get false (s.pcell lch) = (e.act == 3) ∧ u.drvPins = s.drvPins) ∧
       (2 ≤ line → u.denPins = s.denPins ∧ u.drvPins = s.drvPins) ∧
       (∀ c, c ≠ s.pcell lch → u.drvPins.get false c = s.drvPins.get false c ∧ u.denPins.get false c = s.denPins.get false c) ∧
       (∀ k, k ≠ b → u.batch k = s.batch k) ∧ { u with batches := s.batches, drvPins := s.drvPins, denPins := s.denPins, cal := { u.cal with gather := s.cal.gather } } = s.at_ e.fs)) ∧
  ((∀ (s : State) (b : Nat) (m : Nat × Nat × Nat) (ms : List (Nat × Nat × Nat)) (x : Batch), s.batch b = some x → x.markBuf = m :: ms →
     s.queueFull b 0 = true → exec (.markPost b) s = .next s) ∧
   (∀ (s : State) (b v code order : Nat) (ms : List (Nat × Nat × Nat)) (x : Batch), s.batch b = some x → x.markBuf = (v, code, order) :: ms →
     s.queueFull b 0 = false → x.flow.loaded = true →
     let pair : Job := ⟨b, 0, 0, 0, .write 4 0 (le 8 v ++ le 2 code ++ le 6 0), none⟩
     let check : Job := ⟨b, 0, 0, 0, .check v (order == 2), none⟩
     ∃ u : State, ∃ y : Batch, exec (.markPost b) s = .next u ∧ u.batch b = some y ∧ y.markBuf = ms ∧
       (order = 0 → u.sched.ready = s.sched.ready ++ [pair] ∧ u.sched.outside = s.sched.outside) ∧
       (order ≠ 0 → u.sched.ready = s.sched.ready ++ [pair, check] ∨
         u.sched.ready = s.sched.ready ++ [pair] ∧ u.sched.outside = s.sched.outside ++ [check]) ∧ { y with markBuf := x.markBuf, qs := x.qs } = x ∧
       (∀ k, k ≠ b → u.batch k = s.batch k) ∧ u.dram = s.dram ∧ u.taps = s.taps ∧ u.flt = s.flt) ∧
   (∀ (s : State) (b v code : Nat) (ms : List (Nat × Nat × Nat)) (x : Batch), s.batch b = some x → x.markBuf = (v, code, 0) :: ms →
     b ≠ 0 → s.queueFull b 0 = false → x.flow.loaded = false →
     ∃ u : State, ∃ y : Batch, exec (.markPost b) s = .next u ∧ u.batch b = some y ∧ y.markBuf = ms ∧ u.sched = s.sched ∧
       (y.qs.get ⟨0, 0, 0⟩ 0).enq = (x.qs.get ⟨0, 0, 0⟩ 0).enq + 1 ∧ (y.qs.get ⟨0, 0, 0⟩ 0).deq = (x.qs.get ⟨0, 0, 0⟩ 0).deq + 1 ∧
       { y with markBuf := x.markBuf, qs := x.qs } = x ∧ { u with batches := s.batches, ctrs := s.ctrs } = s))

/-- Sparge streams: at the deadline of a granule FILL that covers it decides it to play, and an under-run either puts 64 keep-alive vectors
in or raises batch fault 3; a fetched granule advances RELEASE; FILL takes a value that does not fall and lies within the ring, and refuses
others with FILL_ERR; the counts show in the control block, and no other byte of memory changes (R80 to R84). -/
def Obligations.SpargeStreams : Prop :=
  let shown := fun (s u : State) (b seg : Nat) (t : Stream) =>
    ((u.batch b).bind (fun y => assoc y.streams seg)) = some t ∧ u.peek (s.cbOffset b t) 64 = t.block ∧
    (∀ a, (a < s.cbOffset b t ∨ s.cbOffset b t + 64 ≤ a) → Memory.read u.dram.mem a = Memory.read s.dram.mem a)
  let ready := fun (s : State) (b : Nat) (t : Stream) =>
    s.cbOffset b t % 64 = 0 ∧ s.inRegion b (s.cbOffset b t) 64 = true ∧ ∀ q, (s.stack q).frozen = false
  (∀ (s : State) (b : Nat) (x : Batch) (r : Run) (g : Seg) (t : Stream), s.batch b = some x → x.active = true → x.stopAt = none → x.seq.buf = [r] →
    assoc x.segs r.seg = some g → g.sparge = true → assoc x.streams r.seg = some t → r.idle = false → r.rpt = false → r.pos ≤ 64 * t.decided →
    64 * t.decided < r.pos + r.left → ready s b t →
    (t.decided < t.fill →
      ∃ u : State, exec (.spargeDeadline b) s = .next u ∧ shown s u b r.seg { t with decided := t.decided + 1 } ∧
        (∀ k, k ≠ b → u.batch k = s.batch k) ∧ { u.flt with inject := s.flt.inject } = s.flt ∧ u.taps = s.taps) ∧
    (t.fill ≤ t.decided → x.idleFill = true →
      ∃ u : State, ∃ y : Batch, exec (.spargeDeadline b) s = .next u ∧ shown s u b r.seg { t with underrun := true, invalid := true } ∧ u.batch b = some y ∧
        y.seq.emitted = x.seq.emitted + 64 ∧ (y.seq.buf.map (fun q => q.left)).sum = r.left + 64 ∧ (∃ q ∈ y.seq.buf, q.idle = true ∧ q.left = 64) ∧
        (∀ k, k ≠ b → u.batch k = s.batch k) ∧ { u.flt with inject := s.flt.inject } = s.flt ∧ u.taps = s.taps) ∧
    (t.fill ≤ t.decided → x.idleFill = false → 1 ≤ b → b ≤ 16 →
      ∃ u : State, ∃ y : Batch, exec (.spargeDeadline b) s = .next u ∧ shown s u b r.seg { t with underrun := true, invalid := true } ∧ u.batch b = some y ∧
        (u.src (0x700 + 16 * (b - 1) + 3)).status = true ∧ (4, x.seq.hNext + (64 * t.decided - r.pos)) ∈ y.causes ∧
        (∀ k, k ≠ b → u.batch k = s.batch k) ∧ u.taps = s.taps)) ∧
  (∀ (s : State) (b seg : Nat) (x : Batch) (g : Seg) (t : Stream), s.batch b = some x → assoc x.streams seg = some t → assoc x.segs seg = some g →
    t.release < t.decided → ready s b t → (∀ sl ∈ s.slices b, s.noFetch sl = false ∧ s.inRegion b (g.ringAddr sl t.release) g.gbytes = true ∧
      s.cleanBlock (g.ringAddr sl t.release) g.gbytes = true) →
    ∃ u : State, exec (.spargeFetchDone b seg) s = .next u ∧
      shown s u b seg { t with release := t.release + 1, data := t.data ++ [(t.release, (s.slices b).map (fun sl => (sl, s.peek (g.ringAddr sl t.release) g.gbytes)))] } ∧
      (∀ k, k ≠ b → u.batch k = s.batch k) ∧ { u with batches := s.batches, dram := s.dram, flt := s.flt, free := s.free } = s) ∧
  (∀ (s : State) (b seg value : Nat) (x : Batch) (g : Seg) (t : Stream), s.batch b = some x → assoc x.streams seg = some t → assoc x.segs seg = some g →
    ready s b t → t.fill ≤ min value (g.length / 64) → min value (g.length / 64) ≤ t.release + g.ringgran →
    ∃ u : State, exec (.fillWrite b seg value) s = .next u ∧ shown s u b seg { t with fill := min value (g.length / 64) } ∧
      (∀ k, k ≠ b → u.batch k = s.batch k) ∧ { u with batches := s.batches, dram := s.dram, flt := s.flt, free := s.free } = s) ∧
  (∀ (s : State) (b seg value : Nat) (x : Batch) (g : Seg) (t : Stream), s.batch b = some x → assoc x.streams seg = some t → assoc x.segs seg = some g →
    ready s b t → (min value (g.length / 64) < t.fill ∨ t.release + g.ringgran < min value (g.length / 64)) →
    ∃ u : State, exec (.fillWrite b seg value) s = .next u ∧ shown s u b seg { t with fillErr := true } ∧
      { u with batches := s.batches, dram := s.dram, ctrs := s.ctrs, flt := s.flt, free := s.free } = s)

/-- CONSENSUS_DECISION: once every strobe through the vector decides, a late condition is delivered to the sequencers; slices that disagree
raise batch fault 7 whatever is waited for, members that report other blocks batch fault 6; a repetition of a match block that every member
passes ends the block of each with MATCH_OK, the last that may decide ends it with MATCH_TIMEOUT, and any other is followed by one more; a
decision that is not ripe changes nothing (R93, R114, R173, R174, R178, R180, R181). -/
def Obligations.ConsensusDecisions : Prop :=
  let agree := fun (reports : List LockRep) => ∀ r ∈ reports, ∀ q ∈ reports, r.vnum = q.vnum ∧ r.addr = q.addr
  let waits := fun (s : State) (b g : Nat) (x : Batch) => s.batch b = some x ∧ x.active = true ∧ ∃ a l tm d r, x.seq.wait = some (.mtch a l tm g d r)
  let group := fun (s : State) (g : Nat) (ms : List Nat) (X : Nat → Batch) (B : Nat → BlockRep) => ms.Nodup ∧
    ∀ m ∈ ms, 1 ≤ m ∧ m ≤ 16 ∧ s.batch m = some (X m) ∧ (X m).blockOf g = some (B m)
  (∀ (s : State) (b v : Nat) (reports : List LockRep) (others : Bool) (reps : List BlockRep) (x : Batch) (i : PInstr) (c : Nat), s.batch b = some x →
    x.active = true → x.seq.wait = some (.late v) → agree reports → x.prog[x.seq.pc]? = some i → Sys2Proof.Machine.PInstr.cond? i = some c →
    (x.decidedTo (v + 1) = true → exec (.consensusDecision b reports others reps) s = .next (s.setBatch b
      { x with seq := { x.seq with wait := none, decided := some (x.front.2.lateHolds c x.seq.entry (some v)) } })) ∧
    (x.decidedTo (v + 1) = false → exec (.consensusDecision b reports others reps) s = .next s)) ∧
  (∀ (s : State) (b : Nat) (reports : List LockRep) (others : Bool) (reps : List BlockRep) (x : Batch) (r q : LockRep), 1 ≤ b → b ≤ 16 → s.batch b = some x →
    x.active = true → r ∈ reports → q ∈ reports → (r.vnum ≠ q.vnum ∨ r.addr ≠ q.addr) →
    ∃ u : State, ∃ y : Batch, exec (.consensusDecision b reports others reps) s = .next u ∧ (u.src (0x700 + 16 * (b - 1) + 7)).status = true ∧
      ((s.src (0x700 + 16 * (b - 1) + 7)).status = false → ∃ one ∈ reports, ∃ odd ∈ reports, (odd.vnum ≠ one.vnum ∨ odd.addr ≠ one.addr) ∧
        (∀ w ∈ reports, (reports.filter (fun p => p.vnum == w.vnum && p.addr == w.addr)).length ≤
          (reports.filter (fun p => p.vnum == one.vnum && p.addr == one.addr)).length) ∧
        (u.src (0x700 + 16 * (b - 1) + 7)).more = .lockstep odd.sl (odd.vnum, odd.addr) (one.vnum, one.addr)) ∧
      u.batch b = some y ∧ (4, x.vh) ∈ y.causes ∧ y.seq.wait = x.seq.wait ∧ (∀ k, k ≠ b → u.batch k = s.batch k) ∧ u.dram = s.dram ∧ u.taps = s.taps) ∧
  (∀ (s : State) (b g : Nat) (reports : List LockRep) (others : Bool) (reps : List BlockRep) (x : Batch), waits s b g x → agree reports →
    (∃ m ∈ s.matchMembers b g, ∃ y : Batch, s.batch m = some y ∧ (y.blockOf g).isNone) → exec (.consensusDecision b reports others reps) s = .next s) ∧
  (∀ (s : State) (b g : Nat) (reports : List LockRep) (others : Bool) (reps : List BlockRep) (x : Batch) (X : Nat → Batch) (B : Nat → BlockRep) (r q : BlockRep),
    waits s b g x → agree reports → let ms := s.matchMembers b g
    group s g ms X B → r ∈ ms.map B ++ reps → q ∈ ms.map B ++ reps → r ≠ q →
    ∃ u : State, exec (.consensusDecision b reports others reps) s = .next u ∧ (∀ k, k ∉ ms → u.batch k = s.batch k) ∧ u.dram = s.dram ∧
      ∀ m ∈ ms, (u.src (0x700 + 16 * (m - 1) + 6)).status = true ∧ ∃ y : Batch, u.batch m = some y ∧ (4, (X m).vh) ∈ y.causes ∧ y.seq = (X m).seq.withdraw (X m).vh) ∧
  (∀ (s : State) (b g : Nat) (reports : List LockRep) (others : Bool) (reps : List BlockRep) (x : Batch) (X : Nat → Batch) (B : Nat → BlockRep),
    waits s b g x → agree reports → let ms := s.matchMembers b g
    group s g ms X B → (∀ r ∈ ms.map B ++ reps, ∀ q ∈ ms.map B ++ reps, r = q) →
    ((∃ m ∈ ms, (X m).repDone = false) → exec (.consensusDecision b reports others reps) s = .next s) ∧
    ((∀ m ∈ ms, (X m).repDone = true) →
      let missed := (∃ m ∈ ms, ∃ a l tm d r, (X m).seq.wait = some (.mtch a l tm g d r) ∧ a + d * l + 1 ∈ (X m).seq.missReps) ∨ (others = false ∧ 128 ≤ g)
      ∃ u : State, exec (.consensusDecision b reports others reps) s = .next u ∧ (∀ k, k ∉ ms → u.batch k = s.batch k) ∧
        (¬ missed → u.ctrs = s.ctrs) ∧ (g < 128 → { u with batches := s.batches, ctrs := s.ctrs } = s) ∧
        { u with batches := s.batches, ctrs := s.ctrs, cellar := { u.cellar with up := s.cellar.up, dn := s.cellar.dn }, out := s.out, flt := { u.flt with inject := s.flt.inject } } = s ∧
        ∀ m ∈ ms, ∀ a l tm d r, (X m).seq.wait = some (.mtch a l tm g d r) →
          ∃ y : Batch, u.batch m = some y ∧ { y with seq := (X m).seq } = X m ∧ y.seq.pc = (X m).seq.pc ∧
            (¬ missed → y.seq = { (X m).seq with wait := none, matchOk := true, matchTo := false }) ∧
            (missed → tm ≤ d + 1 + matchW (X m).site.matchDelay l → y.seq.wait = none ∧ y.seq.matchOk = false ∧ y.seq.matchTo = true ∧ y.seq.buf = (X m).seq.buf) ∧
            (missed → d + 1 + matchW (X m).site.matchDelay l < tm → y.seq.wait = some (.mtch a l tm g (d + 1) r) ∧ y.seq.emitted = (X m).seq.emitted + l ∧
              (y.seq.buf.map (fun r => r.left)).sum = ((X m).seq.buf.map (fun r => r.left)).sum + l ∧ y.seq.matchOk = (X m).seq.matchOk)))

/-- The rendezvous at the unit that decides a group; any other unit leaves a report alone. A report waits for the others; different RDVs end
the rendezvous with batch fault 4; the last report releases the members 70 ns and 95 ns a hop after the latest A_w; a report that moves the
deadline to a time already past, and a TIMEOUT that falls due, end it with batch fault 5. The deadline goes with the earliest A_w and the
least TIMEOUT there that is not 0 (R106). -/
def Obligations.Rendezvous : Prop :=
  let held := fun (s : State) (p : SyncRep) => s.syncs.filter (fun q => !(q.group == p.group && q.dev == p.dev && q.b == p.b)) ++ [p]
  let report := fun (p : SyncRep) (t : Nat) => Instr.syncReport p.group ⟨p.dev, p.members⟩ p.b p.rdv p.timeout ⟨p.aw.fs, p.aw.n, p.aw.d⟩ t
  let ended := fun (s u : State) (g k : Nat) => u.syncs = s.syncs.filter (fun q => q.group != g) ∧
    ∀ b ∈ s.syncMembers g, 1 ≤ b → b ≤ 16 → ∀ x : Batch, s.batch b = some x → x.active = true →
      (u.src (0x700 + 16 * (b - 1) + k)).status = true ∧ ∃ y : Batch, u.batch b = some y ∧ (4, x.vh) ∈ y.causes
  let within := fun (s u : State) (g : Nat) => u.dram = s.dram ∧ u.taps = s.taps ∧ ∀ k, k ∉ s.syncMembers g → u.batch k = s.batch k
  (∀ (s : State) (p : SyncRep) (t : Nat), s.decides p.group = false → exec (report p t) s = .next s) ∧
  (∀ (s : State) (p : SyncRep) (t : Nat), s.decides p.group = true →
    let v : State := { s.at_ t with syncs := held s p }
    let rs := (held s p).filter (fun q => q.group == p.group)
    let past := match syncDeadline rs with
      | some (aw, n) => n != 0 && !(Acc.start v.now 1).le (aw.plus (n * 1000000000))
      | none => false
    ∃ u : State, exec (report p t) s = .next u ∧ within s u p.group ∧
      ((∃ q ∈ rs, q.rdv ≠ p.rdv) → ended s u p.group 4) ∧
      ((∀ q ∈ rs, q.rdv = p.rdv) → v.allReported p.group = true →
        u.syncs = s.syncs.filter (fun q => q.group != p.group) ∧ { u.flt with inject := s.flt.inject } = s.flt ∧
        ∀ b ∈ s.syncMembers p.group, ∀ x : Batch, s.batch b = some x →
          u.batch b = some { x with seq := { x.seq with wait := match x.seq.wait with
            | some (.sync ..) => some (.peact (some (v.syncRelease p.group)))
            | w => w } }) ∧
      ((∀ q ∈ rs, q.rdv = p.rdv) → v.allReported p.group = false → past = true → ended s u p.group 5) ∧
      ((∀ q ∈ rs, q.rdv = p.rdv) → v.allReported p.group = false → past = false → u = v)) ∧
  (∀ (s : State) (g : Nat), s.syncReports g ≠ [] → (∀ q ∈ s.syncReports g, 0 < q.aw.d) →
    ∃ r ∈ s.syncReports g, (∀ q ∈ s.syncReports g, q.aw.le r.aw = true) ∧
      s.syncRelease g = r.aw.plus (70000000 + 95000000 * hopsIn (s.syncDevices g))) ∧
  (∀ (s : State) (g t : Nat),
    let due := match syncDeadline (s.syncReports g) with
      | some (aw, n) => n != 0 && (aw.plus (n * 1000000000)).le (Acc.start t 1)
      | none => false
    (due = false → exec (.syncTimeout g t) s = .next s) ∧
    (due = true → ∃ u : State, exec (.syncTimeout g t) s = .next u ∧ within s u g ∧ ended s u g 5)) ∧
  (∀ (rs : List SyncRep) (aw : Acc) (n : Nat), (∀ q ∈ rs, 0 < q.aw.d) → syncDeadline rs = some (aw, n) →
    (∃ r ∈ rs, r.aw = aw) ∧ (∀ q ∈ rs, aw.le q.aw = true) ∧
    (n = 0 → ∀ q ∈ rs, q.aw.le aw = true → q.timeout = 0) ∧
    (n ≠ 0 → (∃ r ∈ rs, r.aw.le aw = true ∧ r.timeout = n) ∧ ∀ q ∈ rs, q.aw.le aw = true → q.timeout ≠ 0 → n ≤ q.timeout))

/-! ## Judging strobes (R151 to R181) -/

/-- COMPARE_DECISION: every strobe of the slice's oldest group passes, fails or meets a disagreement; a disagreement raises CMP_DISAGREE of
its cell and is no fail; fails form the records of R157, which count only as their record is logged or accounted. In a MATCH block no count
of R170 changes, and a repetition with a strobe that does not pass has missed (R152, R153, R157, R170, R179).

FAIL_MEMORY_WRITE: the oldest record formed whose hand-off does not wait is unlogged with the first reason that applies, or logged in a slot of its quadrant's ring that holds no record, and held;
nothing else in memory changes, and the identities of R170 stay (R166, R170). -/
def Obligations.StrobesAndFailRecords : Prop :=
  let first := fun (f : Formed) (rest : List Formed) => f.fr.sl < 32 ∧ ∀ g ∈ rest, keyLt g.fr.key f.fr.key = false
  ((∀ (s : State) (b sl : Nat) (obs : List Obs) (x : Batch) (g : Group), s.batch b = some x →
     x.awaiting.find? (fun g => g.sl == sl && !g.strobes.isEmpty) = some g → g.rep = 0 → g.strobes.map (fun t => t.ch) = obs.map (fun o => o.ch) →
     s.waits = [] → x.site.blimit = 0 → (∀ i, (x.site.site i).slimit = 0) →
     let vs := s.verdicts g obs
     ∃ u : State, ∃ y : Batch, exec (.compareDecision b sl obs) s = .next u ∧ u.batch b = some y ∧
       y.counts.pass = x.counts.pass + (vs.filter (fun v => v.2.1 == .pass)).length ∧
       y.counts.compared = x.counts.compared + (vs.filter (fun v => v.2.1 == .pass)).length ∧
       y.counts.disagree = x.counts.disagree + (vs.filter (fun v => v.2.1 == .disagree)).length ∧ y.counts.fail = x.counts.fail ∧
       y.forming.length + y.formed.length = x.forming.length + x.formed.length + (x.recordsOf (s.channels b) g vs).length ∧
       y.awaiting.filter (fun h => !h.strobes.isEmpty) = x.awaiting.filter (fun h => !h.strobes.isEmpty && h != g) ∧
       (∀ v ∈ vs, v.2.1 = .disagree → (u.src (0x100 + s.pcell (16 * sl + v.1.ch))).status = true) ∧
       (∀ k, k ≠ b → u.batch k = s.batch k) ∧ ((∀ t ∈ g.strobes, t.act ≠ 9) → u.dram = s.dram) ∧
       ((∀ t ∈ g.strobes, t.act ≠ 9) → (∀ v ∈ vs, v.2.1 ≠ .disagree) → { u.flt with inject := s.flt.inject } = s.flt ∧ y.causes = x.causes)) ∧
   (∀ (s : State) (b sl : Nat) (obs : List Obs) (x : Batch) (g : Group), s.batch b = some x →
     x.awaiting.find? (fun g => g.sl == sl && !g.strobes.isEmpty) = some g → g.rep ≠ 0 → g.strobes.map (fun t => t.ch) = obs.map (fun o => o.ch) →
     s.waits = [] → (∀ h ∈ x.awaiting, h.strobes ≠ []) → x.forming = [] →
     let miss := (s.verdicts g obs).any (fun v => v.2.1 != .pass && !g.masked.contains v.1.ch)
     ∃ u : State, ∃ y : Batch, exec (.compareDecision b sl obs) s = .next u ∧ u.batch b = some y ∧ y.counts = x.counts ∧
       y.forming = [] ∧ y.formed = x.formed ∧
       y.seq.missReps = (if miss && !x.seq.missReps.contains g.rep then x.seq.missReps ++ [g.rep] else x.seq.missReps) ∧
       (∀ k, k ≠ b → u.batch k = s.batch k)) ∧
   (∀ (s u : State) (b sl : Nat) (obs : List Obs) (x y : Batch), s.batch b = some x → x.counts.balanced = true →
     exec (.compareDecision b sl obs) s = .next u → u.batch b = some y → y.counts.balanced = true) ∧
   (∀ (t : Strobe) (o : Obs), t.window = false → 4 ≤ t.act → t.act ≤ 7 →
     (o.cmh = true → o.cml = false → judgeObs t o false = .disagree) ∧
     (judgeObs t o false = .pass ↔ (t.act = 4 ∧ o.cmh = false ∧ o.cml = false) ∨ (t.act = 5 ∧ o.cmh = true ∧ o.cml = true) ∨
       (t.act = 6 ∧ o.cmh = false ∧ o.cml = true) ∨ (t.act = 7 ∧ o.cmh = o.cml))) ∧
   (∀ (t : Strobe) (o : Obs), t.window = true → 4 ≤ t.act → t.act ≤ 7 →
     ((o.cmh, o.cml) = (true, false) ∨ (true, false) ∈ o.later → judgeObs t o false = .disagree) ∧
     (judgeObs t o false = .pass → ∀ p ∈ (o.cmh, o.cml) :: o.later, p ≠ (true, false) ∧ satisfies t.act (cmpState p.1 p.2) = true))) ∧
  ((∀ (s : State) (b r : Nat) (x : Batch) (f : Formed) (rest : List Formed), s.batch b = some x → x.formed = f :: rest → first f rest → s.waits = [] →
     x.unlogged f = some r →
     ∃ u : State, ∃ y : Batch, exec (.failMemoryWrite b) s = .next u ∧ u.batch b = some y ∧ y.formed = rest ∧ y.held = x.held ∧
       y.counts.recUnlogged = x.counts.recUnlogged + 1 ∧ y.counts.recFormed = x.counts.recFormed + 1 ∧
       y.counts.unlogged = x.counts.unlogged + f.fr.lchs.length ∧ y.counts.fail = x.counts.fail + f.fr.lchs.length ∧
       y.counts.uFailoff = x.counts.uFailoff + (if r = 0 then f.fr.lchs.length else 0) ∧ y.counts.logged = x.counts.logged ∧
       (∀ k, k ≠ b → u.batch k = s.batch k) ∧ u.dram = s.dram ∧ u.flt = s.flt ∧ u.taps = s.taps) ∧
   (∀ (s : State) (b : Nat) (x : Batch) (f : Formed) (rest : List Formed), s.batch b = some x → x.formed = f :: rest → first f rest → s.waits = [] →
     x.unlogged f = none → s.noFetch f.fr.sl = false → x.flow.loaded = false →
     let g := x.site.rings.get QRing.zero (f.fr.sl / 8)
     let a := x.freeSlot (f.fr.sl / 8) g
     s.inRegion b a 32 = true → a % 32 = 0 → (s.stack (aStack a)).frozen = false →
     ∃ u : State, ∃ y : Batch, exec (.failMemoryWrite b) s = .next u ∧ u.batch b = some y ∧ y.formed = rest ∧ y.held = sortHeld (f.fr, a) x.held ∧
       (x.held.length < x.site.fmcap → ∀ h ∈ x.held, h.2 ≠ a) ∧
       u.peek a 32 = f.fr.bytes ∧ (∀ c, (c < a ∨ a + 32 ≤ c) → Memory.read u.dram.mem c = Memory.read s.dram.mem c) ∧
       y.counts.recLogged = x.counts.recLogged + 1 ∧ y.counts.recHeld = x.counts.recHeld + 1 ∧ y.counts.logged = x.counts.logged + f.fr.lchs.length ∧
       y.counts.held = x.counts.held + f.fr.lchs.length ∧ y.counts.unlogged = x.counts.unlogged ∧
       (∀ k, k ≠ b → u.batch k = s.batch k) ∧ u.taps = s.taps) ∧
   (∀ (s u : State) (b : Nat) (x y : Batch), s.batch b = some x → x.counts.balanced = true →
     exec (.failMemoryWrite b) s = .next u → u.batch b = some y → y.counts.balanced = true))

/-! ## Acquisition (R182 to R203) -/

/-- Edge timestamping and triggers: a transition takes the TDC's level and blinds it; the end of the blind time opens it again, or enters
the transition missed meanwhile; a qualification opens a window at its trigger point, or is skipped under hold-off (R182, R185, R191).

RECORD_WRITE closes the window and gives its record the next number: it goes to the next slot of the engine's ring and nowhere else in
memory, or is lost where every slot is taken; the last of NREC disarms the engine (R192 to R196). -/
def Obligations.Acquisition : Prop :=
  ((∀ (s : State) (pcell raw : Nat) (cml rise : Bool), let k := tdcKey pcell cml
     (s.tdc k).blind = false → (s.tdc k).level ≠ some rise → s.powered (3 + pcell / 17) = true →
     ∃ u : State, exec (.tdcStamp pcell cml rise raw) s = .next u ∧ (u.tdc k).level = some rise ∧ (u.tdc k).blind = true ∧
       (s.histCounts k = false → (u.tdc k).hist = (s.tdc k).hist ∧ (u.tdc k).since = (s.tdc k).since) ∧
       (∀ i, i ≠ k → u.tdc i = s.tdc i) ∧ (s.cellLch pcell = none → u.acqs = s.acqs) ∧ (pcell % 17 ≠ 16 → u.cal = s.cal) ∧
       (∀ l n c, s.cellLch pcell = some l → (s.acq n).cfg = some c → (s.acq n).armed = true → (s.acq n).window.isSome = true → c.srcA = l → c.srcB ≠ l →
         ∃ e : Event, (u.acq n).events = (s.acq n).events ++ [e] ∧ e.merged = false ∧ e.srcB = false ∧ e.rise = rise ∧ e.cml = cml) ∧
       (∀ n, (s.acq n).armed = false → u.acq n = s.acq n) ∧
       { u with tdcs := s.tdcs, acqs := s.acqs, cal := { u.cal with gather := s.cal.gather } } = s) ∧
   (∀ (s : State) (pcell raw : Nat) (cml rise : Bool), let k := tdcKey pcell cml
     ((s.tdc k).blind = true ∨ (s.tdc k).level = some rise ∨ s.powered (3 + pcell / 17) = false) → exec (.tdcStamp pcell cml rise raw) s = .next s) ∧
   (∀ (s : State) (pcell raw : Nat) (cml level moved : Bool), let k := tdcKey pcell cml
     (s.tdc k).blind = true → (s.tdc k).level = some level →
     ∃ u : State, exec (.tdcBlindEnd pcell cml level moved raw) s = .next u ∧ u.tdc k = { s.tdc k with blind := false } ∧
       (∀ i, i ≠ k → u.tdc i = s.tdc i) ∧ (moved = false → u.ctrs = s.ctrs) ∧ { u with tdcs := s.tdcs, ctrs := s.ctrs } = s) ∧
   (∀ (s : State) (pcell raw : Nat) (cml level moved : Bool), let k := tdcKey pcell cml
     (s.tdc k).blind = true → (s.tdc k).level ≠ some level →
     ∃ u : State, exec (.tdcBlindEnd pcell cml level moved raw) s = .next u ∧ u.tdc k = { s.tdc k with level := some level } ∧
       (∀ i, i ≠ k → u.tdc i = s.tdc i) ∧ (moved = false → u.ctrs = s.ctrs) ∧
       (∀ l n c, s.cellLch pcell = some l → (s.acq n).cfg = some c → (s.acq n).armed = true → (s.acq n).window.isSome = true → c.srcA = l → c.srcB ≠ l →
         ∃ e : Event, (u.acq n).events = (s.acq n).events ++ [e] ∧ e.merged = true ∧ e.srcB = false ∧ e.rise = level ∧ e.cml = cml) ∧
       { u with tdcs := s.tdcs, acqs := s.acqs, ctrs := s.ctrs } = s) ∧
   (∀ (s : State) (n t : Nat) (c : AcqCfg) (evs before : List Event) (e : Event), (s.acq n).cfg = some c → (s.acq n).armed = true → (s.acq n).window = none →
     judge c (scale16 t) [] (s.acq n).events = (evs, some (e, before)) → (s.acq n).lastTrig = none → c.flags.testBit 0 = false →
     ∃ u : State, exec (.triggerQualification n t) s = .next u ∧ (∃ w : Window, (u.acq n).window = some w ∧ w.trig = trigPoint c e ∧ w.stamp = e.stamp ∧
         w.at_ = (s.at_ t).now) ∧
       (u.acq n).lastTrig = some (trigPoint c e) ∧ (u.acq n).events = judgeFirst evs ∧ (u.acq n).records = (s.acq n).records ∧
       (∀ k, k ≠ n → u.acq k = s.acq k) ∧ { u with acqs := s.acqs } = s.at_ t) ∧
   (∀ (s : State) (n t l : Nat) (c : AcqCfg) (evs before : List Event) (e : Event), (s.acq n).cfg = some c → (s.acq n).armed = true →
     judge c (scale16 t) [] (s.acq n).events = (evs, some (e, before)) → (s.acq n).lastTrig = some l →
     trigPoint c e < l + 16 * max c.post (max c.recint (if c.flags.testBit 0 then 0 else c.holdoff % 281474976710656)) →
     ∃ u : State, exec (.triggerQualification n t) s = .next u ∧
       u.acq n = { s.acq n with events := judgeFirst evs, skips := (s.acq n).skips + 1, quals := (s.acq n).quals + 1 } ∧
       (∀ k, k ≠ n → u.acq k = s.acq k) ∧ { u with acqs := s.acqs, ctrs := s.ctrs } = s.at_ t) ∧
   (∀ (s : State) (n t : Nat) (c : AcqCfg) (evs : List Event), (s.acq n).cfg = some c → (s.acq n).armed = true →
     judge c (scale16 t) [] (s.acq n).events = (evs, none) →
     exec (.triggerQualification n t) s = .next ((s.at_ t).setAcq n { s.acq n with events := evs }))) ∧
  ((∀ (s : State) (n t : Nat) (c : AcqCfg) (w : Window), (s.acq n).cfg = some c → (s.acq n).window = some w → w.trig + 16 * c.post ≤ scale16 t →
     (s.acq n).recs.length < c.ringslots → (s.acq n).nrec = 0 → (s.acq n).ls = none → (s.flow (s.acqOwner.get 0 n)).phase ≠ 2 →
     let a := n / 3 * stackSize + c.ringaddr + slotBytes c * ((s.acq n).records % max 1 c.ringslots)
     ∃ u : State, exec (.recordWrite n t) s = .next u ∧ (u.acq n).recno = (s.acq n).recno + 1 ∧ (u.acq n).window = none ∧
       (u.acq n).recs = (s.acq n).recs ++ [⟨(s.acq n).recno, a, slotBytes c⟩] ∧ (u.acq n).records = (s.acq n).records + 1 ∧ (u.acq n).lost = (s.acq n).lost ∧
       (u.acq n).quals = (s.acq n).quals + 1 ∧ (u.acq n).armed = (s.acq n).armed ∧ (∀ k, k ≠ n → u.acq k = s.acq k) ∧
       (∀ d, (d < a ∨ a + slotBytes c ≤ d) → Memory.read u.dram.mem d = Memory.read s.dram.mem d) ∧
       (s.inRegion (s.acqOwner.get 0 n) a (slotBytes c) = true → u.batches = s.batches)) ∧
   (∀ (s : State) (n t : Nat) (c : AcqCfg) (w : Window), (s.acq n).cfg = some c → (s.acq n).window = some w → w.trig + 16 * c.post ≤ scale16 t →
     c.ringslots ≤ (s.acq n).recs.length → (s.acq n).nrec = 0 →
     ∃ u : State, exec (.recordWrite n t) s = .next u ∧ (u.acq n).recno = (s.acq n).recno + 1 ∧ (u.acq n).window = none ∧ (u.acq n).recs = (s.acq n).recs ∧
       (u.acq n).lost = (s.acq n).lost + 1 ∧ (u.acq n).records = (s.acq n).records ∧ (∀ k, k ≠ n → u.acq k = s.acq k) ∧
       { u with acqs := s.acqs, ctrs := s.ctrs, free := s.free } = s.at_ t) ∧
   (∀ (s : State) (n t : Nat) (c : AcqCfg) (w : Window), (s.acq n).cfg = some c → (s.acq n).window = some w → w.trig + 16 * c.post ≤ scale16 t →
     (s.acq n).nrec ≠ 0 → (s.acq n).nrec ≤ (s.acq n).recno + 1 → (s.flow (s.acqOwner.get 0 n)).phase ≠ 2 →
     ∃ u : State, exec (.recordWrite n t) s = .next u ∧ (u.acq n).armed = false ∧ (u.acq n).window = none))

/-! ## Flows, jobs and the datalog (R320 to R345, R411) -/

/-- FLOW_PIN_START begins a run with every defined site active where the flow waits for that pin, and is counted otherwise; TRIG_IN_EDGE
posts a selected edge, or counts it where the event queue is full; ACQUIRE_TIMEOUT disarms the step's engines and ends it (R320, R328, R329; the run's number is a free value, log 18). -/
def Obligations.FlowEvents : Prop :=
  (∀ (s : State) (pin t : Nat) (x : Batch), let b := s.trigInOwner.get 0 pin
    s.batch b = some x → x.flow.loaded = true → x.flow.pinEn = true → x.flow.pin = pin → x.flow.active = false →
    ∃ u : State, exec (.flowPinStart pin t) s = .next u ∧ (u.flow b).active = true ∧ (u.flow b).a = x.site.ids ∧ (u.flow b).step = 0 ∧
      (u.flow b).phase = 0 ∧ (u.flow b).steps = x.flow.steps ∧ (u.flow b).produced = x.flow.produced ∧
      (s.sched.held b 0 ≤ 30 → u.sched.ready = s.sched.ready ++
        [⟨b, 0, 3, 0, .write 1 0 (le 4 (u.flow b).runNo ++ le 1 1 ++ le 1 0 ++ le 2 x.site.ids.length), none⟩, ⟨b, 0, 2, 0, .control, none⟩]) ∧
      (∀ k, k ≠ b → u.batch k = s.batch k) ∧
      { u with batches := s.batches, sched := s.sched, free := s.free, irq := s.irq, ctrs := s.ctrs } = s.at_ t) ∧
  (∀ (s : State) (pin t : Nat), let f := s.flow (s.trigInOwner.get 0 pin)
    (f.loaded = false ∨ f.pinEn = false ∨ f.pin ≠ pin ∨ f.active = true) →
    ∃ u : State, exec (.flowPinStart pin t) s = .next u ∧ { u with ctrs := s.ctrs } = s.at_ t) ∧
  (∀ (s : State) (pin t : Nat) (fall : Bool) (x : Batch), let b := s.trigInOwner.get 0 pin
    let p := s.trigIn.get TrigIn.zero pin
    s.batch b = some x → p.post = true → p.fall = fall → x.flow.loaded = true → s.queueFull b 0 = false →
    ∃ u : State, exec (.trigInEdge pin fall t) s = .next u ∧
      u.sched.ready = s.sched.ready ++ [(⟨b, 0, 1, 0, .write 7 0 (le 1 pin ++ le 1 (b2n fall) ++ le 6 0 ++ timeBytes (t / cycle * cycle)), none⟩ : Job)] ∧
      (∀ k, k ≠ b → u.batch k = s.batch k) ∧ { u with batches := s.batches, sched := s.sched, irq := s.irq, ctrs := s.ctrs } = s.at_ t) ∧
  (∀ (s : State) (pin t : Nat) (fall : Bool), let b := s.trigInOwner.get 0 pin
    let p := s.trigIn.get TrigIn.zero pin
    p.post = true → p.fall = fall →
    ((s.flow b).loaded = true → s.queueFull b 0 = true → exec (.trigInEdge pin fall t) s = .next ((s.at_ t).count 0x0602 1 (Ev.ofB b))) ∧
    ((s.flow b).loaded = false →
      ∃ u : State, exec (.trigInEdge pin fall t) s = .next u ∧ (∀ k, k ≠ b → u.batch k = s.batch k) ∧
        { u with batches := s.batches, sched := { u.sched with dev := s.sched.dev }, ctrs := s.ctrs } = s.at_ t)) ∧
  (∀ (s : State) (pin t : Nat) (fall : Bool), let p := s.trigIn.get TrigIn.zero pin
    (p.post = false ∨ p.fall ≠ fall) → exec (.trigInEdge pin fall t) s = .next s) ∧
  (∀ (s : State) (b t : Nat), (s.flow b).phase = 2 → (s.flow b).timeoutAt ≤ t →
    ∃ u : State, exec (.acquireTimeout b t) s = .next u ∧ (u.flow b).phase ≠ 2 ∧ (∀ n ∈ (s.flow b).acqs, (u.acq n).armed = false) ∧
      (∀ n ∈ (s.flow b).acqs, (s.acq n).armed = true → (u.acq n).last = []) ∧ u.sliceOwner = s.sliceOwner) ∧
  (∀ (s : State) (b t : Nat), t < (s.flow b).timeoutAt → exec (.acquireTimeout b t) s = .next s)

/-- JOB_DISPATCH gives a free core the eligible job of the highest priority, of cores free at one instant that of the lowest logical number; what a
job does it commits as it completes: one that evaluates a site of a PATTERN step judges its fail count against the step's limits; JOB_COMPLETE frees the core and writes the record of a writing job to the ring's next slot, and to no
other byte outside the ring's control block; DELAY_TICK moves the deferred jobs that are due to the ready ones (R327, R331, R334, R336,
R341 to R343; a job's record is written as it completes: log 16). -/
def Obligations.JobsRun : Prop :=
  (∀ (s : State) (core t : Nat) (j : Job), s.coreFree core = true → s.yields core = false → s.nextJob = some j → j.work ≠ .frame →
    (∀ (m : Nat) (stopped : Bool), j.work ≠ .check m stopped) →
    ∃ u : State, exec (.jobDispatch core t) s = .next u ∧ u.sched.ready = s.sched.ready.erase j ∧ u.sched.cores = s.sched.cores ++ [(core, j)] ∧
      u.sched.delayed = s.sched.delayed ∧ u.sched.turn.get 0 (s.sched.prioOf j) = j.b ∧ { u with sched := s.sched } = s.at_ t) ∧
  (∀ (s : State) (j : Job), s.nextJob = some j → j ∈ s.eligible ∧ j ∈ s.sched.ready ∧ ∀ i ∈ s.eligible, s.sched.prioOf j ≤ s.sched.prioOf i) ∧
  (∀ (s : State) (core t : Nat), (s.coreFree core = false ∨ s.yields core = true ∨ s.nextJob = none) → exec (.jobDispatch core t) s = .next s) ∧
  (∀ (s : State) (k i : Nat), s.coreFree i = true → i ≤ 8 → s.sched.freed.get 0 i = s.sched.freed.get 0 k → s.logical i < s.logical k → s.yields k = true) ∧
  (∀ (s : State) (core t i k : Nat) (j : Job) (x : Batch), s.sched.cores.find? (fun p => p.1 == core) = some (core, j) → j.work = .eval i →
    s.batch j.b = some x → x.flow.phase = 4 → i ∈ x.flow.left → k ∈ x.flow.left → k ≠ i → x.flow.cur.type = 1 → (x.site.site i).off = none →
    (∀ p ∈ x.streams, p.2.invalid = false) →
    let st := x.flow.cur
    let fails : Int := ((x.site.site i).fails % 2 ^ 48 : Nat)
    let pass := (!st.loEn || decide (st.lo ≤ fails)) && (!st.hiEn || decide (fails ≤ st.hi))
    ∃ u : State, exec (.jobComplete core t) s = .next u ∧ (u.flow j.b).failed = (if pass then x.flow.failed else x.flow.failed ++ [i]) ∧
      (u.flow j.b).left = x.flow.left.filter (fun n => n != i) ∧ (u.flow j.b).phase = 4 ∧ (u.flow j.b).a = x.flow.a ∧ u.sched.cores = s.sched.cores.filter (fun p => p.1 != core) ∧
      (∀ n, n ≠ j.b → u.batch n = s.batch n) ∧ u.dram = s.dram) ∧
  (∀ (s : State) (core t b fl pr q type flags : Nat) (body : List Byte) (x : Batch), s.sched.cores.find? (fun p => p.1 == core) =
      some (core, ⟨b, fl, pr, q, .write type flags body, none⟩) → type ≠ 8 → s.batch b = some x → x.flow.phase ≠ 5 →
    let base := s.ringBase b x.flow
    let a := base + 64 + 128 * (x.flow.produced % max 1 x.flow.dlslots)
    s.inRegion b a 128 = true → a % 32 = 0 → (∀ q, (s.stack q).frozen = false) →
    ∃ u : State, exec (.jobComplete core t) s = .next u ∧ (u.flow b).produced = x.flow.produced + 1 ∧ (u.flow b).seq = (x.flow.seq + 1) % 4294967296 ∧
      (u.flow b).consumed = x.flow.consumed ∧ u.peek a 128 = datalogBytes type flags x.flow.seq (s.at_ t).todNs body ∧
      (∀ c, (c < a ∨ a + 128 ≤ c) → (c < base ∨ base + 64 ≤ c) → Memory.read u.dram.mem c = Memory.read s.dram.mem c) ∧
      u.sched.cores = s.sched.cores.filter (fun p => p.1 != core) ∧ (∀ k, k ≠ b → u.batch k = s.batch k) ∧ u.taps = s.taps) ∧
  (∀ (s : State) (t : Nat), let tick := (s.at_ t).tb.tod (s.at_ t).now / 1000000000
    let due := fun (j : Job) => decide (j.due.getD 0 ≤ tick)
    ∃ u : State, ∃ l : List Job, exec (.delayTick t) s = .next u ∧ u.sched.delayed = s.sched.delayed.filter (fun j => !due j) ∧
      u.sched.ready = s.sched.ready ++ l ∧ l.Perm ((s.sched.delayed.filter due).map (fun j => { j with due := none })) ∧ u.sched.cores = s.sched.cores ∧
      { u with sched := s.sched, irq := s.irq, ctrs := s.ctrs } = s.at_ t)

/-- The datalog ring's other end: CONSUMED moves within what is produced, and is refused with its error bit elsewhere; with DLNET a frame
carries up to 64 records once the destination is known, and CONSUMED follows it; an address resolution asks until it is answered (R336,
R337, R411).

Frames that a port answers itself, and what its link reports: an ARP request is answered with the port's MAC address, an echo request with
its data, a dropped frame is counted; a link that goes down and an uncorrectable FEC word warn (R411, R412). -/
def Obligations.DatalogAndEthernet : Prop :=
  let mine := fun (s : State) (port : Nat) (r : EthReq) =>
    if r.v6 then r.target = linkLocal (Config.mac port % 281474976710656) else (s.eth port).en = true ∧ r.target = (s.eth port).addr
  ((∀ (s : State) (b v : Nat) (x : Batch), s.batch b = some x → x.flow.loaded = true → x.flow.dlnet = false → b ≠ 0 → x.flow.consumed ≤ v → v ≤ x.flow.produced →
     ∃ u : State, ∃ y : Batch, exec (.datalogConsumedWrite b v) s = .next u ∧ u.batch b = some y ∧ y.flow = { x.flow with consumed := v, tods := x.flow.tods.drop (v - x.flow.consumed) } ∧
       (y.qs.get ⟨0, 0, 0⟩ 1).deq = (x.qs.get ⟨0, 0, 0⟩ 1).deq + (v - x.flow.consumed) ∧ (∀ k, k ≠ b → u.batch k = s.batch k) ∧
       (∀ c, (c < s.ringBase b x.flow ∨ s.ringBase b x.flow + 64 ≤ c) → Memory.read u.dram.mem c = Memory.read s.dram.mem c) ∧ u.taps = s.taps ∧
       (s.inRegion b (s.ringBase b x.flow) 64 = true → u.out = s.out)) ∧
   (∀ (s : State) (b v : Nat) (x : Batch), s.batch b = some x → x.flow.loaded = true → x.flow.dlnet = false → (v < x.flow.consumed ∨ x.flow.produced < v) →
     ∃ u : State, ∃ y : Batch, exec (.datalogConsumedWrite b v) s = .next u ∧ u.batch b = some y ∧ y.flow = { x.flow with consErr := true } ∧ y.qs = x.qs ∧
       (∀ k, k ≠ b → u.batch k = s.batch k) ∧
       (∀ c, (c < s.ringBase b x.flow ∨ s.ringBase b x.flow + 64 ≤ c) → Memory.read u.dram.mem c = Memory.read s.dram.mem c)) ∧
   (∀ (s : State) (b t : Nat) (x : Batch), let f := x.flow
     let n := min 64 f.waitingRecords
     let base := s.ringBase b f
     s.batch b = some x → b ≠ 0 → f.dlnet = true → s.onLink f = true → f.resolved = true → s.framing b = true → (s.eth f.dleth).link = true → n ≠ 0 →
     (n = 64 ∨ f.oldest + 10000000000 ≤ (s.at_ t).todNow) → s.inRegion b base 64 = true → (s.stack (aStack (base + 64))).frozen = false →
     (∀ i ∈ f.slots n, s.inRegion b (base + 64 + i) 128 = true ∧ s.cleanBlock (base + 64 + i) 128 = true) →
     ∃ u : State, exec (.datalogFrameSend b t) s = .next u ∧ u.out = s.out ++ [.frame f.dleth f.dldest 5 (be 2 f.dlport ++ s.frameBytes b f n)] ∧
       (u.flow b).consumed = f.consumed + n ∧ (u.flow b).produced = f.produced ∧ (∀ k, k ≠ b → u.batch k = s.batch k) ∧ u.sched = s.sched ∧
       (∀ c, (c < base ∨ base + 64 ≤ c) → Memory.read u.dram.mem c = Memory.read s.dram.mem c)) ∧
   (∀ (s : State) (b t : Nat), s.canFrame (s.flow b) = false → exec (.datalogFrameSend b t) s = .next (s.at_ t)) ∧
   (∀ (s : State) (b t : Nat), (s.flow b).resolving = true → s.onLink (s.flow b) = true →
     ∃ u : State, exec (.addressResolutionRetry b t) s = .next u ∧ u.out = s.out ++ [.frame (s.flow b).dleth (s.flow b).dldest 6 []] ∧ { u with out := s.out } = s.at_ t) ∧
   (∀ (s : State) (b t : Nat), (s.flow b).resolving = false → exec (.addressResolutionRetry b t) s = .next s ∧ exec (.addressResolutionReply b) s = .next s) ∧
   (∀ (s : State) (b : Nat) (x : Batch), s.batch b = some x → x.flow.resolving = true →
     ∃ u : State, exec (.addressResolutionReply b) s = .next u ∧ u.flow b = { x.flow with resolving := false, resolved := true } ∧
       (x.flow.waitingRecords = 0 → u.sched = s.sched) ∧
       (x.flow.waitingRecords ≠ 0 → s.sched.frames b = false → u.sched.ready = s.sched.ready ++ [⟨b, 0x202, 3, 1, .frame, none⟩]) ∧
       (∀ k, k ≠ b → u.batch k = s.batch k) ∧ { u with batches := s.batches, sched := s.sched } = s)) ∧
  ((∀ (s : State) (port : Nat), ∃ u : State, exec (.ethFrameDrop port) s = .next u ∧ { u with ctrs := s.ctrs } = s) ∧
   (∀ (s : State) (port : Nat) (r : EthReq) (data : List Byte), (s.eth port).link = true → mine s port r →
     exec (.arpRequest port r) s =
       .next { s with out := s.out ++ [.frame port r.mac (if r.v6 then 0x86DD else 0x0806) (be 6 (Config.mac port))] } ∧
     exec (.icmpEcho port r data) s = .next { s with out := s.out ++ [.frame port r.mac (if r.v6 then 129 else 1) data] }) ∧
   (∀ (s : State) (port : Nat) (r : EthReq) (data : List Byte), (s.eth port).link = true → ¬ mine s port r →
     exec (.arpRequest port r) s = .next s.ethDrop ∧ exec (.icmpEcho port r data) s = .next s.ethDrop) ∧
   (∀ (s : State) (port : Nat) (r : EthReq) (data : List Byte), (s.eth port).link = false →
     exec (.arpRequest port r) s = .next s ∧ exec (.icmpEcho port r data) s = .next s) ∧
   (∀ (s : State) (port t : Nat), ∃ u : State, exec (.ethLinkDown port t) s = .next u ∧ u.eth port = { s.eth port with link := false } ∧
     (∀ k, k ≠ port → u.eth k = s.eth k) ∧ (u.src (0x530 + port)).status = true ∧ ((s.src (0x530 + port)).status = false → (u.src (0x530 + port)).warn = true) ∧
     (∀ k, k ≠ 0x530 + port → u.src k = s.src k) ∧ { u with eths := s.eths, flt := s.flt, free := s.free } = s.at_ t) ∧
   (∀ (s : State) (port t : Nat), ∃ u : State, exec (.ethFecUncorr port t) s = .next u ∧ (u.src (0x530 + port)).status = true ∧
     ((s.src (0x530 + port)).status = false → (u.src (0x530 + port)).code = 0x0411) ∧ (∀ k, k ≠ 0x530 + port → u.src k = s.src k) ∧
     { u with flt := s.flt, free := s.free } = s.at_ t))

/-! ## Interrupts and messages (R345 to R348) -/

/-- The interrupt controller: a signal makes an idle source pending, an active one active and pending; a claim takes the lowest pending
source targeted at its core and gives its number, or the spurious number where there is none; completing an active and pending source makes it pending again; unmasking a vector sends its pending message;
numbers without a source are counted only; every signal of a source wakes the cores that it targets (R345 to R348). -/
def Obligations.Interrupts : Prop :=
  (∀ (s : State) (n : Nat), irqSource n = true → n ∉ s.irq.again → n ∉ s.irq.active → n ∉ s.irq.pending →
    exec (.irqSignal n) s = .next { s with irq := { s.irq with woken := s.irq.woken ||| s.irq.mask n, pending := s.irq.pending ++ [n] } }) ∧
  (∀ (s : State) (n : Nat), irqSource n = true → n ∉ s.irq.again → n ∈ s.irq.active →
    exec (.irqSignal n) s = .next { s with irq := { s.irq with woken := s.irq.woken ||| s.irq.mask n, again := s.irq.again ++ [n] } }) ∧
  (∀ (s : State) (n : Nat), (irqSource n = false ∨ n ∈ s.irq.again ∨ (n ∉ s.irq.active ∧ n ∈ s.irq.pending)) →
    ∃ u : State, exec (.irqSignal n) s = .next u ∧ (irqSource n = false → u.irq = s.irq) ∧
      (irqSource n = true → u.irq = { s.irq with woken := s.irq.woken ||| s.irq.mask n }) ∧ { u with ctrs := s.ctrs, irq := s.irq } = s) ∧
  (∀ (s : State) (t : Nat), 0xFFF ∉ s.irq.again → 0xFFF ∉ s.irq.active → 0xFFF ∉ s.irq.pending →
    ∃ u : State, exec (.maltsterTimer t) s = .next u ∧ u.irq = { s.irq with woken := s.irq.woken ||| s.irq.mask 0xFFF, pending := s.irq.pending ++ [0xFFF] } ∧ { u with irq := s.irq } = s.at_ t) ∧
  (∀ (s : State) (core n : Nat), n ∈ s.irq.pending → (s.irq.mask n).testBit core = true →
    (∀ m ∈ s.irq.pending, (s.irq.mask m).testBit core = true → n ≤ m) →
    ∃ u : State, exec (.irqClaim core) s = .next u ∧ n ∉ u.irq.pending ∧ n ∈ u.irq.active ∧
      (∀ m, m ≠ n → (m ∈ u.irq.pending ↔ m ∈ s.irq.pending) ∧ (m ∈ u.irq.active ↔ m ∈ s.irq.active)) ∧
      u.out = s.out ++ [.claim core n true] ∧ { u with irq := { u.irq with pending := s.irq.pending, active := s.irq.active }, out := s.out } = s) ∧
  (∀ (s : State) (core : Nat), (∀ m ∈ s.irq.pending, (s.irq.mask m).testBit core = false) →
    exec (.irqClaim core) s = .next { s with out := s.out ++ [.claim core 0xFFF false] }) ∧
  (∀ (s : State) (core n : Nat), n ∈ s.irq.active →
    ∃ u : State, exec (.irqComplete core n) s = .next u ∧ n ∉ u.irq.active ∧ n ∉ u.irq.again ∧ (n ∈ s.irq.again → n ∈ u.irq.pending) ∧
      (n ∉ s.irq.again → u.irq.pending = s.irq.pending) ∧ (∀ m, m ≠ n → (m ∈ u.irq.pending ↔ m ∈ s.irq.pending) ∧ (m ∈ u.irq.active ↔ m ∈ s.irq.active)) ∧
      { u with irq := s.irq } = s) ∧
  (∀ (s : State) (core n : Nat), n ∉ s.irq.active → exec (.irqComplete core n) s = .next s) ∧
  (∀ (s : State) (fn vec : Nat), s.pcie.up fn = false → exec (.msixUnmask fn vec) s = .next s) ∧
  (∀ (s : State) (fn vec : Nat), s.pcie.up fn = true →
    ∃ u : State, exec (.msixUnmask fn vec) s = .next u ∧ 4 * fn + vec ∉ u.irq.masked ∧ 4 * fn + vec ∉ u.irq.msiPend ∧
      u.out = s.out ++ (if 4 * fn + vec ∈ s.irq.msiPend then [.msix fn vec] else []) ∧
      (∀ k, k ≠ 4 * fn + vec → (k ∈ u.irq.masked ↔ k ∈ s.irq.masked) ∧ (k ∈ u.irq.msiPend ↔ k ∈ s.irq.msiPend)) ∧
      { u with irq := { u.irq with masked := s.irq.masked, msiPend := s.irq.msiPend }, out := s.out } = s)

/-! ## The taps' own events (R262 to R287) -/

/-- A doorbell value is accepted when it asks for no more than the ring's free slots, and a CPL_HEAD write when it frees no more than was
posted; a refused one keeps the value held and sets DB_ERR, counting the write, or CPL_ERR (R265). -/
def Obligations.Doorbells : Prop :=
  let rejects := fun (c : Ctr) (tap : Nat) => c.source == 0x0500 && c.sees (Ev.ofT tap)
  (∀ (s : State) (tap v : Nat), s.pcie.up tap = true → s.boot.ready = true → (s.tap tap).netMode = false → sub32 v (s.tap tap).cmdTail ≤ 64 - sub32 (s.tap tap).cmdTail (s.tap tap).cmdHead →
    ∃ u : State, exec (.tapDoorbellWrite tap v) s = .next u ∧ u.tap tap = { s.tap tap with cmdTail := v % 4294967296 } ∧ (∀ k, k ≠ tap → u.tap k = s.tap k) ∧
      { u with taps := s.taps, irq := s.irq, ctrs := s.ctrs } = s) ∧
  (∀ (s : State) (tap v : Nat), s.pcie.up tap = true → s.boot.ready = false →
    ∃ u : State, exec (.tapDoorbellWrite tap v) s = .next u ∧ u.tap tap = { s.tap tap with heldDb := (s.tap tap).heldDb ++ [v] } ∧
      (∀ k, k ≠ tap → u.tap k = s.tap k) ∧ { u with taps := s.taps } = s) ∧
  (∀ (s : State) (tap v : Nat), s.pcie.up tap = true → s.boot.ready = true → (s.tap tap).netMode = false → 64 - sub32 (s.tap tap).cmdTail (s.tap tap).cmdHead < sub32 v (s.tap tap).cmdTail →
    ∃ u : State, exec (.tapDoorbellWrite tap v) s = .next u ∧ u.tap tap = { s.tap tap with dbErr := true } ∧ (∀ k, k ≠ tap → u.tap k = s.tap k) ∧
      (∀ n, rejects (s.ctr n) tap = true → u.ctr n = (s.ctr n).add 1) ∧ (∀ n, rejects (s.ctr n) tap = false → u.ctr n = s.ctr n) ∧
      { u with taps := s.taps, ctrs := s.ctrs } = s) ∧
  (∀ (s : State) (tap v : Nat), s.pcie.up tap = false → exec (.tapDoorbellWrite tap v) s = .next s ∧ exec (.cplHeadWrite tap v) s = .next s) ∧
  (∀ (s : State) (tap w : Nat), s.pcie.up tap = true → let ok := sub32 w (s.tap tap).cplHead ≤ sub32 (s.tap tap).cplTail (s.tap tap).cplHead
    ∃ u : State, exec (.cplHeadWrite tap w) s = .next u ∧ (ok → u.tap tap = { s.tap tap with cplHead := w % 4294967296 }) ∧
      (¬ ok → u.tap tap = { s.tap tap with cplErr := true }) ∧ (∀ k, k ≠ tap → u.tap k = s.tap k) ∧ { u with taps := s.taps } = s)

/-- In network mode a doorbell is counted only; COMMAND_TAKE takes the next slot where the completion ring has room, and a command of the
expected SEQ joins the history and the dispatch queue; COMMAND_DISPATCH of a tap whose turn it is answers a slot that fails
the first checks with their status, and else does what the slot's row does with the operands it spells (shown of IDENT, BATCH_CREATE,
WAKE_BUDGET, TS_LOAD, START, STOP and TRIG_CONFIG); the tap then comes after all others, and a tap has its turn when
no other that is ready comes before it (R276, R278, R287; the order among taps never served: log 4); a mode change waits for an empty tap; a frame's command is taken like a slot's,
a frame for another tap is counted, and SEQ_QUERY is answered.

CANCEL, which its tap handles at take without a turn (R279), of a command still in its tap's queue takes it out and completes it with E_CANCELLED, itself with OK; one already dispatched gives
E_TOO_LATE. -/
def Obligations.TapEvents : Prop :=
  ((∀ (s : State) (tap v : Nat), s.pcie.up tap = true → s.boot.ready = true → (s.tap tap).netMode = true →
     ∃ u : State, exec (.tapDoorbellWrite tap v) s = .next u ∧ { u with ctrs := s.ctrs } = s) ∧
   (∀ (s : State) (tap : Nat), let x := s.tap tap
     let slot := x.slot x.cmdHead
     s.takes tap = true → x.netMode = false → s.modePending tap = false → x.cmdTail ≠ x.cmdHead → slotNeed slot ≤ x.freeSlots →
     fld slot 4 4 = x.expSeq → fld slot 0 2 ≠ 0x0115 →
     ∃ u : State, exec (.commandTake tap) s = .next u ∧ (u.tap tap).cmdHead = (x.cmdHead + 1) % 4294967296 ∧ (u.tap tap).expSeq = (x.expSeq + 1) % 4294967296 ∧
       (u.tap tap).dq = x.dq ++ [⟨x.expSeq, slot, [], none⟩] ∧
       (u.tap tap).hist = (x.hist ++ [(⟨x.expSeq, slotCrc slot [], none, [], [], none⟩ : Hist)]).drop (x.hist.length + 1 - 64) ∧
       (u.tap tap).old = x.old ++ (x.hist.take (x.hist.length + 1 - 64)).filter Hist.open_ ∧
       (u.tap tap).cplTail = x.cplTail ∧ (∀ k, k ≠ tap → u.tap k = s.tap k) ∧ { u with taps := s.taps } = s) ∧
   (∀ (s : State) (tap : Nat), let x := s.tap tap
     (s.takes tap = false ∨ x.netMode = true ∨ s.modePending tap = true ∨ x.cmdTail = x.cmdHead ∨ x.freeSlots < slotNeed (x.slot x.cmdHead)) →
     exec (.commandTake tap) s = .next s) ∧
   (∀ (s : State) (tap t : Nat) (q : QCmd) (qs : List QCmd), s.dispatches tap = true → (s.tap tap).dq = q :: qs →
     let s1 := s.setTap tap { s.tap tap with dq := qs }
     let h := slotHdr tap q.slot q.inl t
     let p := q.slot.drop 16
     let op := fld q.slot 0 2
     ∃ u v : State, exec (.commandDispatch tap t) s = .next v ∧ v = { u with served := u.served.filter (fun k => k != tap) ++ [tap] } ∧
       v.pending = s.pending ∧ (∀ k, k ≠ tap → v.ahead k tap = true) ∧
       (s.boot.bootSafe = true → op ≠ 0x0001 → op ≠ 0x000E → u = (s1.at_ t).post tap ⟨h.seq, 0x0501, 0, op, h.target, 0, []⟩ []) ∧
       ((s.boot.bootSafe = false ∨ op = 0x0001 ∨ op = 0x000E) → ∀ st, slotErr q.slot = some st → u = (s1.at_ t).post tap ⟨h.seq, st, 0, op, h.target, 0, []⟩ []) ∧
       ((s.boot.bootSafe = false ∨ op = 0x0001 ∨ op = 0x000E) → slotErr q.slot = none →
         (op = 0x0001 → exec (.ident h) s1 = .next u) ∧
         (op = 0x0002 → exec (.batchCreate { h with rsv := !zeros p 1 7 } (fld p 0 1)) s1 = .next u) ∧
         (op = 0x0011 → exec (.wakeBudget { h with rsv := !zeros p 2 6 } (fld p 0 2)) s1 = .next u) ∧
         (op = 0x0100 → exec (.tsLoad h (refAt p 0)) s1 = .next u) ∧
         (op = 0x0106 → exec (.start { h with rsv := decide (1 < fld p 41 1) || !zeros p 42 6 }
           ⟨pairAt p 0, fld p 16 8, fld p 24 16, fld p 40 1, (fld p 41 1).testBit 0⟩) s1 = .next u) ∧
         (op = 0x0107 → exec (.stop h) s1 = .next u) ∧
         (op = 0x0114 → exec (.trigConfig { h with rsv := !zeros p 3 1 } (fld p 0 1) (fld p 1 1) (fld p 2 1) (fld p 4 4)) s1 = .next u))) ∧
   (∀ (s : State) (tap t : Nat), (s.dispatches tap = false ∨ (s.tap tap).dq = []) → exec (.commandDispatch tap t) s = .next s) ∧
   (∀ (s : State) (tap : Nat), tap ≤ 16 → (s.dispatches tap = true ↔ s.takes tap = true ∧ (s.tap tap).running = none ∧
     ∀ k, k ≤ 16 → s.takes k = true → (s.tap k).running = none → (s.tap k).dq ≠ [] → s.ahead k tap = false)) ∧
   (∀ (s : State) (tap : Nat), s.modePending tap = true → (s.tap tap).dq = [] → (s.tap tap).running = none → (s.tap tap).asyncs = [] →
     ∃ u : State, exec (.tapModeChange tap) s = .next u ∧ u.tap tap = { s.tap tap with netMode := !(s.tap tap).netMode } ∧ (∀ k, k ≠ tap → u.tap k = s.tap k) ∧
       { u with taps := s.taps } = s) ∧
   (∀ (s : State) (tap : Nat), (s.modePending tap = false ∨ (s.tap tap).dq ≠ [] ∨ (s.tap tap).running ≠ none ∨ (s.tap tap).asyncs ≠ []) →
     exec (.tapModeChange tap) s = .next s) ∧
   (∀ (s : State) (src : NetSrc) (dport tap : Nat) (slot : List Byte), dport = s.udpPort → tap ≤ 16 → slot.length = 128 → (s.tap tap).netMode = true → s.takes tap = true →
     s.modePending tap = false → fld slot 4 4 = (s.tap tap).expSeq → fld slot 0 2 ≠ 0x0115 →
     ∃ u : State, exec (.tapFrameRx ⟨src, dport⟩ (tapHead 1 tap 0 ++ slot)) s = .next u ∧ (u.tap tap).dq = (s.tap tap).dq ++ [⟨fld slot 4 4, slot, [], some src⟩] ∧
       (u.tap tap).expSeq = ((s.tap tap).expSeq + 1) % 4294967296 ∧ (∀ k, k ≠ tap → u.tap k = s.tap k) ∧ { u with taps := s.taps } = s) ∧
   (∀ (s : State) (src : NetSrc) (dport : Nat) (f : List Byte), (dport ≠ s.udpPort ∨ f.length < 16 ∨ fld f 0 2 ≠ 0xA71C ∨ 16 < fld f 4 1 ∨ (s.tap (fld f 4 1)).netMode = false) →
     ∃ u : State, exec (.tapFrameRx ⟨src, dport⟩ f) s = .next u ∧ { u with ctrs := s.ctrs } = s) ∧
   (∀ (s : State) (src : NetSrc) (dport tap : Nat), dport = s.udpPort → tap ≤ 16 → (s.tap tap).netMode = true →
     ∃ u : State, exec (.seqQuery ⟨src, dport⟩ tap) s = .next u ∧
       u.out = s.out ++ [.frame src.port src.addr 4 (be 2 src.udp ++ tapHead 4 tap 0 ++ le 4 (s.tap tap).expSeq ++ le 1 (s.tap tap).asyncs.length ++ List.replicate 11 0)] ∧
       { u with out := s.out } = s)) ∧
  ((∀ (s : State) (h : Hdr) (q : QCmd), s.admits h 0x0115 [] = true → q.seq ≠ h.seq → (s.tap h.tap).dq = [q] →
     ∃ v : State, exec (.cancel h q.seq) s = .next (State.settle h 0x0115 (Res.ok
         (v.post h.tap ⟨q.seq, 0x0602, 2, fld q.slot 0 2, fld q.slot 10 2, 0, []⟩ []) [] []) none) ∧
       (v.tap h.tap) = { s.tap h.tap with dq := [] } ∧ (∀ k, k ≠ h.tap → v.tap k = s.tap k) ∧ { v with taps := s.taps } = s.at_ h.t) ∧
   (∀ (s : State) (h : Hdr) (tseq : Nat) (e : Hist), s.admits h 0x0115 [] = true → tseq ≠ h.seq → (s.tap h.tap).dq = [] →
     (s.tap h.tap).histOf tseq = some e → e.cpl.any (fun c => c.opcode == 0x0115) = false →
     exec (.cancel h tseq) s = .next (State.settle h 0x0115 (Res.err (s.at_ h.t) 0x0601) none)))

/-! ## Ethernet and cellar links (R409 to R428) -/

/-- Flits at a port that passes them: the flit of the expected SEQ is accepted and acknowledged, an earlier one acknowledged again, a later
one answered with a NAK; an ACK frees the replay buffer and returns credit; a NAK or an expired acknowledgement replays what is left, and
after four replays in succession the port retrains; after a retrain AUDIT_TX follows the replay, and an ACKSEQ that a NAK or SYNC flit
carries acts as an ACK (R414, R423); a bad CRC gives a NAK, a bad flit only counts (R415 to R421). No injection inverts a
CRC here.

An Ethernet port's own events complete: a dropped frame is counted, a link that goes down and an uncorrectable FEC word report, a port answers
an ARP request and an echo for its address (R411, R412). -/
def Obligations.FlitsAndReplay : Prop :=
  let clear := fun (s : State) (p : Nat) => assoc s.flt.inject (16 * (0x520 + p) + 2) = none
  let held := fun (x : Port) (ack : Nat) => x.replay.filter (fun f => decide (2048 ≤ (ack + 4096 - f.seq) % 4096))
  let resent := fun (s u : State) (p t : Nat) (x : Port) =>
    (x.replays < 4 → u.out = s.out ++ x.replay.map (fun f => .flit p (flitBytes f false)) ∧ u.port p = { x with replays := x.replays + 1 } ∧
      { u with cellar := { u.cellar with up := s.cellar.up, dn := s.cellar.dn }, out := s.out } = s.at_ t) ∧
    (4 ≤ x.replays → u.port p = { x with retrain := true, audited := false } ∧ { u with cellar := { u.cellar with up := s.cellar.up, dn := s.cellar.dn } } = s.at_ t)
  (∀ (s : State) (p : Nat) (f : Flit), p ≤ 1 → (s.port p).passes = true → f.ftype = 1 → f.seq = (s.port p).exp → f.ackv = false → f.vl < 4 →
    (s.port p).txq = [] → assoc (s.port p).rx f.vl = none → destOf f ≠ s.cdev → destOf f ≠ 0xFF →
    (destOf f = 0 → fld f.payload 2 1 = 4 → s.isRoot = false) → (s.port (1 - p)).up = false → clear s p →
    fld f.payload 3 1 = 1 →
    ∃ u : State, ∃ g : Flit, exec (.flitRxData p f) s = .next u ∧ (u.port p).exp = ((s.port p).exp + 1) % 4096 ∧ (u.port p).nak = false ∧
      u.out = s.out ++ [.flit p (flitBytes g false)] ∧ g.ftype = 5 ∧ g.ack = (s.port p).exp % 4096 ∧ (u.port p).replay = (s.port p).replay ∧ u.port (1 - p) = s.port (1 - p) ∧
      { u with cellar := { u.cellar with up := s.cellar.up, dn := s.cellar.dn }, out := s.out } = s) ∧
  (∀ (s : State) (p : Nat) (f : Flit), p ≤ 1 → (s.port p).passes = true → 1 ≤ f.ftype → f.ftype ≤ 4 → f.seq ≠ (s.port p).exp → f.ackv = false →
    (s.port p).txq = [] → clear s p →
    ∃ u : State, exec (.flitRxData p f) s = .next u ∧ (u.port p).exp = (s.port p).exp ∧ u.port (1 - p) = s.port (1 - p) ∧
      (((s.port p).exp + 4096 - f.seq) % 4096 ≤ 2048 → (∃ g : Flit, u.out = s.out ++ [.flit p (flitBytes g false)] ∧ g.ftype = 5) ∧ (u.port p).nak = (s.port p).nak) ∧
      (2048 < ((s.port p).exp + 4096 - f.seq) % 4096 → (u.port p).nak = true ∧
        u.out = s.out ++ (if (s.port p).nak then [] else [.flit p (flitBytes (plainFlit 6 0 false (le 2 (s.port p).exp)) false)])) ∧
      { u with cellar := { u.cellar with up := s.cellar.up, dn := s.cellar.dn }, out := s.out, ctrs := s.ctrs } = s) ∧
  (∀ (s : State) (p ack : Nat) (rel : List Nat), p ≤ 1 → (s.port p).passes = true → (s.port p).txq = [] →
    ∃ u : State, exec (.flitRxAck p ack rel) s = .next u ∧ (u.port p).replay = held (s.port p) ack ∧ (u.port p).exp = (s.port p).exp ∧
      ((u.port p).replay.length < (s.port p).replay.length → (u.port p).replays = 0) ∧
      (∀ vl, vl < 4 → vl < rel.length → (u.port p).relSeen.getD vl 0 = rel.getD vl 0 % 65536) ∧ u.port (1 - p) = s.port (1 - p) ∧
      { u with cellar := { u.cellar with up := s.cellar.up, dn := s.cellar.dn } } = s) ∧
  (∀ (s : State) (p ack : Nat) (rel : List Nat) (f : Flit), p ≤ 1 → (s.port p).passes = true → (s.port p).txq = [f] → f.vl < 4 → (s.port p).audited = true →
    (s.port p).replay = [] → f.vl < rel.length → rel.getD f.vl 0 < 65536 → (s.port p).sent.getD f.vl 0 = rel.getD f.vl 0 → (s.port p).sent.length = 4 → clear s p →
    ∃ u : State, ∃ g : Flit, exec (.flitRxAck p ack rel) s = .next u ∧ (u.port p).txq = [] ∧ (u.port p).replay = [g] ∧ u.out = s.out ++ [.flit p (flitBytes g false)] ∧
      g.seq = (s.port p).txSeq ∧ g.payload = f.payload ∧ (u.port p).txSeq = ((s.port p).txSeq + 1) % 4096 ∧
      (u.port p).sent.getD f.vl 0 = ((s.port p).sent.getD f.vl 0 + 1) % 65536 ∧ u.port (1 - p) = s.port (1 - p) ∧ { u with cellar := { u.cellar with up := s.cellar.up, dn := s.cellar.dn }, out := s.out } = s) ∧
  (∀ (s : State) (p nak : Nat), p ≤ 1 → (s.port p).passes = true → clear s p → let x := (s.port p).acked ((nak + 4095) % 4096)
    x.replay = held (s.port p) ((nak + 4095) % 4096) ∧
    ∃ u : State, exec (.flitRxNak ⟨p, none⟩ nak) s = .next u ∧ u.port (1 - p) = s.port (1 - p) ∧
      (x.audited = true → x.replay ≠ [] → resent s u p 0 x) ∧ (x.audited = true → x.replay = [] → u.port p = x ∧ u.out = s.out) ∧
      (x.audited = false → (x.replay = [] ∨ x.replays < 4) → u.out = s.out ++ x.replay.map (fun f => .flit p (flitBytes f false)) ++
        [.flit p (flitBytes (plainFlit 8 0 false (x.sent.flatMap (le 2) ++ x.relSeen.flatMap (le 2))) false)])) ∧
  (∀ (s v : State) (p a nak sender txT stamp : Nat) (g : Int), exec (.flitRxAck p a []) s = .next v →
    exec (.flitRxNak ⟨p, some a⟩ nak) s = exec (.flitRxNak ⟨p, none⟩ nak) v ∧
    exec (.syncFlitRx ⟨p, some a⟩ sender txT g stamp) s = exec (.syncFlitRx ⟨p, none⟩ sender txT g stamp) v) ∧
  (∀ (s : State) (p t : Nat), p ≤ 1 → (s.port p).passes = true → clear s p → (s.port p).replay ≠ [] →
    ∃ u : State, exec (.replayTimeout p t) s = .next u ∧ u.port (1 - p) = s.port (1 - p) ∧ resent s u p t (s.port p)) ∧
  (∀ (s : State) (p t : Nat), (s.port p).passes = true → (s.port p).nak = true → clear s p →
    ∃ u : State, exec (.nakRepeat p t) s = .next u ∧ u.out = s.out ++ [.flit p (flitBytes (plainFlit 6 0 false (le 2 (s.port p).exp)) false)] ∧ { u with out := s.out } = s.at_ t) ∧
  (∀ (s : State) (p : Nat), p ≤ 1 → (s.port p).passes = true → clear s p →
    ∃ u : State, exec (.flitCrcFail p) s = .next u ∧ u.port p = { s.port p with nak := true } ∧ u.port (1 - p) = s.port (1 - p) ∧
      u.out = s.out ++ (if (s.port p).nak then [] else [.flit p (flitBytes (plainFlit 6 0 false (le 2 (s.port p).exp)) false)]) ∧
      { u with cellar := { u.cellar with up := s.cellar.up, dn := s.cellar.dn }, out := s.out, ctrs := s.ctrs } = s) ∧
  (∀ (s : State) (p : Nat), ∃ u : State, exec (.linkBadFlit p) s = .next u ∧ ((s.port p).passes = false → u = s) ∧ { u with ctrs := s.ctrs } = s) ∧
  (∀ (s : State) (p t ack nak : Nat) (rel : List Nat) (f : Flit) (a : Option Nat), (s.port p).passes = false →
    exec (.flitRxData p f) s = .next s ∧ exec (.flitRxAck p ack rel) s = .next s ∧ exec (.flitRxNak ⟨p, a⟩ nak) s = .next s ∧
    exec (.replayTimeout p t) s = .next s ∧ exec (.flitCrcFail p) s = .next s ∧ exec (.syncFlitSend p t) s = .next s) ∧
  (∀ (s : State) (port t : Nat) (r : EthReq) (data : List Byte),
    (∃ u : State, exec (.ethFrameDrop port) s = .next u ∧ { u with ctrs := s.ctrs } = s) ∧
    (∃ u : State, exec (.ethLinkDown port t) s = .next u ∧ (u.eth port).link = false ∧ (u.src (0x530 + port)).status = true) ∧
    (∃ u : State, exec (.ethFecUncorr port t) s = .next u ∧ (u.src (0x530 + port)).status = true) ∧
    ((s.eth port).link = true → r.v6 = false → (s.eth port).en = true → r.target = (s.eth port).addr →
      (∃ u : State, exec (.arpRequest port r) s = .next u ∧ u.out = s.out ++ [.frame port r.mac 0x0806 (be 6 (Config.mac port))]) ∧
      (∃ u : State, exec (.icmpEcho port r data) s = .next u ∧ u.out = s.out ++ [.frame port r.mac 1 data])))

/-- The life of a link: a device takes the number after its UP neighbour's, or 0 without one, and 63 is the last; a link retrains and
names EXP, its counts follow in the audit and it passes flits again once both ends agree, else it goes down and faults; a training holds the
lanes' eye margins and warns of one below 25%; a port that comes up counts from zero;
SYNC flits carry the grid time, one for each whole multiple of 10 µs in the first slot from it on, and a partner whose grid time differs by more than 500 ps warns (R387, R393,
R422 to R427). -/
def Obligations.LinkLife : Prop :=
  let clear := fun (s : State) (p : Nat) => assoc s.flt.inject (16 * (0x520 + p) + 2) = none
  let ports := fun (s u : State) => { u with cellar := { u.cellar with up := s.cellar.up, dn := s.cellar.dn }, out := s.out }
  (∀ (s : State) (p t : Nat), (s.port p).passes = true → (s.port p).syncs * 10000000000 ≤ (s.at_ t).now → clear s p →
    ∃ u : State, exec (.syncFlitSend p t) s = .next u ∧
      u.out = s.out ++ [.flit p (flitBytes (plainFlit 7 0 false (timeBytes (s.at_ t).now ++ le 4 (toField 32 (s.at_ t).tb.gscale) ++ le 2 0)) false)] ∧
      u.port p = { s.port p with syncs := (s.at_ t).now / 10000000000 + 1 } ∧ ports s u = s.at_ t) ∧
  (∀ (s : State) (p t : Nat), (s.at_ t).now < (s.port p).syncs * 10000000000 → exec (.syncFlitSend p t) s = .next s) ∧
  (∀ (s : State) (p sender txT stamp : Nat), (s.port p).passes = true → stamp ≤ txT + 500000 → txT ≤ stamp + 500000 →
    exec (.syncFlitRx ⟨p, none⟩ sender txT (s.tb.scaleAt txT).2 stamp) s = .next s) ∧
  (∀ (s : State) (p sender txT stamp : Nat), (s.port p).passes = true → (stamp > txT + 500000 ∨ txT > stamp + 500000) → (s.src (0x520 + p)).status = false →
    ∃ u : State, exec (.syncFlitRx ⟨p, none⟩ sender txT (s.tb.scaleAt txT).2 stamp) s = .next u ∧ (u.src (0x520 + p)).status = true ∧
      (u.src (0x520 + p)).warn = true ∧ (u.src (0x520 + p)).code = 0x0406 ∧ (∀ k, k ≠ 0x520 + p → u.src k = s.src k) ∧ { u with flt := s.flt } = s) ∧
  (∀ (s : State) (p sender txT stamp b : Nat) (g : Int) (x : Batch), (s.port p).passes = true → g ≠ (s.tb.scaleAt txT).2 → 1 ≤ b → b ≤ 16 →
    s.batchesNaming [sender] = [b] → s.batch b = some x →
    ∃ u : State, ∃ y : Batch, exec (.syncFlitRx ⟨p, none⟩ sender txT g stamp) s = .next u ∧ (u.src (0x520 + p)).status = true ∧
      (u.src (0x700 + 16 * (b - 1) + 14)).status = true ∧ u.batch b = some y ∧ (x.active = true → (4, x.vh) ∈ y.causes) ∧
      (∀ k, k ≠ b → u.batch k = s.batch k) ∧ u.tb = s.tb) ∧
  (∀ (s : State) (c t : Nat), s.cellar.up.passes = true → s.cellar.cdev = 0xFF → s.cellar.tooLong = false → c < 63 →
    ∃ u : State, exec (.enumRx ⟨c, none⟩ t) s = .next u ∧ u.cellar = { s.cellar with
        cdev := c + 1, up := { s.cellar.up with partner := some c }, dn := { s.cellar.dn with partner := some (c + 2) } } ∧
      (s.cellar.dn.passes = false → u.out = s.out) ∧
      (s.cellar.dn.passes = true → clear s 1 → u.out = s.out ++ [.flit 1 (flitBytes (plainFlit 10 0 false (le 1 (c + 1))) false)]) ∧
      { u with cellar := s.cellar, out := s.out, flt := { u.flt with inject := s.flt.inject } } = s.at_ t) ∧
  (∀ (s : State) (t : Nat), s.cellar.up.passes = true → s.cellar.cdev = 0xFF → s.cellar.tooLong = false →
    ∃ u : State, exec (.enumRx ⟨63, none⟩ t) s = .next u ∧ u.cellar = { s.cellar with tooLong := true, up := { s.cellar.up with up := false } } ∧
      (u.src 0x520).status = true ∧ { u with cellar := s.cellar, flt := s.flt, free := s.free } = s.at_ t) ∧
  (∀ (s : State) (c t : Nat), (s.cellar.cdev ≠ 0xFF ∨ s.cellar.up.passes = false) → exec (.enumRx ⟨c, none⟩ t) s = .next s) ∧
  (∀ (s : State) (t : Nat), s.cellar.cdev ≠ 0xFF → exec (.enumTimeout t) s = .next s) ∧
  (∀ (s : State) (t : Nat), s.cellar.cdev = 0xFF → s.cellar.up.up = false → s.cellar.tooLong = false → s.boot.ready = true →
    ∃ u : State, exec (.enumTimeout t) s = .next u ∧ u.cellar = { s.cellar with cdev := 0, dn := { s.cellar.dn with partner := some 1 } } ∧
      { u with cellar := s.cellar, out := s.out, flt := { u.flt with inject := s.flt.inject } } = s.at_ t) ∧
  (∀ (s : State) (p t : Nat), p ≤ 1 → (s.port p).passes = true →
    ∃ u : State, exec (.linkRetrain p t) s = .next u ∧ u.port p = { s.port p with retrain := true, audited := false } ∧ u.port (1 - p) = s.port (1 - p) ∧
      { u with cellar := s.cellar } = s.at_ t) ∧
  (∀ (s : State) (p t : Nat) (eyes : List (Nat × Nat)), p ≤ 1 → (s.port p).up = true → (s.port p).retrain = true → clear s p → (∀ e ∈ eyes, 16 ≤ e.2) →
    let x := s.port p
    ∃ u : State, exec (.linkRetrainDone p t ⟨none, eyes⟩) s = .next u ∧
      u.port p = { x with retrain := false, nak := true, replays := 0, gotTx := none, eyes := eyes.foldl (fun m e => m.set 0 e.1 e.2) [] } ∧
      u.port (1 - p) = s.port (1 - p) ∧ (u.src (0x520 + p)).status = true ∧
      u.out = s.out ++ [.flit p (flitBytes (plainFlit 6 0 false (le 2 x.exp)) false)] ∧
      { ports s u with flt := s.flt, free := s.free } = s.at_ t) ∧
  (∀ (s : State) (p t lane eye : Nat), p ≤ 1 → (s.port p).up = true → (s.port p).retrain = true → eye < 16 →
    ∃ u : State, exec (.linkRetrainDone p t ⟨none, [(lane, eye)]⟩) s = .next u ∧ (u.port p).eyes.get 0 lane = eye ∧
      (u.src (0x500 + 8 * (2 * (lane / 8) + p) + lane % 8)).status = true ∧ (u.src (0x520 + p)).status = true) ∧
  (∀ (s : State) (p dir lane t : Nat) (eyes : List (Nat × Nat)), p ≤ 1 → (s.port p).up = true → (s.port p).retrain = true →
    ∃ u : State, exec (.linkRetrainDone p t ⟨some (dir, lane), eyes⟩) s = .next u ∧ (dir, lane) ∈ (u.port p).lanes ∧ (u.port p).retrain = false ∧
      u.port (1 - p) = s.port (1 - p) ∧ u.batches = s.batches) ∧
  (∀ (s : State) (p t : Nat) (tx : Audit), p ≤ 1 → (s.port p).passes = true → (s.port p).audited = false → clear s p →
    let x := s.port p
    ∃ u : State, exec (.auditRx ⟨p, none⟩ (some tx) none t) s = .next u ∧ u.port p = { x with gotTx := some tx.sent, nak := false } ∧
      u.port (1 - p) = s.port (1 - p) ∧ u.out = s.out ++ [.flit p (flitBytes
        (plainFlit 9 0 false (x.accepted.flatMap (le 2) ++ x.released.flatMap (le 2) ++ x.occ.flatMap (le 1))) false)] ∧ ports s u = s.at_ t) ∧
  (∀ (s : State) (p t : Nat) (tx : Option Audit) (rx : Audit) (sent : List Nat), p ≤ 1 → (s.port p).passes = true → (s.port p).audited = false → (s.port p).txq = [] →
    (∀ a, tx = some a → sent = a.sent) → (tx = none → (s.port p).gotTx = some sent) →
    (∀ vl, vl < 4 → sent.getD vl 0 = (s.port p).accepted.getD vl 0 ∧ (s.port p).sent.getD vl 0 = rx.accepted.getD vl 0 ∧
      occOk ((s.port p).accepted.getD vl 0) ((s.port p).released.getD vl 0) ((s.port p).occ.getD vl 0) = true ∧
      occOk (rx.accepted.getD vl 0) (rx.released.getD vl 0) (rx.occ.getD vl 0) = true) →
    ∃ u : State, exec (.auditRx ⟨p, none⟩ tx (some rx) t) s = .next u ∧ u.port p = { s.port p with
        audited := true, gotTx := none, nak := (s.port p).nak && tx.isNone, relSeen := (List.range 4).map (fun vl => rx.released.getD vl 0) } ∧
      u.port (1 - p) = s.port (1 - p) ∧ { ports s u with flt := { u.flt with inject := s.flt.inject } } = s.at_ t) ∧
  (∀ (s : State) (p t vl : Nat) (tx : Option Audit) (rx : Audit) (sent : List Nat), p ≤ 1 → (s.port p).passes = true → (s.port p).audited = false →
    (∀ a, tx = some a → sent = a.sent) → (tx = none → (s.port p).gotTx = some sent) → vl < 4 →
    (sent.getD vl 0 ≠ (s.port p).accepted.getD vl 0 ∨ (s.port p).sent.getD vl 0 ≠ rx.accepted.getD vl 0) →
    ∃ u : State, exec (.auditRx ⟨p, none⟩ tx (some rx) t) s = .next u ∧ (u.port p).up = false ∧ (u.src (0x520 + p)).status = true) ∧
  (∀ (s : State) (p t : Nat), p ≤ 1 → (s.port p).up = true →
    ∃ u : State, exec (.linkDown p t) s = .next u ∧ u.port p = { Port.zero with partner := (s.port p).partner, lanes := (s.port p).lanes } ∧
      (u.src (0x520 + p)).status = true ∧ (∀ b x, s.batch b = some x → x.active = false → u.batch b = s.batch b) ∧ u.dram = s.dram ∧ u.taps = s.taps) ∧
  (∀ (s : State) (p : Nat), p ≤ 1 → (s.port p).up = false → (p = 0 → s.cellar.tooLong = false) → (∀ h ∈ s.rep.heldOut, h.1 ≠ 7) →
    (∃ u : State, exec (.linkTrainRetry p) s = .next u ∧ u.port p = { s.port p with retrain := true } ∧ u.port (1 - p) = s.port (1 - p) ∧ { u with cellar := s.cellar } = s) ∧
    (∀ eyes : List (Nat × Nat), (∀ e ∈ eyes, 16 ≤ e.2) → ∃ u : State, exec (.linkUp ⟨p, eyes⟩) s = .next u ∧ u.port p = { Port.zero with
        up := true, partner := (s.port p).partner, lanes := (s.port p).lanes, audited := true, eyes := eyes.foldl (fun m e => m.set 0 e.1 e.2) [] } ∧
      u.port (1 - p) = s.port (1 - p) ∧ (∀ k, k ≠ 0x520 + p → u.src k = s.src k) ∧ { u with cellar := s.cellar, flt := s.flt, out := s.out } = s)) ∧
  (∀ (s : State) (p : Nat) (eyes : List (Nat × Nat)), ((s.port p).up = true ∨ (p = 0 ∧ s.cellar.tooLong = true)) →
    exec (.linkTrainRetry p) s = .next s ∧ exec (.linkUp ⟨p, eyes⟩) s = .next s)

/-! ## Power failure, resets and start-up (R255 to R258, R473 to R486, R506, R523 to R527) -/

/-- A power-fail warning after READY stops every batch, drops the wakes that wait and begins the last-gasp record; at a wake slot 10 µs on
the record stands with its MAGIC and CRC, and every domain but PD0, PD1 and PD47 is parked; before READY it only reports. The line's return
lifts the block 1 ms later, with the record written where it was not, or before READY resets; a thermal shutdown does what a warning does
and outlasts it (R255, R256, R258, R473, R474, R506; when the record is written: log 51).

The resets: a power-on, cold or rail-loss reset leaves the reset state (but for the retention memory of the last two, the map copies in
flash and the rows repaired in the stacks); a fundamental reset resets every tap, the configuration space and the tables of messages; a function-level reset resets the tap and the
table of its function alone. The commands
that wait, what has been sent and the free values used are no part of the block and stay (R286, R475, R476, R497, R524; log 1, log 14, log
18).

Start-up itself raises READY, as does a warm reset; a boot-window load begins and ends; the retention memory is cleared (R475, R477, R523,
R527). -/
def Obligations.ResetsAndPowerFailure : Prop :=
  (let failed := fun (u : State) (cause tw : Nat) => (∀ b, u.isActive b = false) ∧ u.pwr.pwrfailLow = true ∧ (u.src 0x001).status = true ∧
     u.boot.retWriting = true ∧ (∃ g : Gasp, u.boot.gasp = some g ∧ g.cause = cause ∧ g.tw = tw) ∧ (∀ w ∈ u.pwr.queue, w.ramp = true) ∧ u.boot.ready = true
   let written := fun (u : State) (g : Gasp) => (∀ b, u.isActive b = false) ∧ u.boot.retWriting = false ∧ u.boot.gasp = none ∧
     unle (Memory.reads u.boot.ret 0 4) = 0x4C415354 ∧ Memory.reads u.boot.ret 6 1 = le 1 g.cause ∧ Memory.reads u.boot.ret 8 16 = timeBytes g.tw ∧
     u.boot.gaspWhole = true ∧ (∀ d, 2 ≤ d → d ≤ 51 → d ≠ 47 → u.powered d = false)
   (∀ (s : State) (t : Nat), s.pwr.pwrfailLow = false → s.boot.ready = true →
     ∃ u : State, exec (.pwrfailWarning t) s = .next u ∧ failed u 0 (s.at_ t).now ∧ u.pwr.shut = s.pwr.shut ∧ u.pwr.on = s.pwr.on ∧
       u.boot.ret = s.boot.ret) ∧
   (∀ (s : State) (g : Gasp) (t : Nat), s.boot.gasp = some g → g.cause < 256 → g.tw + 10000000000 ≤ t → t % 10000000000 = 0 →
     ∃ u : State, exec (.wakeSlot t) s = .next u ∧ written u g ∧ u.powered 47 = s.powered 47 ∧ u.powered 0 = s.powered 0 ∧ u.powered 1 = s.powered 1) ∧
   (∀ (s : State) (t : Nat), s.pwr.pwrfailLow = false → s.boot.ready = false →
     ∃ u : State, exec (.pwrfailWarning t) s = .next u ∧ (u.src 0x001).status = true ∧ u.pwr = { s.pwr with pwrfailLow := true } ∧ u.boot = s.boot ∧ u.dram = s.dram) ∧
   (∀ (s : State) (t : Nat), s.pwr.pwrfailLow = true → exec (.pwrfailWarning t) s = .next s) ∧
   (∀ (s : State) (t : Nat), s.pwr.pwrfailLow = true → s.pwr.shut = false → s.boot.ready = true → s.boot.gasp = none →
     ∃ u : State, exec (.pwrfailReturn t) s = .next u ∧ u.pwr = { s.pwr with pwrfailLow := false, wakeBlock := t + 1000000000000 } ∧
       u.boot = s.boot ∧ (u.src 0x001).level = none ∧ (u.src 0x001).status = (s.src 0x001).status ∧
       { u with pwr := s.pwr, boot := s.boot, flt := s.flt } = s.at_ t) ∧
   (∀ (s : State) (g : Gasp) (t : Nat), s.pwr.pwrfailLow = true → s.pwr.shut = false → s.boot.ready = true → s.boot.gasp = some g → g.cause < 256 →
     ∃ u : State, exec (.pwrfailReturn t) s = .next u ∧ written u g ∧ u.pwr.pwrfailLow = false ∧ u.pwr.wakeBlock = t + 1000000000000) ∧
   (∀ (s : State) (t : Nat), s.pwr.pwrfailLow = true → s.pwr.shut = false → s.boot.ready = false → exec (.pwrfailReturn t) s = exec .coldReset s) ∧
   (∀ (s : State) (t : Nat), (s.pwr.pwrfailLow = false ∨ s.pwr.shut = true) → exec (.pwrfailReturn t) s = .next s) ∧
   (∀ (s : State) (t : Nat), s.pwr.pwrfailLow = false → s.boot.ready = true → ∃ u : State, exec (.thermalShutdown t) s = .next u ∧ failed u 1 (s.at_ t).now ∧ u.pwr.shut = true) ∧
   (∀ (s : State) (t : Nat), s.pwr.pwrfailLow = true → exec (.thermalShutdown t) s = .next { s with pwr := { s.pwr with shut := true } })) ∧
  (let after := fun (s : State) => { State.reset with pending := s.pending, free := s.free, out := s.out, rep := { State.reset.rep with copies := s.rep.copies }, dram := { State.reset.dram with stackTab := s.dram.rows } }
   (∀ s : State, exec .powerOnReset s = .next (after s)) ∧
   (∀ s : State, exec .coldReset s = .next { after s with boot := { Boot.zero with ret := s.boot.ret } } ∧
     exec .railLoss s = .next { after s with boot := { Boot.zero with ret := s.boot.ret } }) ∧
   (∀ s : State, ∃ u : State, exec .pcieFundamentalReset s = .next u ∧
     (∀ t, t ≤ 16 → u.tap t = { Tap.zero with ring := (s.tap t).ring, netMode := (s.tap t).netMode, dbErr := (s.tap t).dbErr, cplErr := (s.tap t).cplErr }) ∧
     u.pcie = Pcie.zero ∧ u.irq.masked = List.range 68 ∧ u.irq.msiPend = [] ∧ u.irq.msiTab = [] ∧ u.irq.pending = s.irq.pending ∧ u.dram = s.dram ∧ u.flt = s.flt ∧ u.pwr = s.pwr ∧ u.tb = s.tb ∧
     (∀ b x, u.batch b = some x → ∃ y, s.batch b = some y ∧ x.state = y.state ∧ x.seq = y.seq ∧ x.prog = y.prog)) ∧
   (∀ (s : State) (fn : Nat), fn ≠ 0 → (s.pcie.vfEnable = false ∨ s.pcie.numVfs < fn) → exec (.functionLevelReset fn) s = .next s) ∧
   (∀ (s : State) (fn : Nat), (fn = 0 ∨ (s.pcie.vfEnable = true ∧ fn ≤ s.pcie.numVfs)) → ∃ u : State, exec (.functionLevelReset fn) s = .next u ∧
     u.tap fn = { Tap.zero with ring := (s.tap fn).ring, netMode := (s.tap fn).netMode, dbErr := (s.tap fn).dbErr, cplErr := (s.tap fn).cplErr } ∧ (∀ k, k ≠ fn → u.tap k = s.tap k) ∧
     u.win fn = Window64.zero ∧ (∀ k, k ≠ fn → u.win k = s.win k) ∧ (∀ v, v < 4 → 4 * fn + v ∈ u.irq.masked ∧ 4 * fn + v ∉ u.irq.msiPend) ∧
     (∀ m, m / 4 ≠ fn → (m ∈ u.irq.masked ↔ m ∈ s.irq.masked) ∧ (m ∈ u.irq.msiPend ↔ m ∈ s.irq.msiPend)) ∧ u.dram = s.dram ∧ u.flt = s.flt ∧ u.pwr = s.pwr)) ∧
  ((∀ (s : State) (i : Image) (win refin : Bool) (m : BootCal) (t : Nat), s.boot.ready = false → s.pwr.pwrfailLow = false →
     ∃ u : State, exec (.startUp i win refin m t) s = .next u ∧ u.boot.ready = true) ∧
   (∀ (s : State) (i : Image) (m : BootCal) (t : Nat), s.pwr.shut = false → s.pwr.pwrfailLow = false → s.boot.bwStrap = false → s.boot.gasp = none →
     verifyImage i = 0 → ∃ u : State, exec (.warmReset ⟨i, m⟩ t) s = .next u ∧ u.batches = [] ∧ u.boot.ready = true) ∧
   (∀ (s : State) (persist : Bool), s.boot.bwOpen = true → s.boot.bwBusy = false → 1 ≤ s.boot.bwLen → s.boot.bwLen ≤ 8388608 →
     ∃ u : State, exec (.bwLoad true persist) s = .next u ∧ u.boot.bwBusy = true) ∧
   (∀ (s : State) (i : Image) (ok : Bool) (m : BootCal) (t : Nat), s.boot.bwBusy = true → verifyImage i = 0 →
     ∃ u : State, exec (.bwLoadDone i ok m t) s = .next u ∧ u.boot.bwBusy = false ∧ u.boot.ready = true) ∧
   (∀ s : State, s.boot.retWriting = false → ∃ u : State, exec .retClear s = .next u ∧ u.boot.ret = []))

/-- START_UP with an image that verifies raises READY with every domain powered, memory cleared and the configuration block's budget in
force; with BOOT_WIN high, or an image that does not verify, it ends in the boot-safe state with the boot window open; a warm reset drops
every batch, keeps the PCIe configuration, and starts up again (R354, R475 to R486). A load through the boot window, and the clearing of the retention memory, do what
R523 and R527 say. -/
def Obligations.StartUpAndWarmReset : Prop :=
  let up := fun (i : Image) (src : Nat) (u : State) => u.boot.ready = true ∧ u.boot.bootSafe = false ∧ u.boot.bwOpen = false ∧ u.boot.source = src ∧ u.boot.verify = 0 ∧
    u.boot.fwPatch = i.fwPatch ∧ u.boot.patch = i.ucode ∧ (∀ d, d ≤ 51 → u.powered d = true) ∧ u.dram.mem = [] ∧ u.dram.owner = [] ∧ u.dram.poison = [] ∧ u.dram.flip = [] ∧
    u.pwr.budget = (if i.devFlags.testBit 2 then i.budget else 40) ∧ (∀ p, p < 2 → (u.eth p).link = true)
  (∀ (s : State) (i : Image) (refin : Bool) (m : BootCal) (t : Nat), s.boot.ready = false → s.pwr.pwrfailLow = false → verifyImage i = 0 →
    ∃ u : State, exec (.startUp i false refin m t) s = .next u ∧ up i 0 u ∧ u.boot.ret = s.boot.ret ∧ u.batches = s.batches ∧ u.out = s.out) ∧
  (∀ (s : State) (i : Image) (refin : Bool) (m : BootCal) (t : Nat), s.boot.ready = false → s.pwr.pwrfailLow = false →
    ∃ u : State, exec (.startUp i true refin m t) s = .next u ∧ u.boot.ready = true ∧ u.boot.bootSafe = true ∧ u.boot.bwOpen = true ∧
      (∀ d, 2 ≤ d → d ≤ 51 → d ≠ 47 → u.powered d = false)) ∧
  (∀ (s : State) (i : Image) (refin : Bool) (m : BootCal) (t : Nat), s.boot.ready = false → s.pwr.pwrfailLow = false → verifyImage i ≠ 0 →
    ∃ u : State, exec (.startUp i false refin m t) s = .next u ∧ u.boot.ready = true ∧ u.boot.bootSafe = true ∧ u.boot.bwOpen = true ∧
      u.boot.verify = verifyImage i ∧ (u.src 0x030).status = true) ∧
  (∀ (s : State) (i : Image) (w r : Bool) (m : BootCal) (t : Nat), (s.boot.ready = true ∨ s.pwr.pwrfailLow = true) → exec (.startUp i w r m t) s = .next s) ∧
  (∀ (s : State) (i : Image) (m : BootCal) (t : Nat), s.pwr.shut = false → s.pwr.pwrfailLow = false → s.boot.bwStrap = false → s.boot.gasp = none → verifyImage i = 0 →
    ∃ u : State, exec (.warmReset ⟨i, m⟩ t) s = .next u ∧ up i 0 u ∧ u.batches = [] ∧ u.waits = [] ∧ u.boot.ret = s.boot.ret ∧ u.cellar.cdev = s.cellar.cdev ∧
      (∀ p, { u.port p with lanes := (s.port p).lanes, retrain := (s.port p).retrain, audited := (s.port p).audited } = s.port p) ∧
      u.fixture = s.fixture ∧ u.pace = s.pace ∧ u.pcie = s.pcie ∧ u.irq.masked = s.irq.masked ∧ u.irq.msiTab = s.irq.msiTab ∧ (∀ t, u.tap t = Tap.zero)) ∧
  (∀ (s : State) (i : Image) (m : BootCal) (t : Nat), s.pwr.shut = true → exec (.warmReset ⟨i, m⟩ t) s = .next s) ∧
  (∀ (s : State) (persist : Bool), exec (.bwLoad false persist) s = .next s) ∧
  (∀ (s : State) (persist : Bool), s.boot.bwOpen = true → s.boot.bwBusy = false → 1 ≤ s.boot.bwLen → s.boot.bwLen ≤ 8388608 →
    exec (.bwLoad true persist) s = .next { s with boot := { s.boot with bwBusy := true, bwPersist := persist } }) ∧
  (∀ (s : State) (persist : Bool), (s.boot.bwOpen = false ∨ s.boot.bwBusy = true ∨ s.boot.bwLen = 0 ∨ 8388608 < s.boot.bwLen) →
    exec (.bwLoad true persist) s = .next { s with boot := { s.boot with bwReqErr := true } }) ∧
  (∀ (s : State) (i : Image) (ok : Bool) (m : BootCal) (t : Nat), s.boot.bwBusy = true → verifyImage i = 0 →
    ∃ u : State, exec (.bwLoadDone i ok m t) s = .next u ∧ up i 1 u ∧ u.boot.bwPersistFail = (s.boot.bwPersist && !ok) ∧ u.boot.ret = s.boot.ret) ∧
  (∀ (s : State) (i : Image) (ok : Bool) (m : BootCal) (t : Nat), s.boot.bwBusy = true → verifyImage i ≠ 0 →
    ∃ u : State, exec (.bwLoadDone i ok m t) s = .next u ∧ u.boot.bwBusy = false ∧ u.boot.bwVerify = verifyImage i ∧ u.boot.ready = s.boot.ready ∧
      u.boot.bootSafe = s.boot.bootSafe ∧ u.boot.bwBuf = s.boot.bwBuf ∧ (u.src 0x030).status = true ∧ u.pwr = s.pwr ∧ u.dram = s.dram) ∧
  (∀ s : State, exec .retClear s = .next { s with boot := if s.boot.retWriting then { s.boot with clrRefused := true } else { s.boot with ret := [] } })

/-! ## Registers, counters and BAR2 (R407, R487 to R497, R518 to R527) -/

/-- Register accesses: a read of DEVTIME latches the grid time of the present phase-clock cycle, a read of CNT_LO latches the counter's
other half, OVF clears when asked; a register write reaches the fields that are written alone, a virtual function reaches none of the
physical function's; an access of another size, or of a function that does not exist, is ignored. -/
def Obligations.RegisterAccesses : Prop :=
  (∀ (s : State) (fn t : Nat), s.pcie.up fn = true →
    ∃ u : State, exec (.devtimeRead fn t) s = .next u ∧ (u.win fn).devtime = (s.at_ t).now / cycle * cycle ∧ (u.win fn).map = (s.win fn).map ∧
      (u.win fn).latch = (s.win fn).latch ∧ (∀ k, k ≠ fn → u.win k = s.win k) ∧ { u with wins := s.wins } = s.at_ t) ∧
  (∀ (s : State) (fn slot : Nat), let n := (s.win fn).ctr slot
    s.pcie.up fn = true →
    ∃ u : State, exec (.cntLoRead fn slot) s = .next u ∧
      (s.reaches fn n = true → (u.win fn).latch.get (0, false) slot = (s.ctrValue (s.ctr n) / 4294967296, (s.ctr n).ovf)) ∧
      (s.reaches fn n = false → (u.win fn).latch.get (0, false) slot = (0, false)) ∧ (∀ k, k ≠ fn → u.win k = s.win k) ∧
      (u.win fn).map = (s.win fn).map ∧ (u.win fn).devtime = (s.win fn).devtime ∧ { u with wins := s.wins } = s) ∧
  (∀ (s : State) (fn slot : Nat), let n := (s.win fn).ctr slot
    (s.pcie.up fn = true → s.reaches fn n = true →
      ∃ u : State, exec (.cntOvfClear fn slot) s = .next u ∧ u.ctr n = { s.ctr n with ovf := false } ∧ (∀ k, k ≠ n → u.ctr k = s.ctr k) ∧
      { u with ctrs := s.ctrs } = s) ∧
    (s.reaches fn n = false → exec (.cntOvfClear fn slot) s = .next s)) ∧
  (∀ (s : State) (fn slot t : Nat), s.pcie.up fn = false →
    exec (.devtimeRead fn t) s = .next s ∧ exec (.cntLoRead fn slot) s = .next s ∧ exec (.cntOvfClear fn slot) s = .next s) ∧
  (∀ s : State, s.pcie.up 0 = true →
    (∀ v, exec (.registerWrite 0 0x30 8 v) s = .next { s with netTaps := v % 4294967296 % 131072, udpPort := v / 4294967296 % 65536 }) ∧
    (∀ v, v < 18446744073709551616 → exec (.registerWrite 0 0x78 8 v) s = .next { s with pwr := { s.pwr with idlepark := v &&& idleparkBits } }) ∧
    (∀ v, exec (.registerWrite 0 0x418 4 v) s = .next { s with flt := { s.flt with maskF := v % 512, maskW := v / 65536 % 512 } }) ∧
    (∀ v, exec (.registerWrite 0 0x420 4 v) s = .next { s with flt := { s.flt with autorack := v % 16 } }) ∧
    (∀ v, v < 1000000000000000 → exec (.registerWrite 0 0xB8 8 v) s = .next { s with tb := { s.tb with gsTimeF := v } }) ∧
    (∀ v, 1000000000000000 ≤ v → v < 18446744073709551616 → exec (.registerWrite 0 0xB8 8 v) s = .next { s with tb := { s.tb with cfgErr := true } }) ∧
    (∀ v, v.testBit 3 = true → exec (.registerWrite 0 0x80 4 v) s = .next { s with tb := { s.tb with cfgErr := false } }) ∧
    (∀ v, exec (.registerWrite 0 0x900 4 v) s =
      .next (if s.boot.bwOpen then { s with boot := { s.boot with bwLen := v % 4294967296 } } else s))) ∧
  (∀ (s : State) (fn k v : Nat), s.pcie.up fn = true → k < 1024 → v < 18446744073709551616 →
    ∃ u : State, exec (.registerWrite fn (0x1000 + 8 * k) 8 v) s = .next u ∧ Memory.reads (u.tap fn).ring (8 * k) 8 = le 8 v ∧
      (∀ a, (a < 8 * k ∨ 8 * k + 8 ≤ a) → Memory.read (u.tap fn).ring a = Memory.read (s.tap fn).ring a) ∧ (∀ t, t ≠ fn → u.tap t = s.tap t) ∧
      { u with taps := s.taps } = s) ∧
  (∀ (s : State) (fn slot v : Nat), s.pcie.up fn = true → slot < 8 → v < 18446744073709551616 →
    ∃ u : State, exec (.registerWrite fn (0x300 + 8 * slot) 8 v) s = .next u ∧ (∀ j, j < 8 → (u.win fn).ctr (8 * slot + j) = v / 2 ^ (8 * j) % 256) ∧
      (∀ j, (j < 8 * slot ∨ 8 * slot + 8 ≤ j) → (u.win fn).ctr j = (s.win fn).ctr j) ∧ (u.win fn).latch = (s.win fn).latch ∧ (∀ k, k ≠ fn → u.win k = s.win k) ∧
      { u with wins := s.wins } = s) ∧
  (∀ (s : State) (fn off size v : Nat), 1 ≤ fn → (off < 0x28 ∨ (0x30 ≤ off ∧ off < 0x300) ∨ (0x340 ≤ off ∧ off < 0x1000) ∨ 0x3000 ≤ off) →
    exec (.registerWrite fn off size v) s = .next s) ∧
  (∀ (s : State) (fn off size v : Nat), ((size ≠ 4 ∧ size ≠ 8) ∨ off % 4 ≠ 0 ∨ s.pcie.up fn = false) → exec (.registerWrite fn off size v) s = .next s)

/-- BAR2: a write into regions of the function's batch is performed, byte for byte and nowhere else; a read of clean words answers their bytes;
outside them, or on a stack that is frozen, out of service or in another training, a write is discarded, a read answers zeros, and either
is counted; during a retraining for temperature an access waits; a function that does not exist, and an offset beyond the BAR2 size, reach
nothing; while the boot window is open an access reaches the window's buffer alone (R240, R405 to R407, R480, R523). -/
def Obligations.HostAccesses : Prop :=
  let quiet := fun (s : State) => ∀ p ∈ s.batches, p.2.streams = [] ∧ p.2.flow.loaded = false
  let here := fun (s : State) (fn off n : Nat) => s.pcie.up fn = true ∧ off + n ≤ s.pcie.bar2Size fn
  let served := fun (s : State) (off n : Nat) => (s.stack (aStack off)).frozen = false ∧ s.stackOffline (aStack off) = false ∧
    (s.stack (aStack off)).otherTraining off n = false
  (∀ (s : State) (fn off len : Nat) (data : List Byte), data ≠ [] → here s fn off data.length → s.boot.bwOpen = false →
    s.inRegion fn off data.length = true → served s off data.length → (s.stack (aStack off)).retraining = false → quiet s →
    s.cleanBlock off data.length = true → (∀ a, off ≤ a → a < off + data.length → (s.stack (aStack a)).frozen = false) →
    ∃ u : State, exec (.bar2Access fn off true data len) s = .next u ∧ u.peek off data.length = data ∧
      (∀ a, (a < off ∨ off + data.length ≤ a) → Memory.read u.dram.mem a = Memory.read s.dram.mem a) ∧ u.dram.owner = s.dram.owner ∧
      u.dram.poison = s.dram.poison ∧ u.dram.stackTab = s.dram.stackTab ∧ { u with dram := s.dram, flt := s.flt, free := s.free } = s) ∧
  (∀ (s : State) (fn off len : Nat), 1 ≤ len → here s fn off len → s.boot.bwOpen = false → s.inRegion fn off len = true → served s off len →
    (s.stack (aStack off)).retraining = false → s.cleanBlock off len = true →
    exec (.bar2Access fn off false [] len) s = .next { s with out := s.out ++ [.read fn (s.peek off len)] }) ∧
  (∀ (s : State) (fn off len : Nat) (write : Bool) (data : List Byte), let n := if write then data.length else len
    here s fn off n → s.boot.bwOpen = false → quiet s → s.inRegion fn off (max 1 n) = true → served s off n → (s.stack (aStack off)).retraining = true →
    exec (.bar2Access fn off write data len) s =
      .next (s.setStack (aStack off) { s.stack (aStack off) with held := (s.stack (aStack off)).held ++ [⟨fn, off, write, data, len⟩] })) ∧
  (∀ (s : State) (fn off len : Nat) (write : Bool) (data : List Byte), let n := if write then data.length else len
    here s fn off n → s.boot.bwOpen = false → quiet s →
    (s.inRegion fn off (max 1 n) = false ∨ (s.stack (aStack off)).frozen = true ∨ s.stackOffline (aStack off) = true ∨
      (s.stack (aStack off)).otherTraining off n = true) →
    ∃ u : State, exec (.bar2Access fn off write data len) s = .next u ∧
      u.out = (if write then s.out else s.out ++ [.read fn (List.replicate len 0)]) ∧ { u with ctrs := s.ctrs, out := s.out } = s) ∧
  (∀ (s : State) (fn off len : Nat) (write : Bool) (data : List Byte), quiet s →
    (s.pcie.up fn = false ∨ s.pcie.bar2Size fn < off + (if write then data.length else len)) → exec (.bar2Access fn off write data len) s = .next s) ∧
  (∀ (s : State) (off len : Nat) (data : List Byte), s.boot.bwOpen = true → here s 0 off len → off + max 1 len ≤ 8388608 →
    exec (.bar2Access 0 off false data len) s = .next { s with out := s.out ++ [.read 0 (Memory.reads s.boot.bwBuf off len)] }) ∧
  (∀ (s : State) (off len : Nat) (data : List Byte), s.boot.bwOpen = true → s.boot.bwBusy = false → quiet s → here s 0 off data.length →
    off + max 1 data.length ≤ 8388608 →
    ∃ u : State, exec (.bar2Access 0 off true data len) s = .next u ∧ (∀ i, i < data.length → u.boot.bwBuf.get 0 (off + i) = data.getD i 0) ∧
      (∀ a, (a < off ∨ off + data.length ≤ a) → u.boot.bwBuf.get 0 a = s.boot.bwBuf.get 0 a) ∧ { u with boot := { u.boot with bwBuf := s.boot.bwBuf } } = s) ∧
  (∀ (s : State) (fn off len : Nat) (data : List Byte), s.boot.bwOpen = true → fn ≠ 0 → quiet s →
    ∃ u : State, exec (.bar2Access fn off true data len) s = .next u ∧ { u with ctrs := s.ctrs } = s)

/-! ## The pattern memory (R244, R355 to R373) -/

/-- Requests and returns: a request within one 128-byte block joins its stack's transactions where there is room, and a write's bytes stand in
memory and nowhere else; without room, or on a stack that serves none now, it waits; one outside the batch's regions is not performed; of two
that wait tap 0 and the engine go first, then the batch with the least VF, then the lower batch number, then the lower class, then the
branch whose turn it is (the first and the last of these: log 37); a return takes its transaction off and lets a waiting request in; a
correctable error is counted; an uncorrectable one under REPLAY poisons its word, under FREEZE stops the stack with the failing command kept;
a parity alert replays from its command, trains the command lanes after three, and freezes (R244, R245, R355, R357, R361 to R365).

Upkeep of a stack: a due refresh is issued, or postponed up to 8 while class 0 has requests; the patrol scrub corrects, or poisons;
tracking steps move a lane within its range; a due retraining begins once no active batch holds a region of the stack, its end takes
the eye widths and serves the host accesses that waited; a woken stack is cleared before it serves (R354, R358, R366 to R369, R371,
R373). -/
def Obligations.MemoryTrafficAndUpkeep : Prop :=
  ((∀ (s : State) (cls a br t : Nat) (op : DramOp), let q := aStack a
     let k := s.stack q
     let n := opSize op a
     let r := opReq op 0 cls a br
     blockOk a n = true → s.inRegion 0 a n = true → s.stackOffline q = false → k.frozen = false → k.retraining = false → k.reqs = [] → k.room r = true →
     (s.cleanBlock a n = true ∨ (a % 32 = 0 ∧ n % 32 = 0)) →
     ∃ u : State, exec (.dramRequest 0 cls a br op t) s = .next u ∧ u.stack q = k.issue r.tr ∧ (u.stack q).flight = k.flight ++ [r.tr] ∧
       (∀ j, j ≠ q → u.stack j = s.stack j) ∧ (∀ d, op = .write d → u.peek a d.length = d) ∧
       (∀ c, (c < a ∨ a + n ≤ c ∨ (∃ w, op = .read w)) → Memory.read u.dram.mem c = Memory.read s.dram.mem c) ∧
       { u with dram := s.dram, flt := s.flt, ctrs := s.ctrs, free := s.free } = s.at_ t) ∧
   (∀ (s : State) (b cls a br w t : Nat) (x : Batch), let q := aStack a
     let k := s.stack q
     let r := opReq (.read w) b cls a br
     b ≠ 0 → s.batch b = some x → blockOk a (opSize (.read w) a) = true → s.inRegion b a (opSize (.read w) a) = true →
     s.stackOffline q = false → k.frozen = false → k.retraining = false → k.reqs = [] → k.room r = true →
     ∃ u : State, exec (.dramRequest b cls a br (.read w) t) s = .next u ∧ (u.stack q).flight = k.flight ++ [⟨b, cls, a, r.tr.words, br, false⟩] ∧
       (u.stack q).reqs = [] ∧ (u.stack q).vf.get 0 b = (k.vf.get 0 b + r.tr.words * vfCost x.weight) % 1099511627776 ∧
       (∀ c, c ≠ b → (u.stack q).vf.get 0 c = k.vf.get 0 c) ∧ u.dram.mem = s.dram.mem ∧ u.batches = s.batches) ∧
   (∀ (s : State) (b cls a br t : Nat) (op : DramOp), let q := aStack a
     let r := opReq op b cls a br
     (b = 0 ∨ (s.batch b).isSome) → blockOk a (opSize op a) = true → s.inRegion b a (opSize op a) = true →
     (s.stackOffline q = true ∨ (s.stack q).frozen = true ∨ (s.stack q).retraining = true ∨ ((s.stack q).asks r).choose = none) →
     ∃ u : State, exec (.dramRequest b cls a br op t) s = .next u ∧ (u.stack q).reqs = (s.stack q).reqs ++ [r] ∧
       (u.stack q).flight = (s.stack q).flight ∧ (b = 0 → (u.stack q).vf = (s.stack q).vf) ∧ (∀ j, j ≠ q → u.stack j = s.stack j) ∧
       u.dram.mem = s.dram.mem ∧ { u with dram := s.dram } = s.at_ t) ∧
   (∀ (s : State) (b cls a br t : Nat) (op : DramOp), (blockOk a (opSize op a) = false ∨ (b = 0 ∧ s.inRegion 0 a (opSize op a) = false) ∨
     (b ≠ 0 ∧ s.batch b = none)) → exec (.dramRequest b cls a br op t) s = .next (s.at_ t)) ∧
   (∀ (s : State) (b cls a br t : Nat) (op : DramOp) (x : Batch), b ≠ 0 → s.batch b = some x → x.active = true → blockOk a (opSize op a) = true →
     s.inRegion b a (opSize op a) = false → ∃ u : State, exec (.dramRequest b cls a br op t) s = .next u ∧ u.dram = s.dram ∧
       (u.src (0x700 + 16 * (b - 1) + 9)).status = true) ∧
   (∀ (k : Stack) (r m : Req), k.reqs = [r, m] → k.room r = true → k.room m = true →
     let last := k.turn.get 0 (4 * m.tr.b + m.tr.cls)
     ((r.tr.b ≠ 0 ∧ m.tr.b = 0) ∨ (r.tr.b ≠ 0 ∧ m.tr.b = r.tr.b ∧ m.tr.cls < r.tr.cls) ∨
       (r.tr.b ≠ 0 ∧ m.tr.b = r.tr.b ∧ m.tr.cls = r.tr.cls ∧ last ≤ m.tr.branch ∧ (r.tr.branch < last ∨ m.tr.branch < r.tr.branch)) ∨
       (r.tr.b ≠ 0 ∧ m.tr.b ≠ 0 ∧ m.tr.b ≠ r.tr.b ∧
         (vfBefore (k.vf.get 0 m.tr.b) (k.vf.get 0 r.tr.b) = true ∨ (k.vf.get 0 m.tr.b = k.vf.get 0 r.tr.b ∧ m.tr.b < r.tr.b)))) →
     k.choose = some m)) ∧
  ((∀ (s : State) (a t : Nat) (g : DramRet) (x : Trans) (left : List Trans), let q := aStack a
     let k := s.stack q
     takeTrans a k.flight = some (x, left) → k.frozen = false → (k.inOrder a = false ∨ k.flight.find? (fun y => bankKey y.addr == bankKey a) = some x) →
     (k.reqs = [] → (x.write = true ∨ (g.errs = [] ∧ ∀ i, i < x.words → a / 32 + i ∉ s.dram.poison ∧ (s.dram.flip.get (0, 0) (a / 32 + i)).1 = 0)) →
       exec (.dramReadReturn a g t) s = .next ((s.at_ t).setStack q (k.left left))) ∧
     (∀ r, k.reqs = [r] → x.write = true → r.tr.b = 0 → r.tr.write = false → s.stackOffline q = false → k.retraining = false →
       (k.left left).room r = true → s.inRegion 0 (r.tr.addr / 32 * 32) (32 * r.tr.words) = true →
       ∃ u : State, exec (.dramReadReturn a g t) s = .next u ∧ u.stack q = { (k.left left).issue r.tr with reqs := [] } ∧
         (∀ j, j ≠ q → u.stack j = s.stack j) ∧ u.dram.mem = s.dram.mem ∧ { u with dram := s.dram, ctrs := s.ctrs } = s.at_ t) ∧
     (∀ i v, x.write = false → x.words = 1 → k.reqs = [] → a / 32 ∉ s.dram.poison → (s.dram.flip.get (0, 0) (a / 32)).1 = 0 →
       k.rowCe = [] → k.laneCe = [] →
       ∃ u : State, exec (.dramReadReturn a ⟨[⟨[i], 0, false⟩], v⟩ t) s = .next u ∧ (u.stack q).rowCe = [(rowKey (a / 32 * 32), (s.at_ t).now)] ∧
         (u.stack q).laneCe = [(64 * aPc (a / 32 * 32) + laneOf i, (s.at_ t).now)] ∧ u.dram.mem = s.dram.mem ∧ u.dram.poison = s.dram.poison ∧
         { u with dram := s.dram, ctrs := s.ctrs } = s.at_ t) ∧
     (∀ i j v, x.write = false → x.words = 1 → k.reqs = [] → x.b = 0 → (s.dram.flip.get (0, 0) (a / 32)).1 = 0 →
       (k.freeze = false → ∃ u : State, exec (.dramReadReturn a ⟨[⟨[i, j], 0, false⟩], v⟩ t) s = .next u ∧ a / 32 ∈ u.dram.poison ∧
         (u.src (pcSrc a)).status = true ∧ (u.stack q).frozen = false ∧ u.dram.mem = s.dram.mem ∧ u.batches = s.batches) ∧
       (k.freeze = true → ∃ u : State, exec (.dramReadReturn a ⟨[⟨[i, j], 0, false⟩], v⟩ t) s = .next u ∧ (u.stack q).frozen = true ∧
         (u.stack q).freezeAddr = a / 32 * 32 % stackSize ∧ (u.stack q).failing.map Prod.fst = some x ∧ (u.src (0x480 + q)).status = true ∧
         u.dram.mem = s.dram.mem ∧ u.dram.poison = s.dram.poison))) ∧
   (∀ (s : State) (a t : Nat) (g : DramRet), takeTrans a (s.stack (aStack a)).flight = none → exec (.dramReadReturn a g t) s = .next s) ∧
   (∀ (s : State) (q pc n m t : Nat) (x : Trans), let k := s.stack q
     s.injected (16 * (0x480 + q) + 2) = 0 → k.frozen = false → s.stackOffline q = false → (k.retry.get [] pc).find? (fun p => p.1 == n) = some (m, x) →
     (k.freeze = false → (k.alerts.get (0, 0) pc).1 ≠ n + 1 → ∃ u : State, exec (.dramParityAlert q pc t n) s = .next u ∧
       u.stack q = { k with alerts := k.alerts.set (0, 0) pc (n + 1, 1) } ∧ (∀ j, j ≠ q → u.stack j = s.stack j) ∧
       { u with dram := s.dram, ctrs := s.ctrs } = s.at_ t ∧ u.dram.mem = s.dram.mem) ∧
     (∀ i, k.freeze = false → k.alerts.get (0, 0) pc = (n + 1, i) → i < 4 → ∃ u : State, exec (.dramParityAlert q pc t n) s = .next u ∧
       (u.stack q).alerts.get (0, 0) pc = (n + 1, i + 1) ∧ (u.stack q).cmdTrain.get 0 pc = k.cmdTrain.get 0 pc + (if i = 3 then 1 else 0) ∧
       (u.stack q).retry = k.retry ∧ (u.stack q).flight = k.flight ∧ (u.stack q).frozen = false ∧ u.dram.mem = s.dram.mem) ∧
     ((k.freeze = true ∨ (∃ i, 4 ≤ i ∧ k.alerts.get (0, 0) pc = (n + 1, i))) → ∃ u : State, exec (.dramParityAlert q pc t n) s = .next u ∧
       (u.stack q).frozen = true ∧ (u.stack q).freezeAddr = x.addr % stackSize ∧ (u.stack q).failing = some (x, 0) ∧ (u.src (0x480 + q)).status = true ∧
       u.dram.mem = s.dram.mem)) ∧
   (∀ (s : State) (q pc n t : Nat), ((s.stack q).retry.get [] pc).find? (fun p => p.1 == n) = none →
     exec (.dramParityAlert q pc t n) s = .next (s.at_ t))) ∧
  ((∀ (s : State) (q pc : Nat), let k := s.stack q
     (k.busy pc = false → exec (.refreshDue q pc true) s = .next (s.setStack q { k with pend := k.pend.set 0 pc (k.pend.get 0 pc - 1) })) ∧
     (k.busy pc = true → exec (.refreshDue q pc true) s = .next s) ∧ (k.busy pc = false → exec (.refreshDue q pc false) s = .next s) ∧
     (k.busy pc = true → ∃ u : State, exec (.refreshDue q pc false) s = .next u ∧
       (u.stack q).pend.get 0 pc = (if k.pend.get 0 pc < 8 then k.pend.get 0 pc + 1 else k.pend.get 0 pc) ∧
       (u.stack q).flight = k.flight ∧ (∀ j, j ≠ q → u.stack j = s.stack j) ∧ { u with dram := s.dram, ctrs := s.ctrs } = s ∧ u.dram.mem = s.dram.mem)) ∧
   (∀ (s : State) (a t : Nat), let q := aStack a
     s.stackOffline q = false → (s.stack q).frozen = false → (s.stack q).retraining = false → aPc a ∉ (s.stack q).pcTrain →
     ((s.dram.flip.get (0, 0) (a / 32)).1 = 0 →
       exec (.patrolScrub a noErr t) s = .next (s.at_ t) ∧
       (∀ i j, ∃ u : State, exec (.patrolScrub a ⟨[i, j], 0, false⟩ t) s = .next u ∧ a / 32 ∈ u.dram.poison ∧ (u.src (pcSrc a)).status = true ∧
         u.dram.mem = s.dram.mem ∧ u.batches = s.batches) ∧
       (∀ i, ∃ u : State, exec (.patrolScrub a ⟨[i], 0, false⟩ t) s = .next u ∧
         (u.stack q).rowCe = (s.stack q).rowCe ++ [(rowKey a, (s.at_ t).now)] ∧
         (u.stack q).laneCe = (s.stack q).laneCe ++ [(64 * aPc a + laneOf i, (s.at_ t).now)] ∧ u.dram.mem = s.dram.mem ∧ u.dram.poison = s.dram.poison)) ∧
     ((s.dram.flip.get (0, 0) (a / 32)).1 = 1 → ∃ u : State, exec (.patrolScrub a noErr t) s = .next u ∧ u.dram.flip = s.dram.flip.del (a / 32) ∧
       u.dram.mem = s.dram.mem ∧ u.dram.poison = s.dram.poison)) ∧
   (∀ (s : State) (q pc lane t : Nat) (up : Bool), let k := s.stack q
     let v := k.track.get 0 (64 * pc + lane) + (if up then 1 else -1)
     (v.natAbs ≤ Config.trackRange → ∃ u : State, exec (.trackingStep q pc lane up t) s = .next u ∧ u.stack q = { k with track := k.track.set 0 (64 * pc + lane) v } ∧
       (∀ j, j ≠ q → u.stack j = s.stack j) ∧ { u with dram := s.dram } = s.at_ t) ∧
     (Config.trackRange < v.natAbs → ∃ u : State, exec (.trackingStep q pc lane up t) s = .next u ∧ u.dram = s.dram ∧ (u.src (0x400 + 32 * q + pc)).status = true ∧
       { u with flt := s.flt, free := s.free } = s.at_ t)) ∧
   (∀ (s : State) (q t : Nat), let k := s.stack q
     (k.retrainDue = true → k.retraining = false → k.frozen = false → s.stackOffline q = false → s.actives.any (fun b => s.holdsStack b q) = false →
       ∃ u : State, exec (.tempRetrain q t) s = .next u ∧ u.stack q = { k with retraining := true, tempTrain := true } ∧
         (∀ j, j ≠ q → u.stack j = s.stack j) ∧ { u with dram := s.dram } = s.at_ t) ∧
     ((k.retrainDue = false ∨ k.retraining = true ∨ k.frozen = true ∨ s.stackOffline q = true ∨ s.actives.any (fun b => s.holdsStack b q) = true) →
       exec (.tempRetrain q t) s = .next s)) ∧
   (∀ (s : State) (q l w t : Nat), (s.stack q).retraining = true → (s.stack q).reqs = [] → (s.stack q).held = [] →
     ∃ u : State, exec (.stackRetrainDone q [(l, w)] t) s = .next u ∧ (u.stack q).retraining = false ∧ (u.stack q).retrainDue = false ∧
       (u.stack q).pcTrain = [] ∧ (u.stack q).trainTemp = (s.stack q).temp ∧ (u.stack q).eyes.get 0 l = w ∧
       (w < 12 → (u.src (0x400 + 32 * q + l / 64)).status = true) ∧ (12 ≤ w → u.flt = s.flt) ∧ (∀ j, j ≠ q → u.stack j = s.stack j) ∧ u.dram.mem = s.dram.mem) ∧
   (∀ (s : State) (q t : Nat) (h : HostAcc), let k := s.stack q
     k.retraining = true → k.reqs = [] → k.held = [h] →
     ∃ v : State, exec (.stackRetrainDone q [] t) s = exec (.bar2Access h.fn h.off h.write h.data h.len) v ∧
       v.stack q = { k with held := [], retraining := false, tempTrain := false, pcTrain := [], retrainDue := false, trainTemp := k.temp } ∧
       (∀ j, j ≠ q → v.stack j = s.stack j) ∧ v.dram.mem = s.dram.mem ∧ { v with dram := s.dram } = s.at_ t) ∧
   (∀ (s : State) (q t : Nat), let k := s.stack q
     k.retraining = false → k.reqs = [] →
     (k.pcTrain ≠ [] → ∃ u : State, exec (.stackRetrainDone q [] t) s = .next u ∧ u.stack q = { k with pcTrain := [] } ∧
       (∀ j, j ≠ q → u.stack j = s.stack j) ∧ u.dram.mem = s.dram.mem ∧ { u with dram := s.dram } = s.at_ t) ∧
     (k.pcTrain = [] → ∀ eyes, exec (.stackRetrainDone q eyes t) s = .next s)) ∧
   (∀ (s : State) (q l w t : Nat), q < 4 → (s.stack q).offline = true → (s.stack q).reqs = [] → s.powered (39 + q) = true → s.powered (43 + q) = true →
     ∃ u : State, exec (.stackClearDone ⟨q, [(l, w)]⟩ t) s = .next u ∧ (u.stack q).offline = false ∧ (u.stack q).retraining = false ∧
       (u.stack q).eyes.get 0 l = w ∧ (w < 12 → (u.src (0x400 + 32 * q + l / 64)).status = true) ∧ (12 ≤ w → { u with dram := s.dram } = s.at_ t) ∧
       (∀ a, q * stackSize ≤ a → a < (q + 1) * stackSize → Memory.read u.dram.mem a = 0 ∧ a / 32 ∉ u.dram.poison) ∧
       (∀ a, (a < q * stackSize ∨ (q + 1) * stackSize ≤ a) → Memory.read u.dram.mem a = Memory.read s.dram.mem a) ∧
       (∀ j, j ≠ q → u.stack j = s.stack j)) ∧
   (∀ (s : State) (e : StackEnd) (t : Nat), (s.stack e.stack).offline = false → exec (.stackClearDone e t) s = .next s))

/-! ## Reset and the whole block -/

/-- What a reset leaves: READY low, no batch, no command waiting and none taken; PD0 and PD1 alone powered under a budget of 40; taps,
counters and sources clear; the error masks, the UDP port and CDEV at their reset values; no resource owned, no line driven; memory lists
nothing and reads zero. Where the manual gives no reset value the model's is zero (log 3). -/
def Obligations.ResetState : Prop :=
  let s := State.reset
  s.pending = [] ∧ s.boot.ready = false ∧ s.boot.bootSafe = false ∧ s.batches = [] ∧ s.waits = [] ∧ (∀ d, s.powered d = true ↔ d ≤ 1) ∧ s.pwr.budget = 40 ∧
  (∀ t, s.tap t = Tap.zero) ∧ (∀ n, (s.src n).status = false) ∧ (∀ n, s.ctr n = Ctr.zero) ∧ s.flt.maskF = 0x1FF ∧ s.flt.maskW = 0 ∧ s.flt.first.valid = false ∧
  s.tb.refsel = 0 ∧ s.tb.locked = false ∧ s.tb.epochValid = false ∧ s.cellar.cdev = 0xFF ∧ (∀ p, (s.port p).up = false) ∧ s.netTaps = 0 ∧ s.udpPort = 47290 ∧
  (∀ a, Memory.read s.dram.mem a = 0) ∧ Memory.wf s.dram.mem = true ∧ s.irq.masked.length = 68 ∧ (∀ i, s.sliceOwner.get 0 i = 0) ∧ (∀ g, s.dram.owner.get 0 g = 0) ∧
  (∀ c, s.denPins.get false c = false)

/-- Memory keeps its canonical form: addresses strictly rising, no entry that reads as an unlisted address reads. Every step of every
command keeps it, from any state that has it. -/
def Obligations.MemoryStaysCanonical : Prop :=
  ∀ s t : State, Memory.wf s.dram.mem = true → step s = .next t → Memory.wf t.dram.mem = true
end

