-- ==== Sys2Proof/Laws/Commands.lean ====
section
/-! SUPPORT. What the frame of a tap command does: a command that `admits` lets through settles its own part; what settling is for each
kind of answer; what a completion and a dispatched command leave alone (10_taps.md R272 to R278; 11_commands.md R290). -/

namespace Sys2Proof.Machine
open Sys2Proof

theorem State.at_tap (s : State) (t n : Nat) : (s.at_ t).tap n = s.tap n := by
  unfold State.at_; split <;> rfl

theorem State.at_boot (s : State) (t : Nat) : (s.at_ t).boot = s.boot := by
  unfold State.at_; split <;> rfl

theorem State.refOk_iff (s : State) (h : Hdr) (r : DRef) (inp : Bool) (hr : s.refOk h r inp = true) :
    r.rsv = false ∧ (s.at_ h.t).refErr h inp r = none ∧ (inp && !r.inl && !(s.at_ h.t).cleanBlock r.addr r.len) = false := by
  unfold State.refOk at hr
  simp only [Bool.and_eq_true, Bool.not_eq_true', Option.isNone_iff_eq_none] at hr
  exact ⟨hr.1.1, hr.1.2, hr.2⟩

/-- The checks of a clean stretch change nothing. -/
theorem State.checkWords_clean (s : State) (u : Use) (b cls a n : Nat) (hm : (s.marked a n).isEmpty = true) : s.checkWords u b cls a n = s := by
  unfold State.checkWords
  rw [List.isEmpty_iff.1 hm]; rfl

theorem State.unreadable_clean (s : State) (r : DRef) (inp : Bool) (hc : (inp && !r.inl && !s.cleanBlock r.addr r.len) = false) :
    (inp && s.unreadable r) = false := by
  unfold State.unreadable State.poisoned
  cases inp <;> cases hi : r.inl <;> simp_all [State.cleanBlock]

theorem State.readRefs_clean (s : State) (h : Hdr) (refs : List (DRef × Bool))
    (hc : ∀ r ∈ refs, (r.2 && !r.1.inl && !s.cleanBlock r.1.addr r.1.len) = false) : s.readRefs h refs = s := by
  unfold State.readRefs
  induction refs with
  | nil => rfl
  | cons r l ih =>
    rw [List.foldl_cons]
    have h1 := hc r (by simp)
    have h2 : (if r.2 && !r.1.inl && !(s.stack (aStack r.1.addr)).frozen then s.checkWords .engine h.tap 3 r.1.addr r.1.len else s) = s := by
      split
      · refine State.checkWords_clean _ _ _ _ _ _ ?_
        simp_all [State.cleanBlock]
      · rfl
    rw [h2]
    exact ih fun r hr => hc r (by simp [hr])

/-- A command that `admits` lets through runs its own part at its grid time, and settles. -/
theorem State.runCmd_admits (s : State) (h : Hdr) (op : Nat) (refs : List (DRef × Bool)) (out : Option DRef) (own : State → Res)
    (ha : s.admits h op refs = true) : s.runCmd h op refs out own = State.settle h op (own (s.at_ h.t)) out := by
  unfold State.admits at ha
  cases hi : opInfo op with
  | none => simp [hi] at ha
  | some i =>
    simp only [hi, Bool.and_eq_true, Bool.not_eq_true', Option.isNone_iff_eq_none, List.all_eq_true] at ha
    obtain ⟨⟨⟨⟨h1, h2⟩, h3⟩, h4⟩, h5, h6⟩ := ha
    have e1 : (i.kind == 1 && decide (16 ≤ ((s.at_ h.t).tap h.tap).asyncs.length) ||
        h.async && decide (16 ≤ ((s.at_ h.t).tap h.tap).asyncs.length)) = false := by
      rw [State.at_tap]
      cases hk : (i.kind == 1) <;> cases hb : h.async <;> simp_all
    have e2 : ((refs.mapIdx (fun i r => (i, r))).findSome? (fun r => ((s.at_ h.t).refErr h r.2.2 r.2.1).or
        (if (([] : List (State → Bool))[r.1]?).any (fun f => f (s.at_ h.t)) then some eLength else none))) = none := by
      rw [List.findSome?_eq_none_iff]
      intro x hx
      rw [List.mem_mapIdx] at hx
      obtain ⟨j, hj, rfl⟩ := hx
      simp [(State.refOk_iff s h _ _ (h4 _ (List.getElem_mem hj))).2.1]
    have e3 : refs.any (fun r => r.1.rsv) = false :=
      List.any_eq_false.2 fun r hr => by simp [(State.refOk_iff s h _ _ (h4 r hr)).1]
    have hc := fun r hr => (State.refOk_iff s h r.1 r.2 (h4 r hr)).2.2
    have e4 : refs.any (fun r => r.2 && (s.at_ h.t).unreadable r.1) = false :=
      List.any_eq_false.2 fun r hr => by simpa using State.unreadable_clean _ _ _ (hc r hr)
    have e6 : (s.at_ h.t).readRefs h refs = s.at_ h.t := State.readRefs_clean _ _ _ hc
    have e5 : (s.boot.bootSafe && op != 0x0001 && op != 0x000E) = false := by
      rcases hb : s.boot.bootSafe <;> simp_all
      intro a; rcases h2 with h2 | h2 <;> simp_all
    simp only [State.runCmd, h1, hi, h5, e1, e2, e3, e4, e6, h3, State.at_boot, e5]
    simp

end Sys2Proof.Machine
end

