-- ==== Sys2Proof/Laws/Tab.lean ====
section
/-! SUPPORT. The laws of the sparse tables and of memory: a read after a write, every other place left alone, and the canonical form kept by
every operation (Memory.wf). -/

namespace Sys2Proof.Tab
open Sys2Proof

variable {α : Type}

theorem get_del_same (d : α) (m : Tab α) (a : Nat) : get d (del m a) a = d := by
  induction m with
  | nil => rfl
  | cons p m ih =>
    obtain ⟨k, v⟩ := p
    by_cases h : k = a
    · simp [del, h, ih]
    · simp [del, get, h, ih]

theorem get_del_other (d : α) (m : Tab α) {a b : Nat} (hab : b ≠ a) : get d (del m a) b = get d m b := by
  induction m with
  | nil => rfl
  | cons p m ih =>
    obtain ⟨k, v⟩ := p
    by_cases h : k = a
    · subst h; simp [del, get, ih, Ne.symm hab]
    · by_cases h' : k = b <;> simp_all [del, get]

theorem get_ins_same (d : α) (m : Tab α) (a : Nat) (x : α) : get d (ins a x m) a = x := by
  induction m with
  | nil => simp [ins, get]
  | cons p m ih =>
    obtain ⟨k, v⟩ := p
    by_cases h : a < k
    · simp [ins, get, h]
    · by_cases h' : k = a <;> simp [ins, get, h, h', ih]

theorem get_ins_other (d : α) (m : Tab α) (x : α) {a b : Nat} (hab : b ≠ a) : get d (ins a x m) b = get d m b := by
  induction m with
  | nil => simp [ins, get, Ne.symm hab]
  | cons p m ih =>
    obtain ⟨k, v⟩ := p
    by_cases h : a < k
    · simp [ins, get, h, Ne.symm hab]
    · by_cases h' : k = a
      · subst h'; simp [ins, get, Ne.symm hab]
      · simp only [ins, if_neg h, if_neg h', get, ih]

/-- What is written is read back. -/
@[simp] theorem get_set_same [DecidableEq α] (d : α) (m : Tab α) (a : Nat) (x : α) : get d (set d m a x) a = x := by
  unfold set; split
  · next h => rw [get_del_same, h]
  · exact get_ins_same d m a x

/-- A write leaves every other key alone. -/
theorem get_set_other [DecidableEq α] (d : α) (m : Tab α) (x : α) {a b : Nat} (hab : b ≠ a) : get d (set d m a x) b = get d m b := by
  unfold set; split
  · exact get_del_other d m hab
  · exact get_ins_other d m x hab

/-- The canonical form in words of lists: keys strictly rising, no entry equal to the default. -/
theorem wf_iff [DecidableEq α] (d : α) (m : Tab α) : wf d m = true ↔ m.Pairwise (fun p q => p.1 < q.1) ∧ ∀ p ∈ m, p.2 ≠ d := by
  induction m with
  | nil => simp [wf]
  | cons p m ih =>
    obtain ⟨k, v⟩ := p
    cases m with
    | nil => simp [wf]
    | cons q m =>
      obtain ⟨k', v'⟩ := q
      simp only [wf, Bool.and_eq_true, decide_eq_true_eq, ih]
      constructor
      · rintro ⟨⟨h1, h2⟩, h3, h4⟩
        refine ⟨List.pairwise_cons.2 ⟨?_, h3⟩, ?_⟩
        · intro r hr
          rcases List.mem_cons.1 hr with rfl | hr
          · exact h2
          · exact Nat.lt_trans h2 ((List.pairwise_cons.1 h3).1 r hr)
        · intro r hr
          rcases List.mem_cons.1 hr with rfl | hr
          · exact h1
          · exact h4 r hr
      · rintro ⟨h1, h2⟩
        obtain ⟨h3, h4⟩ := List.pairwise_cons.1 h1
        exact ⟨⟨h2 (k, v) List.mem_cons_self, h3 (k', v') List.mem_cons_self⟩, h4, fun r hr => h2 r (List.mem_cons_of_mem _ hr)⟩

/-- A filtered canonical table is canonical. -/
theorem wf_filter [DecidableEq α] (d : α) (m : Tab α) (f : Nat × α → Bool) (h : wf d m = true) : wf d (m.filter f) = true := by
  rw [wf_iff] at *
  exact ⟨h.1.filter f, fun p hp => h.2 p ((List.mem_filter.1 hp).1)⟩

theorem del_eq_filter (m : Tab α) (a : Nat) : del m a = m.filter (fun p => decide (p.1 ≠ a)) := by
  induction m with
  | nil => rfl
  | cons p m ih =>
    obtain ⟨k, v⟩ := p
    by_cases h : k = a <;> simp [del, h, ih]

theorem mem_ins (m : Tab α) (a : Nat) (x : α) (p : Nat × α) (h : p ∈ ins a x m) : p = (a, x) ∨ p ∈ m := by
  induction m with
  | nil => simpa [ins] using h
  | cons q m ih =>
    obtain ⟨k, v⟩ := q
    simp only [ins] at h
    split at h
    · simpa using h
    · split at h
      · rcases List.mem_cons.1 h with h | h
        · exact .inl h
        · exact .inr (List.mem_cons_of_mem _ h)
      · rcases List.mem_cons.1 h with h | h
        · exact .inr (h ▸ List.mem_cons_self)
        · rcases ih h with h | h
          · exact .inl h
          · exact .inr (List.mem_cons_of_mem _ h)

theorem ins_pairwise (m : Tab α) (a : Nat) (x : α) (h : m.Pairwise (fun p q => p.1 < q.1)) : (ins a x m).Pairwise (fun p q => p.1 < q.1) := by
  induction m with
  | nil => simp [ins]
  | cons q m ih =>
    obtain ⟨k, v⟩ := q
    obtain ⟨h1, h2⟩ := List.pairwise_cons.1 h
    simp only [ins]
    split
    · next hlt =>
      refine List.pairwise_cons.2 ⟨?_, h⟩
      intro r hr
      rcases List.mem_cons.1 hr with rfl | hr
      · exact hlt
      · exact Nat.lt_trans hlt (h1 r hr)
    · split
      · next hk => subst hk; exact List.pairwise_cons.2 ⟨h1, h2⟩
      · next hk =>
        refine List.pairwise_cons.2 ⟨?_, ih h2⟩
        intro r hr
        rcases mem_ins m a x r hr with rfl | hr
        · simp only; omega
        · exact h1 r hr

/-- A write keeps the canonical form. -/
theorem wf_set [DecidableEq α] (d : α) (m : Tab α) (a : Nat) (x : α) (h : wf d m = true) : wf d (set d m a x) = true := by
  unfold set; split
  · rw [del_eq_filter]; exact wf_filter d m _ h
  · next hx =>
    rw [wf_iff] at *
    refine ⟨ins_pairwise m a x h.1, fun p hp => ?_⟩
    rcases mem_ins m a x p hp with rfl | hp
    · exact hx
    · exact h.2 p hp

end Sys2Proof.Tab

namespace Sys2Proof.Machine
open Sys2Proof

/-- An entry changed in place reads as the change of what it read as. -/
@[simp] theorem get_upd_same {α : Type} [DecidableEq α] (d : α) (m : Tab α) (k : Nat) (f : α → α) :
    (upd d m k f).get d k = f (m.get d k) := Tab.get_set_same d m k _

theorem get_upd_other {α : Type} [DecidableEq α] (d : α) (m : Tab α) (f : α → α) {k j : Nat} (h : j ≠ k) :
    (upd d m k f).get d j = m.get d j := Tab.get_set_other d m _ h

/-! ## Memory (R351, R354) -/

@[simp] theorem Memory.read_write_same (m : List Host.Cell) (a : Nat) (v : Byte) : Memory.read (Memory.write m a v) a = v :=
  Tab.get_set_same _ m a v

theorem Memory.read_write_other (m : List Host.Cell) (v : Byte) {a b : Nat} (h : b ≠ a) :
    Memory.read (Memory.write m a v) b = Memory.read m b := Tab.get_set_other _ m v h

theorem Memory.wf_write (m : List Host.Cell) (a : Nat) (v : Byte) (h : Memory.wf m = true) : Memory.wf (Memory.write m a v) = true :=
  Tab.wf_set _ m a v h

theorem Memory.wf_writes (m : List Host.Cell) (a : Nat) (vs : List Byte) (h : Memory.wf m = true) :
    Memory.wf (Memory.writes m a vs) = true := by
  induction vs generalizing m a with
  | nil => exact h
  | cons v vs ih => exact ih _ _ (Memory.wf_write m a v h)

theorem Memory.wf_clear (m : List Host.Cell) (a n : Nat) (h : Memory.wf m = true) : Memory.wf (Memory.clear m a n) = true :=
  Tab.wf_filter _ m _ h

/-- Bytes written from a leave every address outside them alone. -/
theorem Memory.read_writes_outside (m : List Host.Cell) (a b : Nat) (vs : List Byte) (h : b < a ∨ a + vs.length ≤ b) :
    Memory.read (Memory.writes m a vs) b = Memory.read m b := by
  induction vs generalizing m a with
  | nil => rfl
  | cons v vs ih =>
    simp only [List.length_cons] at h
    rw [Memory.writes, ih _ _ (by omega), Memory.read_write_other m v (by omega)]

/-- Bytes written from a are read back. -/
theorem Memory.read_writes_inside (m : List Host.Cell) (a i : Nat) (vs : List Byte) (h : i < vs.length) :
    Memory.read (Memory.writes m a vs) (a + i) = vs[i] := by
  induction vs generalizing m a i with
  | nil => simp at h
  | cons v vs ih =>
    cases i with
    | zero => rw [Memory.writes, Memory.read_writes_outside _ _ _ _ (by omega)]; simp
    | succ i =>
      have := ih (Memory.write m a v) (a + 1) i (by simpa using h)
      rw [Memory.writes, show a + (i + 1) = a + 1 + i by omega, this]; rfl

/-- A cleared range reads zero. -/
theorem Memory.read_clear_inside (m : List Host.Cell) (a n b : Nat) (h : a ≤ b ∧ b < a + n) : Memory.read (Memory.clear m a n) b = 0 := by
  unfold Memory.read Memory.clear
  induction m with
  | nil => rfl
  | cons p m ih =>
    obtain ⟨k, v⟩ := p
    rw [List.filter_cons]
    split
    · next hk =>
      have : k ≠ b := by
        rintro rfl
        simp only [Bool.or_eq_true, decide_eq_true_eq] at hk
        omega
      simpa [Tab.get, this] using ih
    · exact ih

/-- A clearing leaves every address outside its range alone. -/
theorem Memory.read_clear_outside (m : List Host.Cell) (a n b : Nat) (h : b < a ∨ a + n ≤ b) :
    Memory.read (Memory.clear m a n) b = Memory.read m b := by
  unfold Memory.read Memory.clear
  induction m with
  | nil => rfl
  | cons p m ih =>
    obtain ⟨k, v⟩ := p
    rw [List.filter_cons]
    split
    · by_cases hk : k = b <;> simp_all [Tab.get]
    · next hn =>
      have : k ≠ b := by
        rintro rfl
        apply hn
        simp only [Bool.or_eq_true, decide_eq_true_eq]
        exact h
      simpa [Tab.get, this] using ih

end Sys2Proof.Machine
end

