-- ==== Sys2Proof/Laws/State.lean ====
section
/-! SUPPORT. What every shared update of the state writes and what it leaves alone: one lemma per field and update, and for the operations
that branch one lemma that says all they can change (frame). -/

namespace Sys2Proof.Machine
open Sys2Proof

/-! ## Reading back what an update wrote -/

@[simp] theorem State.setTap_tap (s : State) (t : Nat) (x : Tap) : (s.setTap t x).tap t = x := Tab.get_set_same _ _ _ _
theorem State.setTap_tap_other (s : State) (x : Tap) {t u : Nat} (h : u ≠ t) : (s.setTap t x).tap u = s.tap u := Tab.get_set_other _ _ _ h
@[simp] theorem State.setSrc_src (s : State) (n : Nat) (x : Src) : (s.setSrc n x).src n = x := Tab.get_set_same _ _ _ _
theorem State.setSrc_src_other (s : State) (x : Src) {n m : Nat} (h : m ≠ n) : (s.setSrc n x).src m = s.src m := Tab.get_set_other _ _ _ h
@[simp] theorem State.setStack_stack (s : State) (q : Nat) (x : Stack) : (s.setStack q x).stack q = x := Tab.get_set_same _ _ _ _
theorem State.setStack_stack_other (s : State) (x : Stack) {q r : Nat} (h : r ≠ q) : (s.setStack q x).stack r = s.stack r := Tab.get_set_other _ _ _ h
@[simp] theorem State.setBus_bus (s : State) (n : Nat) (x : Bus) : (s.setBus n x).bus n = x := Tab.get_set_same _ _ _ _
theorem State.setBus_bus_other (s : State) (x : Bus) {n m : Nat} (h : m ≠ n) : (s.setBus n x).bus m = s.bus m := Tab.get_set_other _ _ _ h
@[simp] theorem State.setAcq_acq (s : State) (n : Nat) (x : Acq) : (s.setAcq n x).acq n = x := Tab.get_set_same _ _ _ _
theorem State.setAcq_acq_other (s : State) (x : Acq) {n m : Nat} (h : m ≠ n) : (s.setAcq n x).acq m = s.acq m := Tab.get_set_other _ _ _ h
@[simp] theorem State.setItem_item (s : State) (i : Nat) (x : CalItem) : (s.setItem i x).item i = x := Tab.get_set_same _ _ _ _
theorem State.setItem_item_other (s : State) (x : CalItem) {i j : Nat} (h : j ≠ i) : (s.setItem i x).item j = s.item j := Tab.get_set_other _ _ _ h

theorem assoc_put_same {α : Type} (m : List (Nat × α)) (k : Nat) (x : α) : assoc (put m k x) k = some x := by
  induction m with
  | nil => simp [put, Tab.ins, assoc]
  | cons p m ih =>
    obtain ⟨j, v⟩ := p
    simp only [put, Tab.ins]
    split
    · simp [assoc]
    · split
      · simp [assoc]
      · next h => simp only [assoc, h, if_false]; exact ih

theorem assoc_put_other {α : Type} (m : List (Nat × α)) (x : α) {k j : Nat} (h : j ≠ k) : assoc (put m k x) j = assoc m j := by
  induction m with
  | nil => simp [put, Tab.ins, assoc, Ne.symm h]
  | cons p m ih =>
    obtain ⟨i, v⟩ := p
    simp only [put, Tab.ins]
    split
    · simp [assoc, Ne.symm h]
    · split
      · next hi => subst hi; simp [assoc, Ne.symm h]
      · simp only [assoc]; split
        · rfl
        · exact ih

@[simp] theorem State.setBatch_batch (s : State) (b : Nat) (x : Batch) : (s.setBatch b x).batch b = some x := assoc_put_same _ _ _
theorem State.setBatch_batch_other (s : State) (x : Batch) {b c : Nat} (h : c ≠ b) : (s.setBatch b x).batch c = s.batch c := assoc_put_other _ _ h

/-! ## setTap: writes taps -/

@[simp] theorem State.setTap_pending (s : State) (t : Nat) (x : Tap) : (s.setTap t x).pending = s.pending := rfl
@[simp] theorem State.setTap_tb (s : State) (t : Nat) (x : Tap) : (s.setTap t x).tb = s.tb := rfl
@[simp] theorem State.setTap_ptp (s : State) (t : Nat) (x : Tap) : (s.setTap t x).ptp = s.ptp := rfl
@[simp] theorem State.setTap_clks (s : State) (t : Nat) (x : Tap) : (s.setTap t x).clks = s.clks := rfl
@[simp] theorem State.setTap_clkOwner (s : State) (t : Nat) (x : Tap) : (s.setTap t x).clkOwner = s.clkOwner := rfl
@[simp] theorem State.setTap_trigOut (s : State) (t : Nat) (x : Tap) : (s.setTap t x).trigOut = s.trigOut := rfl
@[simp] theorem State.setTap_trigOutOwner (s : State) (t : Nat) (x : Tap) : (s.setTap t x).trigOutOwner = s.trigOutOwner := rfl
@[simp] theorem State.setTap_trigIn (s : State) (t : Nat) (x : Tap) : (s.setTap t x).trigIn = s.trigIn := rfl
@[simp] theorem State.setTap_trigInOwner (s : State) (t : Nat) (x : Tap) : (s.setTap t x).trigInOwner = s.trigInOwner := rfl
@[simp] theorem State.setTap_netTaps (s : State) (t : Nat) (x : Tap) : (s.setTap t x).netTaps = s.netTaps := rfl
@[simp] theorem State.setTap_udpPort (s : State) (t : Nat) (x : Tap) : (s.setTap t x).udpPort = s.udpPort := rfl
@[simp] theorem State.setTap_served (s : State) (t : Nat) (x : Tap) : (s.setTap t x).served = s.served := rfl
@[simp] theorem State.setTap_waits (s : State) (t : Nat) (x : Tap) : (s.setTap t x).waits = s.waits := rfl
@[simp] theorem State.setTap_batches (s : State) (t : Nat) (x : Tap) : (s.setTap t x).batches = s.batches := rfl
@[simp] theorem State.setTap_sliceOwner (s : State) (t : Nat) (x : Tap) : (s.setTap t x).sliceOwner = s.sliceOwner := rfl
@[simp] theorem State.setTap_busOwner (s : State) (t : Nat) (x : Tap) : (s.setTap t x).busOwner = s.busOwner := rfl
@[simp] theorem State.setTap_acqOwner (s : State) (t : Nat) (x : Tap) : (s.setTap t x).acqOwner = s.acqOwner := rfl
@[simp] theorem State.setTap_acqs (s : State) (t : Nat) (x : Tap) : (s.setTap t x).acqs = s.acqs := rfl
@[simp] theorem State.setTap_tdcs (s : State) (t : Nat) (x : Tap) : (s.setTap t x).tdcs = s.tdcs := rfl
@[simp] theorem State.setTap_fixture (s : State) (t : Nat) (x : Tap) : (s.setTap t x).fixture = s.fixture := rfl
@[simp] theorem State.setTap_cal (s : State) (t : Nat) (x : Tap) : (s.setTap t x).cal = s.cal := rfl
@[simp] theorem State.setTap_flt (s : State) (t : Nat) (x : Tap) : (s.setTap t x).flt = s.flt := rfl
@[simp] theorem State.setTap_rep (s : State) (t : Nat) (x : Tap) : (s.setTap t x).rep = s.rep := rfl
@[simp] theorem State.setTap_ctrs (s : State) (t : Nat) (x : Tap) : (s.setTap t x).ctrs = s.ctrs := rfl
@[simp] theorem State.setTap_wins (s : State) (t : Nat) (x : Tap) : (s.setTap t x).wins = s.wins := rfl
@[simp] theorem State.setTap_pwr (s : State) (t : Nat) (x : Tap) : (s.setTap t x).pwr = s.pwr := rfl
@[simp] theorem State.setTap_dram (s : State) (t : Nat) (x : Tap) : (s.setTap t x).dram = s.dram := rfl
@[simp] theorem State.setTap_cellar (s : State) (t : Nat) (x : Tap) : (s.setTap t x).cellar = s.cellar := rfl
@[simp] theorem State.setTap_eths (s : State) (t : Nat) (x : Tap) : (s.setTap t x).eths = s.eths := rfl
@[simp] theorem State.setTap_syncs (s : State) (t : Nat) (x : Tap) : (s.setTap t x).syncs = s.syncs := rfl
@[simp] theorem State.setTap_commits (s : State) (t : Nat) (x : Tap) : (s.setTap t x).commits = s.commits := rfl
@[simp] theorem State.setTap_scripts (s : State) (t : Nat) (x : Tap) : (s.setTap t x).scripts = s.scripts := rfl
@[simp] theorem State.setTap_buses (s : State) (t : Nat) (x : Tap) : (s.setTap t x).buses = s.buses := rfl
@[simp] theorem State.setTap_peOrd (s : State) (t : Nat) (x : Tap) : (s.setTap t x).peOrd = s.peOrd := rfl
@[simp] theorem State.setTap_sched (s : State) (t : Nat) (x : Tap) : (s.setTap t x).sched = s.sched := rfl
@[simp] theorem State.setTap_irq (s : State) (t : Nat) (x : Tap) : (s.setTap t x).irq = s.irq := rfl
@[simp] theorem State.setTap_pcie (s : State) (t : Nat) (x : Tap) : (s.setTap t x).pcie = s.pcie := rfl
@[simp] theorem State.setTap_boot (s : State) (t : Nat) (x : Tap) : (s.setTap t x).boot = s.boot := rfl
@[simp] theorem State.setTap_pace (s : State) (t : Nat) (x : Tap) : (s.setTap t x).pace = s.pace := rfl
@[simp] theorem State.setTap_paceLow (s : State) (t : Nat) (x : Tap) : (s.setTap t x).paceLow = s.paceLow := rfl
@[simp] theorem State.setTap_drvPins (s : State) (t : Nat) (x : Tap) : (s.setTap t x).drvPins = s.drvPins := rfl
@[simp] theorem State.setTap_denPins (s : State) (t : Nat) (x : Tap) : (s.setTap t x).denPins = s.denPins := rfl
@[simp] theorem State.setTap_free (s : State) (t : Nat) (x : Tap) : (s.setTap t x).free = s.free := rfl
@[simp] theorem State.setTap_out (s : State) (t : Nat) (x : Tap) : (s.setTap t x).out = s.out := rfl

/-! ## setBatch: writes batches -/

@[simp] theorem State.setBatch_pending (s : State) (b : Nat) (x : Batch) : (s.setBatch b x).pending = s.pending := rfl
@[simp] theorem State.setBatch_tb (s : State) (b : Nat) (x : Batch) : (s.setBatch b x).tb = s.tb := rfl
@[simp] theorem State.setBatch_ptp (s : State) (b : Nat) (x : Batch) : (s.setBatch b x).ptp = s.ptp := rfl
@[simp] theorem State.setBatch_clks (s : State) (b : Nat) (x : Batch) : (s.setBatch b x).clks = s.clks := rfl
@[simp] theorem State.setBatch_clkOwner (s : State) (b : Nat) (x : Batch) : (s.setBatch b x).clkOwner = s.clkOwner := rfl
@[simp] theorem State.setBatch_trigOut (s : State) (b : Nat) (x : Batch) : (s.setBatch b x).trigOut = s.trigOut := rfl
@[simp] theorem State.setBatch_trigOutOwner (s : State) (b : Nat) (x : Batch) : (s.setBatch b x).trigOutOwner = s.trigOutOwner := rfl
@[simp] theorem State.setBatch_trigIn (s : State) (b : Nat) (x : Batch) : (s.setBatch b x).trigIn = s.trigIn := rfl
@[simp] theorem State.setBatch_trigInOwner (s : State) (b : Nat) (x : Batch) : (s.setBatch b x).trigInOwner = s.trigInOwner := rfl
@[simp] theorem State.setBatch_taps (s : State) (b : Nat) (x : Batch) : (s.setBatch b x).taps = s.taps := rfl
@[simp] theorem State.setBatch_netTaps (s : State) (b : Nat) (x : Batch) : (s.setBatch b x).netTaps = s.netTaps := rfl
@[simp] theorem State.setBatch_udpPort (s : State) (b : Nat) (x : Batch) : (s.setBatch b x).udpPort = s.udpPort := rfl
@[simp] theorem State.setBatch_served (s : State) (b : Nat) (x : Batch) : (s.setBatch b x).served = s.served := rfl
@[simp] theorem State.setBatch_waits (s : State) (b : Nat) (x : Batch) : (s.setBatch b x).waits = s.waits := rfl
@[simp] theorem State.setBatch_sliceOwner (s : State) (b : Nat) (x : Batch) : (s.setBatch b x).sliceOwner = s.sliceOwner := rfl
@[simp] theorem State.setBatch_busOwner (s : State) (b : Nat) (x : Batch) : (s.setBatch b x).busOwner = s.busOwner := rfl
@[simp] theorem State.setBatch_acqOwner (s : State) (b : Nat) (x : Batch) : (s.setBatch b x).acqOwner = s.acqOwner := rfl
@[simp] theorem State.setBatch_acqs (s : State) (b : Nat) (x : Batch) : (s.setBatch b x).acqs = s.acqs := rfl
@[simp] theorem State.setBatch_tdcs (s : State) (b : Nat) (x : Batch) : (s.setBatch b x).tdcs = s.tdcs := rfl
@[simp] theorem State.setBatch_fixture (s : State) (b : Nat) (x : Batch) : (s.setBatch b x).fixture = s.fixture := rfl
@[simp] theorem State.setBatch_cal (s : State) (b : Nat) (x : Batch) : (s.setBatch b x).cal = s.cal := rfl
@[simp] theorem State.setBatch_flt (s : State) (b : Nat) (x : Batch) : (s.setBatch b x).flt = s.flt := rfl
@[simp] theorem State.setBatch_rep (s : State) (b : Nat) (x : Batch) : (s.setBatch b x).rep = s.rep := rfl
@[simp] theorem State.setBatch_ctrs (s : State) (b : Nat) (x : Batch) : (s.setBatch b x).ctrs = s.ctrs := rfl
@[simp] theorem State.setBatch_wins (s : State) (b : Nat) (x : Batch) : (s.setBatch b x).wins = s.wins := rfl
@[simp] theorem State.setBatch_pwr (s : State) (b : Nat) (x : Batch) : (s.setBatch b x).pwr = s.pwr := rfl
@[simp] theorem State.setBatch_dram (s : State) (b : Nat) (x : Batch) : (s.setBatch b x).dram = s.dram := rfl
@[simp] theorem State.setBatch_cellar (s : State) (b : Nat) (x : Batch) : (s.setBatch b x).cellar = s.cellar := rfl
@[simp] theorem State.setBatch_eths (s : State) (b : Nat) (x : Batch) : (s.setBatch b x).eths = s.eths := rfl
@[simp] theorem State.setBatch_syncs (s : State) (b : Nat) (x : Batch) : (s.setBatch b x).syncs = s.syncs := rfl
@[simp] theorem State.setBatch_commits (s : State) (b : Nat) (x : Batch) : (s.setBatch b x).commits = s.commits := rfl
@[simp] theorem State.setBatch_scripts (s : State) (b : Nat) (x : Batch) : (s.setBatch b x).scripts = s.scripts := rfl
@[simp] theorem State.setBatch_buses (s : State) (b : Nat) (x : Batch) : (s.setBatch b x).buses = s.buses := rfl
@[simp] theorem State.setBatch_peOrd (s : State) (b : Nat) (x : Batch) : (s.setBatch b x).peOrd = s.peOrd := rfl
@[simp] theorem State.setBatch_sched (s : State) (b : Nat) (x : Batch) : (s.setBatch b x).sched = s.sched := rfl
@[simp] theorem State.setBatch_irq (s : State) (b : Nat) (x : Batch) : (s.setBatch b x).irq = s.irq := rfl
@[simp] theorem State.setBatch_pcie (s : State) (b : Nat) (x : Batch) : (s.setBatch b x).pcie = s.pcie := rfl
@[simp] theorem State.setBatch_boot (s : State) (b : Nat) (x : Batch) : (s.setBatch b x).boot = s.boot := rfl
@[simp] theorem State.setBatch_pace (s : State) (b : Nat) (x : Batch) : (s.setBatch b x).pace = s.pace := rfl
@[simp] theorem State.setBatch_paceLow (s : State) (b : Nat) (x : Batch) : (s.setBatch b x).paceLow = s.paceLow := rfl
@[simp] theorem State.setBatch_drvPins (s : State) (b : Nat) (x : Batch) : (s.setBatch b x).drvPins = s.drvPins := rfl
@[simp] theorem State.setBatch_denPins (s : State) (b : Nat) (x : Batch) : (s.setBatch b x).denPins = s.denPins := rfl
@[simp] theorem State.setBatch_free (s : State) (b : Nat) (x : Batch) : (s.setBatch b x).free = s.free := rfl
@[simp] theorem State.setBatch_out (s : State) (b : Nat) (x : Batch) : (s.setBatch b x).out = s.out := rfl

/-! ## setSrc: writes flt -/

@[simp] theorem State.setSrc_pending (s : State) (n : Nat) (x : Src) : (s.setSrc n x).pending = s.pending := rfl
@[simp] theorem State.setSrc_tb (s : State) (n : Nat) (x : Src) : (s.setSrc n x).tb = s.tb := rfl
@[simp] theorem State.setSrc_ptp (s : State) (n : Nat) (x : Src) : (s.setSrc n x).ptp = s.ptp := rfl
@[simp] theorem State.setSrc_clks (s : State) (n : Nat) (x : Src) : (s.setSrc n x).clks = s.clks := rfl
@[simp] theorem State.setSrc_clkOwner (s : State) (n : Nat) (x : Src) : (s.setSrc n x).clkOwner = s.clkOwner := rfl
@[simp] theorem State.setSrc_trigOut (s : State) (n : Nat) (x : Src) : (s.setSrc n x).trigOut = s.trigOut := rfl
@[simp] theorem State.setSrc_trigOutOwner (s : State) (n : Nat) (x : Src) : (s.setSrc n x).trigOutOwner = s.trigOutOwner := rfl
@[simp] theorem State.setSrc_trigIn (s : State) (n : Nat) (x : Src) : (s.setSrc n x).trigIn = s.trigIn := rfl
@[simp] theorem State.setSrc_trigInOwner (s : State) (n : Nat) (x : Src) : (s.setSrc n x).trigInOwner = s.trigInOwner := rfl
@[simp] theorem State.setSrc_taps (s : State) (n : Nat) (x : Src) : (s.setSrc n x).taps = s.taps := rfl
@[simp] theorem State.setSrc_netTaps (s : State) (n : Nat) (x : Src) : (s.setSrc n x).netTaps = s.netTaps := rfl
@[simp] theorem State.setSrc_udpPort (s : State) (n : Nat) (x : Src) : (s.setSrc n x).udpPort = s.udpPort := rfl
@[simp] theorem State.setSrc_served (s : State) (n : Nat) (x : Src) : (s.setSrc n x).served = s.served := rfl
@[simp] theorem State.setSrc_waits (s : State) (n : Nat) (x : Src) : (s.setSrc n x).waits = s.waits := rfl
@[simp] theorem State.setSrc_batches (s : State) (n : Nat) (x : Src) : (s.setSrc n x).batches = s.batches := rfl
@[simp] theorem State.setSrc_sliceOwner (s : State) (n : Nat) (x : Src) : (s.setSrc n x).sliceOwner = s.sliceOwner := rfl
@[simp] theorem State.setSrc_busOwner (s : State) (n : Nat) (x : Src) : (s.setSrc n x).busOwner = s.busOwner := rfl
@[simp] theorem State.setSrc_acqOwner (s : State) (n : Nat) (x : Src) : (s.setSrc n x).acqOwner = s.acqOwner := rfl
@[simp] theorem State.setSrc_acqs (s : State) (n : Nat) (x : Src) : (s.setSrc n x).acqs = s.acqs := rfl
@[simp] theorem State.setSrc_tdcs (s : State) (n : Nat) (x : Src) : (s.setSrc n x).tdcs = s.tdcs := rfl
@[simp] theorem State.setSrc_fixture (s : State) (n : Nat) (x : Src) : (s.setSrc n x).fixture = s.fixture := rfl
@[simp] theorem State.setSrc_cal (s : State) (n : Nat) (x : Src) : (s.setSrc n x).cal = s.cal := rfl
@[simp] theorem State.setSrc_rep (s : State) (n : Nat) (x : Src) : (s.setSrc n x).rep = s.rep := rfl
@[simp] theorem State.setSrc_ctrs (s : State) (n : Nat) (x : Src) : (s.setSrc n x).ctrs = s.ctrs := rfl
@[simp] theorem State.setSrc_wins (s : State) (n : Nat) (x : Src) : (s.setSrc n x).wins = s.wins := rfl
@[simp] theorem State.setSrc_pwr (s : State) (n : Nat) (x : Src) : (s.setSrc n x).pwr = s.pwr := rfl
@[simp] theorem State.setSrc_dram (s : State) (n : Nat) (x : Src) : (s.setSrc n x).dram = s.dram := rfl
@[simp] theorem State.setSrc_cellar (s : State) (n : Nat) (x : Src) : (s.setSrc n x).cellar = s.cellar := rfl
@[simp] theorem State.setSrc_eths (s : State) (n : Nat) (x : Src) : (s.setSrc n x).eths = s.eths := rfl
@[simp] theorem State.setSrc_syncs (s : State) (n : Nat) (x : Src) : (s.setSrc n x).syncs = s.syncs := rfl
@[simp] theorem State.setSrc_commits (s : State) (n : Nat) (x : Src) : (s.setSrc n x).commits = s.commits := rfl
@[simp] theorem State.setSrc_scripts (s : State) (n : Nat) (x : Src) : (s.setSrc n x).scripts = s.scripts := rfl
@[simp] theorem State.setSrc_buses (s : State) (n : Nat) (x : Src) : (s.setSrc n x).buses = s.buses := rfl
@[simp] theorem State.setSrc_peOrd (s : State) (n : Nat) (x : Src) : (s.setSrc n x).peOrd = s.peOrd := rfl
@[simp] theorem State.setSrc_sched (s : State) (n : Nat) (x : Src) : (s.setSrc n x).sched = s.sched := rfl
@[simp] theorem State.setSrc_irq (s : State) (n : Nat) (x : Src) : (s.setSrc n x).irq = s.irq := rfl
@[simp] theorem State.setSrc_pcie (s : State) (n : Nat) (x : Src) : (s.setSrc n x).pcie = s.pcie := rfl
@[simp] theorem State.setSrc_boot (s : State) (n : Nat) (x : Src) : (s.setSrc n x).boot = s.boot := rfl
@[simp] theorem State.setSrc_pace (s : State) (n : Nat) (x : Src) : (s.setSrc n x).pace = s.pace := rfl
@[simp] theorem State.setSrc_paceLow (s : State) (n : Nat) (x : Src) : (s.setSrc n x).paceLow = s.paceLow := rfl
@[simp] theorem State.setSrc_drvPins (s : State) (n : Nat) (x : Src) : (s.setSrc n x).drvPins = s.drvPins := rfl
@[simp] theorem State.setSrc_denPins (s : State) (n : Nat) (x : Src) : (s.setSrc n x).denPins = s.denPins := rfl
@[simp] theorem State.setSrc_free (s : State) (n : Nat) (x : Src) : (s.setSrc n x).free = s.free := rfl
@[simp] theorem State.setSrc_out (s : State) (n : Nat) (x : Src) : (s.setSrc n x).out = s.out := rfl

/-! ## setStack: writes dram -/

@[simp] theorem State.setStack_pending (s : State) (q : Nat) (x : Stack) : (s.setStack q x).pending = s.pending := rfl
@[simp] theorem State.setStack_tb (s : State) (q : Nat) (x : Stack) : (s.setStack q x).tb = s.tb := rfl
@[simp] theorem State.setStack_ptp (s : State) (q : Nat) (x : Stack) : (s.setStack q x).ptp = s.ptp := rfl
@[simp] theorem State.setStack_clks (s : State) (q : Nat) (x : Stack) : (s.setStack q x).clks = s.clks := rfl
@[simp] theorem State.setStack_clkOwner (s : State) (q : Nat) (x : Stack) : (s.setStack q x).clkOwner = s.clkOwner := rfl
@[simp] theorem State.setStack_trigOut (s : State) (q : Nat) (x : Stack) : (s.setStack q x).trigOut = s.trigOut := rfl
@[simp] theorem State.setStack_trigOutOwner (s : State) (q : Nat) (x : Stack) : (s.setStack q x).trigOutOwner = s.trigOutOwner := rfl
@[simp] theorem State.setStack_trigIn (s : State) (q : Nat) (x : Stack) : (s.setStack q x).trigIn = s.trigIn := rfl
@[simp] theorem State.setStack_trigInOwner (s : State) (q : Nat) (x : Stack) : (s.setStack q x).trigInOwner = s.trigInOwner := rfl
@[simp] theorem State.setStack_taps (s : State) (q : Nat) (x : Stack) : (s.setStack q x).taps = s.taps := rfl
@[simp] theorem State.setStack_netTaps (s : State) (q : Nat) (x : Stack) : (s.setStack q x).netTaps = s.netTaps := rfl
@[simp] theorem State.setStack_udpPort (s : State) (q : Nat) (x : Stack) : (s.setStack q x).udpPort = s.udpPort := rfl
@[simp] theorem State.setStack_served (s : State) (q : Nat) (x : Stack) : (s.setStack q x).served = s.served := rfl
@[simp] theorem State.setStack_waits (s : State) (q : Nat) (x : Stack) : (s.setStack q x).waits = s.waits := rfl
@[simp] theorem State.setStack_batches (s : State) (q : Nat) (x : Stack) : (s.setStack q x).batches = s.batches := rfl
@[simp] theorem State.setStack_sliceOwner (s : State) (q : Nat) (x : Stack) : (s.setStack q x).sliceOwner = s.sliceOwner := rfl
@[simp] theorem State.setStack_busOwner (s : State) (q : Nat) (x : Stack) : (s.setStack q x).busOwner = s.busOwner := rfl
@[simp] theorem State.setStack_acqOwner (s : State) (q : Nat) (x : Stack) : (s.setStack q x).acqOwner = s.acqOwner := rfl
@[simp] theorem State.setStack_acqs (s : State) (q : Nat) (x : Stack) : (s.setStack q x).acqs = s.acqs := rfl
@[simp] theorem State.setStack_tdcs (s : State) (q : Nat) (x : Stack) : (s.setStack q x).tdcs = s.tdcs := rfl
@[simp] theorem State.setStack_fixture (s : State) (q : Nat) (x : Stack) : (s.setStack q x).fixture = s.fixture := rfl
@[simp] theorem State.setStack_cal (s : State) (q : Nat) (x : Stack) : (s.setStack q x).cal = s.cal := rfl
@[simp] theorem State.setStack_flt (s : State) (q : Nat) (x : Stack) : (s.setStack q x).flt = s.flt := rfl
@[simp] theorem State.setStack_rep (s : State) (q : Nat) (x : Stack) : (s.setStack q x).rep = s.rep := rfl
@[simp] theorem State.setStack_ctrs (s : State) (q : Nat) (x : Stack) : (s.setStack q x).ctrs = s.ctrs := rfl
@[simp] theorem State.setStack_wins (s : State) (q : Nat) (x : Stack) : (s.setStack q x).wins = s.wins := rfl
@[simp] theorem State.setStack_pwr (s : State) (q : Nat) (x : Stack) : (s.setStack q x).pwr = s.pwr := rfl
@[simp] theorem State.setStack_cellar (s : State) (q : Nat) (x : Stack) : (s.setStack q x).cellar = s.cellar := rfl
@[simp] theorem State.setStack_eths (s : State) (q : Nat) (x : Stack) : (s.setStack q x).eths = s.eths := rfl
@[simp] theorem State.setStack_syncs (s : State) (q : Nat) (x : Stack) : (s.setStack q x).syncs = s.syncs := rfl
@[simp] theorem State.setStack_commits (s : State) (q : Nat) (x : Stack) : (s.setStack q x).commits = s.commits := rfl
@[simp] theorem State.setStack_scripts (s : State) (q : Nat) (x : Stack) : (s.setStack q x).scripts = s.scripts := rfl
@[simp] theorem State.setStack_buses (s : State) (q : Nat) (x : Stack) : (s.setStack q x).buses = s.buses := rfl
@[simp] theorem State.setStack_peOrd (s : State) (q : Nat) (x : Stack) : (s.setStack q x).peOrd = s.peOrd := rfl
@[simp] theorem State.setStack_sched (s : State) (q : Nat) (x : Stack) : (s.setStack q x).sched = s.sched := rfl
@[simp] theorem State.setStack_irq (s : State) (q : Nat) (x : Stack) : (s.setStack q x).irq = s.irq := rfl
@[simp] theorem State.setStack_pcie (s : State) (q : Nat) (x : Stack) : (s.setStack q x).pcie = s.pcie := rfl
@[simp] theorem State.setStack_boot (s : State) (q : Nat) (x : Stack) : (s.setStack q x).boot = s.boot := rfl
@[simp] theorem State.setStack_pace (s : State) (q : Nat) (x : Stack) : (s.setStack q x).pace = s.pace := rfl
@[simp] theorem State.setStack_paceLow (s : State) (q : Nat) (x : Stack) : (s.setStack q x).paceLow = s.paceLow := rfl
@[simp] theorem State.setStack_drvPins (s : State) (q : Nat) (x : Stack) : (s.setStack q x).drvPins = s.drvPins := rfl
@[simp] theorem State.setStack_denPins (s : State) (q : Nat) (x : Stack) : (s.setStack q x).denPins = s.denPins := rfl
@[simp] theorem State.setStack_free (s : State) (q : Nat) (x : Stack) : (s.setStack q x).free = s.free := rfl
@[simp] theorem State.setStack_out (s : State) (q : Nat) (x : Stack) : (s.setStack q x).out = s.out := rfl

/-! ## poke: writes dram -/

@[simp] theorem State.poke_pending (s : State) (a : Nat) (v : List Byte) : (s.poke a v).pending = s.pending := rfl
@[simp] theorem State.poke_tb (s : State) (a : Nat) (v : List Byte) : (s.poke a v).tb = s.tb := rfl
@[simp] theorem State.poke_ptp (s : State) (a : Nat) (v : List Byte) : (s.poke a v).ptp = s.ptp := rfl
@[simp] theorem State.poke_clks (s : State) (a : Nat) (v : List Byte) : (s.poke a v).clks = s.clks := rfl
@[simp] theorem State.poke_clkOwner (s : State) (a : Nat) (v : List Byte) : (s.poke a v).clkOwner = s.clkOwner := rfl
@[simp] theorem State.poke_trigOut (s : State) (a : Nat) (v : List Byte) : (s.poke a v).trigOut = s.trigOut := rfl
@[simp] theorem State.poke_trigOutOwner (s : State) (a : Nat) (v : List Byte) : (s.poke a v).trigOutOwner = s.trigOutOwner := rfl
@[simp] theorem State.poke_trigIn (s : State) (a : Nat) (v : List Byte) : (s.poke a v).trigIn = s.trigIn := rfl
@[simp] theorem State.poke_trigInOwner (s : State) (a : Nat) (v : List Byte) : (s.poke a v).trigInOwner = s.trigInOwner := rfl
@[simp] theorem State.poke_taps (s : State) (a : Nat) (v : List Byte) : (s.poke a v).taps = s.taps := rfl
@[simp] theorem State.poke_netTaps (s : State) (a : Nat) (v : List Byte) : (s.poke a v).netTaps = s.netTaps := rfl
@[simp] theorem State.poke_udpPort (s : State) (a : Nat) (v : List Byte) : (s.poke a v).udpPort = s.udpPort := rfl
@[simp] theorem State.poke_served (s : State) (a : Nat) (v : List Byte) : (s.poke a v).served = s.served := rfl
@[simp] theorem State.poke_waits (s : State) (a : Nat) (v : List Byte) : (s.poke a v).waits = s.waits := rfl
@[simp] theorem State.poke_batches (s : State) (a : Nat) (v : List Byte) : (s.poke a v).batches = s.batches := rfl
@[simp] theorem State.poke_sliceOwner (s : State) (a : Nat) (v : List Byte) : (s.poke a v).sliceOwner = s.sliceOwner := rfl
@[simp] theorem State.poke_busOwner (s : State) (a : Nat) (v : List Byte) : (s.poke a v).busOwner = s.busOwner := rfl
@[simp] theorem State.poke_acqOwner (s : State) (a : Nat) (v : List Byte) : (s.poke a v).acqOwner = s.acqOwner := rfl
@[simp] theorem State.poke_acqs (s : State) (a : Nat) (v : List Byte) : (s.poke a v).acqs = s.acqs := rfl
@[simp] theorem State.poke_tdcs (s : State) (a : Nat) (v : List Byte) : (s.poke a v).tdcs = s.tdcs := rfl
@[simp] theorem State.poke_fixture (s : State) (a : Nat) (v : List Byte) : (s.poke a v).fixture = s.fixture := rfl
@[simp] theorem State.poke_cal (s : State) (a : Nat) (v : List Byte) : (s.poke a v).cal = s.cal := rfl
@[simp] theorem State.poke_flt (s : State) (a : Nat) (v : List Byte) : (s.poke a v).flt = s.flt := rfl
@[simp] theorem State.poke_rep (s : State) (a : Nat) (v : List Byte) : (s.poke a v).rep = s.rep := rfl
@[simp] theorem State.poke_ctrs (s : State) (a : Nat) (v : List Byte) : (s.poke a v).ctrs = s.ctrs := rfl
@[simp] theorem State.poke_wins (s : State) (a : Nat) (v : List Byte) : (s.poke a v).wins = s.wins := rfl
@[simp] theorem State.poke_pwr (s : State) (a : Nat) (v : List Byte) : (s.poke a v).pwr = s.pwr := rfl
@[simp] theorem State.poke_cellar (s : State) (a : Nat) (v : List Byte) : (s.poke a v).cellar = s.cellar := rfl
@[simp] theorem State.poke_eths (s : State) (a : Nat) (v : List Byte) : (s.poke a v).eths = s.eths := rfl
@[simp] theorem State.poke_syncs (s : State) (a : Nat) (v : List Byte) : (s.poke a v).syncs = s.syncs := rfl
@[simp] theorem State.poke_commits (s : State) (a : Nat) (v : List Byte) : (s.poke a v).commits = s.commits := rfl
@[simp] theorem State.poke_scripts (s : State) (a : Nat) (v : List Byte) : (s.poke a v).scripts = s.scripts := rfl
@[simp] theorem State.poke_buses (s : State) (a : Nat) (v : List Byte) : (s.poke a v).buses = s.buses := rfl
@[simp] theorem State.poke_peOrd (s : State) (a : Nat) (v : List Byte) : (s.poke a v).peOrd = s.peOrd := rfl
@[simp] theorem State.poke_sched (s : State) (a : Nat) (v : List Byte) : (s.poke a v).sched = s.sched := rfl
@[simp] theorem State.poke_irq (s : State) (a : Nat) (v : List Byte) : (s.poke a v).irq = s.irq := rfl
@[simp] theorem State.poke_pcie (s : State) (a : Nat) (v : List Byte) : (s.poke a v).pcie = s.pcie := rfl
@[simp] theorem State.poke_boot (s : State) (a : Nat) (v : List Byte) : (s.poke a v).boot = s.boot := rfl
@[simp] theorem State.poke_pace (s : State) (a : Nat) (v : List Byte) : (s.poke a v).pace = s.pace := rfl
@[simp] theorem State.poke_paceLow (s : State) (a : Nat) (v : List Byte) : (s.poke a v).paceLow = s.paceLow := rfl
@[simp] theorem State.poke_drvPins (s : State) (a : Nat) (v : List Byte) : (s.poke a v).drvPins = s.drvPins := rfl
@[simp] theorem State.poke_denPins (s : State) (a : Nat) (v : List Byte) : (s.poke a v).denPins = s.denPins := rfl
@[simp] theorem State.poke_free (s : State) (a : Nat) (v : List Byte) : (s.poke a v).free = s.free := rfl
@[simp] theorem State.poke_out (s : State) (a : Nat) (v : List Byte) : (s.poke a v).out = s.out := rfl

/-! ## count: writes ctrs -/

@[simp] theorem State.count_pending (s : State) (src n : Nat) (e : Ev) : (s.count src n e).pending = s.pending := rfl
@[simp] theorem State.count_tb (s : State) (src n : Nat) (e : Ev) : (s.count src n e).tb = s.tb := rfl
@[simp] theorem State.count_ptp (s : State) (src n : Nat) (e : Ev) : (s.count src n e).ptp = s.ptp := rfl
@[simp] theorem State.count_clks (s : State) (src n : Nat) (e : Ev) : (s.count src n e).clks = s.clks := rfl
@[simp] theorem State.count_clkOwner (s : State) (src n : Nat) (e : Ev) : (s.count src n e).clkOwner = s.clkOwner := rfl
@[simp] theorem State.count_trigOut (s : State) (src n : Nat) (e : Ev) : (s.count src n e).trigOut = s.trigOut := rfl
@[simp] theorem State.count_trigOutOwner (s : State) (src n : Nat) (e : Ev) : (s.count src n e).trigOutOwner = s.trigOutOwner := rfl
@[simp] theorem State.count_trigIn (s : State) (src n : Nat) (e : Ev) : (s.count src n e).trigIn = s.trigIn := rfl
@[simp] theorem State.count_trigInOwner (s : State) (src n : Nat) (e : Ev) : (s.count src n e).trigInOwner = s.trigInOwner := rfl
@[simp] theorem State.count_taps (s : State) (src n : Nat) (e : Ev) : (s.count src n e).taps = s.taps := rfl
@[simp] theorem State.count_netTaps (s : State) (src n : Nat) (e : Ev) : (s.count src n e).netTaps = s.netTaps := rfl
@[simp] theorem State.count_udpPort (s : State) (src n : Nat) (e : Ev) : (s.count src n e).udpPort = s.udpPort := rfl
@[simp] theorem State.count_served (s : State) (src n : Nat) (e : Ev) : (s.count src n e).served = s.served := rfl
@[simp] theorem State.count_waits (s : State) (src n : Nat) (e : Ev) : (s.count src n e).waits = s.waits := rfl
@[simp] theorem State.count_batches (s : State) (src n : Nat) (e : Ev) : (s.count src n e).batches = s.batches := rfl
@[simp] theorem State.count_sliceOwner (s : State) (src n : Nat) (e : Ev) : (s.count src n e).sliceOwner = s.sliceOwner := rfl
@[simp] theorem State.count_busOwner (s : State) (src n : Nat) (e : Ev) : (s.count src n e).busOwner = s.busOwner := rfl
@[simp] theorem State.count_acqOwner (s : State) (src n : Nat) (e : Ev) : (s.count src n e).acqOwner = s.acqOwner := rfl
@[simp] theorem State.count_acqs (s : State) (src n : Nat) (e : Ev) : (s.count src n e).acqs = s.acqs := rfl
@[simp] theorem State.count_tdcs (s : State) (src n : Nat) (e : Ev) : (s.count src n e).tdcs = s.tdcs := rfl
@[simp] theorem State.count_fixture (s : State) (src n : Nat) (e : Ev) : (s.count src n e).fixture = s.fixture := rfl
@[simp] theorem State.count_cal (s : State) (src n : Nat) (e : Ev) : (s.count src n e).cal = s.cal := rfl
@[simp] theorem State.count_flt (s : State) (src n : Nat) (e : Ev) : (s.count src n e).flt = s.flt := rfl
@[simp] theorem State.count_rep (s : State) (src n : Nat) (e : Ev) : (s.count src n e).rep = s.rep := rfl
@[simp] theorem State.count_wins (s : State) (src n : Nat) (e : Ev) : (s.count src n e).wins = s.wins := rfl
@[simp] theorem State.count_pwr (s : State) (src n : Nat) (e : Ev) : (s.count src n e).pwr = s.pwr := rfl
@[simp] theorem State.count_dram (s : State) (src n : Nat) (e : Ev) : (s.count src n e).dram = s.dram := rfl
@[simp] theorem State.count_cellar (s : State) (src n : Nat) (e : Ev) : (s.count src n e).cellar = s.cellar := rfl
@[simp] theorem State.count_eths (s : State) (src n : Nat) (e : Ev) : (s.count src n e).eths = s.eths := rfl
@[simp] theorem State.count_syncs (s : State) (src n : Nat) (e : Ev) : (s.count src n e).syncs = s.syncs := rfl
@[simp] theorem State.count_commits (s : State) (src n : Nat) (e : Ev) : (s.count src n e).commits = s.commits := rfl
@[simp] theorem State.count_scripts (s : State) (src n : Nat) (e : Ev) : (s.count src n e).scripts = s.scripts := rfl
@[simp] theorem State.count_buses (s : State) (src n : Nat) (e : Ev) : (s.count src n e).buses = s.buses := rfl
@[simp] theorem State.count_peOrd (s : State) (src n : Nat) (e : Ev) : (s.count src n e).peOrd = s.peOrd := rfl
@[simp] theorem State.count_sched (s : State) (src n : Nat) (e : Ev) : (s.count src n e).sched = s.sched := rfl
@[simp] theorem State.count_irq (s : State) (src n : Nat) (e : Ev) : (s.count src n e).irq = s.irq := rfl
@[simp] theorem State.count_pcie (s : State) (src n : Nat) (e : Ev) : (s.count src n e).pcie = s.pcie := rfl
@[simp] theorem State.count_boot (s : State) (src n : Nat) (e : Ev) : (s.count src n e).boot = s.boot := rfl
@[simp] theorem State.count_pace (s : State) (src n : Nat) (e : Ev) : (s.count src n e).pace = s.pace := rfl
@[simp] theorem State.count_paceLow (s : State) (src n : Nat) (e : Ev) : (s.count src n e).paceLow = s.paceLow := rfl
@[simp] theorem State.count_drvPins (s : State) (src n : Nat) (e : Ev) : (s.count src n e).drvPins = s.drvPins := rfl
@[simp] theorem State.count_denPins (s : State) (src n : Nat) (e : Ev) : (s.count src n e).denPins = s.denPins := rfl
@[simp] theorem State.count_free (s : State) (src n : Nat) (e : Ev) : (s.count src n e).free = s.free := rfl
@[simp] theorem State.count_out (s : State) (src n : Nat) (e : Ev) : (s.count src n e).out = s.out := rfl

/-! ## emit: writes out -/

@[simp] theorem State.emit_pending (s : State) (x : Out) : (s.emit x).pending = s.pending := rfl
@[simp] theorem State.emit_tb (s : State) (x : Out) : (s.emit x).tb = s.tb := rfl
@[simp] theorem State.emit_ptp (s : State) (x : Out) : (s.emit x).ptp = s.ptp := rfl
@[simp] theorem State.emit_clks (s : State) (x : Out) : (s.emit x).clks = s.clks := rfl
@[simp] theorem State.emit_clkOwner (s : State) (x : Out) : (s.emit x).clkOwner = s.clkOwner := rfl
@[simp] theorem State.emit_trigOut (s : State) (x : Out) : (s.emit x).trigOut = s.trigOut := rfl
@[simp] theorem State.emit_trigOutOwner (s : State) (x : Out) : (s.emit x).trigOutOwner = s.trigOutOwner := rfl
@[simp] theorem State.emit_trigIn (s : State) (x : Out) : (s.emit x).trigIn = s.trigIn := rfl
@[simp] theorem State.emit_trigInOwner (s : State) (x : Out) : (s.emit x).trigInOwner = s.trigInOwner := rfl
@[simp] theorem State.emit_taps (s : State) (x : Out) : (s.emit x).taps = s.taps := rfl
@[simp] theorem State.emit_netTaps (s : State) (x : Out) : (s.emit x).netTaps = s.netTaps := rfl
@[simp] theorem State.emit_udpPort (s : State) (x : Out) : (s.emit x).udpPort = s.udpPort := rfl
@[simp] theorem State.emit_served (s : State) (x : Out) : (s.emit x).served = s.served := rfl
@[simp] theorem State.emit_waits (s : State) (x : Out) : (s.emit x).waits = s.waits := rfl
@[simp] theorem State.emit_batches (s : State) (x : Out) : (s.emit x).batches = s.batches := rfl
@[simp] theorem State.emit_sliceOwner (s : State) (x : Out) : (s.emit x).sliceOwner = s.sliceOwner := rfl
@[simp] theorem State.emit_busOwner (s : State) (x : Out) : (s.emit x).busOwner = s.busOwner := rfl
@[simp] theorem State.emit_acqOwner (s : State) (x : Out) : (s.emit x).acqOwner = s.acqOwner := rfl
@[simp] theorem State.emit_acqs (s : State) (x : Out) : (s.emit x).acqs = s.acqs := rfl
@[simp] theorem State.emit_tdcs (s : State) (x : Out) : (s.emit x).tdcs = s.tdcs := rfl
@[simp] theorem State.emit_fixture (s : State) (x : Out) : (s.emit x).fixture = s.fixture := rfl
@[simp] theorem State.emit_cal (s : State) (x : Out) : (s.emit x).cal = s.cal := rfl
@[simp] theorem State.emit_flt (s : State) (x : Out) : (s.emit x).flt = s.flt := rfl
@[simp] theorem State.emit_rep (s : State) (x : Out) : (s.emit x).rep = s.rep := rfl
@[simp] theorem State.emit_ctrs (s : State) (x : Out) : (s.emit x).ctrs = s.ctrs := rfl
@[simp] theorem State.emit_wins (s : State) (x : Out) : (s.emit x).wins = s.wins := rfl
@[simp] theorem State.emit_pwr (s : State) (x : Out) : (s.emit x).pwr = s.pwr := rfl
@[simp] theorem State.emit_dram (s : State) (x : Out) : (s.emit x).dram = s.dram := rfl
@[simp] theorem State.emit_cellar (s : State) (x : Out) : (s.emit x).cellar = s.cellar := rfl
@[simp] theorem State.emit_eths (s : State) (x : Out) : (s.emit x).eths = s.eths := rfl
@[simp] theorem State.emit_syncs (s : State) (x : Out) : (s.emit x).syncs = s.syncs := rfl
@[simp] theorem State.emit_commits (s : State) (x : Out) : (s.emit x).commits = s.commits := rfl
@[simp] theorem State.emit_scripts (s : State) (x : Out) : (s.emit x).scripts = s.scripts := rfl
@[simp] theorem State.emit_buses (s : State) (x : Out) : (s.emit x).buses = s.buses := rfl
@[simp] theorem State.emit_peOrd (s : State) (x : Out) : (s.emit x).peOrd = s.peOrd := rfl
@[simp] theorem State.emit_sched (s : State) (x : Out) : (s.emit x).sched = s.sched := rfl
@[simp] theorem State.emit_irq (s : State) (x : Out) : (s.emit x).irq = s.irq := rfl
@[simp] theorem State.emit_pcie (s : State) (x : Out) : (s.emit x).pcie = s.pcie := rfl
@[simp] theorem State.emit_boot (s : State) (x : Out) : (s.emit x).boot = s.boot := rfl
@[simp] theorem State.emit_pace (s : State) (x : Out) : (s.emit x).pace = s.pace := rfl
@[simp] theorem State.emit_paceLow (s : State) (x : Out) : (s.emit x).paceLow = s.paceLow := rfl
@[simp] theorem State.emit_drvPins (s : State) (x : Out) : (s.emit x).drvPins = s.drvPins := rfl
@[simp] theorem State.emit_denPins (s : State) (x : Out) : (s.emit x).denPins = s.denPins := rfl
@[simp] theorem State.emit_free (s : State) (x : Out) : (s.emit x).free = s.free := rfl

/-! ## setBus: writes buses -/

@[simp] theorem State.setBus_pending (s : State) (n : Nat) (x : Bus) : (s.setBus n x).pending = s.pending := rfl
@[simp] theorem State.setBus_tb (s : State) (n : Nat) (x : Bus) : (s.setBus n x).tb = s.tb := rfl
@[simp] theorem State.setBus_ptp (s : State) (n : Nat) (x : Bus) : (s.setBus n x).ptp = s.ptp := rfl
@[simp] theorem State.setBus_clks (s : State) (n : Nat) (x : Bus) : (s.setBus n x).clks = s.clks := rfl
@[simp] theorem State.setBus_clkOwner (s : State) (n : Nat) (x : Bus) : (s.setBus n x).clkOwner = s.clkOwner := rfl
@[simp] theorem State.setBus_trigOut (s : State) (n : Nat) (x : Bus) : (s.setBus n x).trigOut = s.trigOut := rfl
@[simp] theorem State.setBus_trigOutOwner (s : State) (n : Nat) (x : Bus) : (s.setBus n x).trigOutOwner = s.trigOutOwner := rfl
@[simp] theorem State.setBus_trigIn (s : State) (n : Nat) (x : Bus) : (s.setBus n x).trigIn = s.trigIn := rfl
@[simp] theorem State.setBus_trigInOwner (s : State) (n : Nat) (x : Bus) : (s.setBus n x).trigInOwner = s.trigInOwner := rfl
@[simp] theorem State.setBus_taps (s : State) (n : Nat) (x : Bus) : (s.setBus n x).taps = s.taps := rfl
@[simp] theorem State.setBus_netTaps (s : State) (n : Nat) (x : Bus) : (s.setBus n x).netTaps = s.netTaps := rfl
@[simp] theorem State.setBus_udpPort (s : State) (n : Nat) (x : Bus) : (s.setBus n x).udpPort = s.udpPort := rfl
@[simp] theorem State.setBus_served (s : State) (n : Nat) (x : Bus) : (s.setBus n x).served = s.served := rfl
@[simp] theorem State.setBus_waits (s : State) (n : Nat) (x : Bus) : (s.setBus n x).waits = s.waits := rfl
@[simp] theorem State.setBus_batches (s : State) (n : Nat) (x : Bus) : (s.setBus n x).batches = s.batches := rfl
@[simp] theorem State.setBus_sliceOwner (s : State) (n : Nat) (x : Bus) : (s.setBus n x).sliceOwner = s.sliceOwner := rfl
@[simp] theorem State.setBus_busOwner (s : State) (n : Nat) (x : Bus) : (s.setBus n x).busOwner = s.busOwner := rfl
@[simp] theorem State.setBus_acqOwner (s : State) (n : Nat) (x : Bus) : (s.setBus n x).acqOwner = s.acqOwner := rfl
@[simp] theorem State.setBus_acqs (s : State) (n : Nat) (x : Bus) : (s.setBus n x).acqs = s.acqs := rfl
@[simp] theorem State.setBus_tdcs (s : State) (n : Nat) (x : Bus) : (s.setBus n x).tdcs = s.tdcs := rfl
@[simp] theorem State.setBus_fixture (s : State) (n : Nat) (x : Bus) : (s.setBus n x).fixture = s.fixture := rfl
@[simp] theorem State.setBus_cal (s : State) (n : Nat) (x : Bus) : (s.setBus n x).cal = s.cal := rfl
@[simp] theorem State.setBus_flt (s : State) (n : Nat) (x : Bus) : (s.setBus n x).flt = s.flt := rfl
@[simp] theorem State.setBus_rep (s : State) (n : Nat) (x : Bus) : (s.setBus n x).rep = s.rep := rfl
@[simp] theorem State.setBus_ctrs (s : State) (n : Nat) (x : Bus) : (s.setBus n x).ctrs = s.ctrs := rfl
@[simp] theorem State.setBus_wins (s : State) (n : Nat) (x : Bus) : (s.setBus n x).wins = s.wins := rfl
@[simp] theorem State.setBus_pwr (s : State) (n : Nat) (x : Bus) : (s.setBus n x).pwr = s.pwr := rfl
@[simp] theorem State.setBus_dram (s : State) (n : Nat) (x : Bus) : (s.setBus n x).dram = s.dram := rfl
@[simp] theorem State.setBus_cellar (s : State) (n : Nat) (x : Bus) : (s.setBus n x).cellar = s.cellar := rfl
@[simp] theorem State.setBus_eths (s : State) (n : Nat) (x : Bus) : (s.setBus n x).eths = s.eths := rfl
@[simp] theorem State.setBus_syncs (s : State) (n : Nat) (x : Bus) : (s.setBus n x).syncs = s.syncs := rfl
@[simp] theorem State.setBus_commits (s : State) (n : Nat) (x : Bus) : (s.setBus n x).commits = s.commits := rfl
@[simp] theorem State.setBus_scripts (s : State) (n : Nat) (x : Bus) : (s.setBus n x).scripts = s.scripts := rfl
@[simp] theorem State.setBus_peOrd (s : State) (n : Nat) (x : Bus) : (s.setBus n x).peOrd = s.peOrd := rfl
@[simp] theorem State.setBus_sched (s : State) (n : Nat) (x : Bus) : (s.setBus n x).sched = s.sched := rfl
@[simp] theorem State.setBus_irq (s : State) (n : Nat) (x : Bus) : (s.setBus n x).irq = s.irq := rfl
@[simp] theorem State.setBus_pcie (s : State) (n : Nat) (x : Bus) : (s.setBus n x).pcie = s.pcie := rfl
@[simp] theorem State.setBus_boot (s : State) (n : Nat) (x : Bus) : (s.setBus n x).boot = s.boot := rfl
@[simp] theorem State.setBus_pace (s : State) (n : Nat) (x : Bus) : (s.setBus n x).pace = s.pace := rfl
@[simp] theorem State.setBus_paceLow (s : State) (n : Nat) (x : Bus) : (s.setBus n x).paceLow = s.paceLow := rfl
@[simp] theorem State.setBus_drvPins (s : State) (n : Nat) (x : Bus) : (s.setBus n x).drvPins = s.drvPins := rfl
@[simp] theorem State.setBus_denPins (s : State) (n : Nat) (x : Bus) : (s.setBus n x).denPins = s.denPins := rfl
@[simp] theorem State.setBus_free (s : State) (n : Nat) (x : Bus) : (s.setBus n x).free = s.free := rfl
@[simp] theorem State.setBus_out (s : State) (n : Nat) (x : Bus) : (s.setBus n x).out = s.out := rfl

/-! ## setAcq: writes acqs -/

@[simp] theorem State.setAcq_pending (s : State) (n : Nat) (x : Acq) : (s.setAcq n x).pending = s.pending := rfl
@[simp] theorem State.setAcq_tb (s : State) (n : Nat) (x : Acq) : (s.setAcq n x).tb = s.tb := rfl
@[simp] theorem State.setAcq_ptp (s : State) (n : Nat) (x : Acq) : (s.setAcq n x).ptp = s.ptp := rfl
@[simp] theorem State.setAcq_clks (s : State) (n : Nat) (x : Acq) : (s.setAcq n x).clks = s.clks := rfl
@[simp] theorem State.setAcq_clkOwner (s : State) (n : Nat) (x : Acq) : (s.setAcq n x).clkOwner = s.clkOwner := rfl
@[simp] theorem State.setAcq_trigOut (s : State) (n : Nat) (x : Acq) : (s.setAcq n x).trigOut = s.trigOut := rfl
@[simp] theorem State.setAcq_trigOutOwner (s : State) (n : Nat) (x : Acq) : (s.setAcq n x).trigOutOwner = s.trigOutOwner := rfl
@[simp] theorem State.setAcq_trigIn (s : State) (n : Nat) (x : Acq) : (s.setAcq n x).trigIn = s.trigIn := rfl
@[simp] theorem State.setAcq_trigInOwner (s : State) (n : Nat) (x : Acq) : (s.setAcq n x).trigInOwner = s.trigInOwner := rfl
@[simp] theorem State.setAcq_taps (s : State) (n : Nat) (x : Acq) : (s.setAcq n x).taps = s.taps := rfl
@[simp] theorem State.setAcq_netTaps (s : State) (n : Nat) (x : Acq) : (s.setAcq n x).netTaps = s.netTaps := rfl
@[simp] theorem State.setAcq_udpPort (s : State) (n : Nat) (x : Acq) : (s.setAcq n x).udpPort = s.udpPort := rfl
@[simp] theorem State.setAcq_served (s : State) (n : Nat) (x : Acq) : (s.setAcq n x).served = s.served := rfl
@[simp] theorem State.setAcq_waits (s : State) (n : Nat) (x : Acq) : (s.setAcq n x).waits = s.waits := rfl
@[simp] theorem State.setAcq_batches (s : State) (n : Nat) (x : Acq) : (s.setAcq n x).batches = s.batches := rfl
@[simp] theorem State.setAcq_sliceOwner (s : State) (n : Nat) (x : Acq) : (s.setAcq n x).sliceOwner = s.sliceOwner := rfl
@[simp] theorem State.setAcq_busOwner (s : State) (n : Nat) (x : Acq) : (s.setAcq n x).busOwner = s.busOwner := rfl
@[simp] theorem State.setAcq_acqOwner (s : State) (n : Nat) (x : Acq) : (s.setAcq n x).acqOwner = s.acqOwner := rfl
@[simp] theorem State.setAcq_tdcs (s : State) (n : Nat) (x : Acq) : (s.setAcq n x).tdcs = s.tdcs := rfl
@[simp] theorem State.setAcq_fixture (s : State) (n : Nat) (x : Acq) : (s.setAcq n x).fixture = s.fixture := rfl
@[simp] theorem State.setAcq_cal (s : State) (n : Nat) (x : Acq) : (s.setAcq n x).cal = s.cal := rfl
@[simp] theorem State.setAcq_flt (s : State) (n : Nat) (x : Acq) : (s.setAcq n x).flt = s.flt := rfl
@[simp] theorem State.setAcq_rep (s : State) (n : Nat) (x : Acq) : (s.setAcq n x).rep = s.rep := rfl
@[simp] theorem State.setAcq_ctrs (s : State) (n : Nat) (x : Acq) : (s.setAcq n x).ctrs = s.ctrs := rfl
@[simp] theorem State.setAcq_wins (s : State) (n : Nat) (x : Acq) : (s.setAcq n x).wins = s.wins := rfl
@[simp] theorem State.setAcq_pwr (s : State) (n : Nat) (x : Acq) : (s.setAcq n x).pwr = s.pwr := rfl
@[simp] theorem State.setAcq_dram (s : State) (n : Nat) (x : Acq) : (s.setAcq n x).dram = s.dram := rfl
@[simp] theorem State.setAcq_cellar (s : State) (n : Nat) (x : Acq) : (s.setAcq n x).cellar = s.cellar := rfl
@[simp] theorem State.setAcq_eths (s : State) (n : Nat) (x : Acq) : (s.setAcq n x).eths = s.eths := rfl
@[simp] theorem State.setAcq_syncs (s : State) (n : Nat) (x : Acq) : (s.setAcq n x).syncs = s.syncs := rfl
@[simp] theorem State.setAcq_commits (s : State) (n : Nat) (x : Acq) : (s.setAcq n x).commits = s.commits := rfl
@[simp] theorem State.setAcq_scripts (s : State) (n : Nat) (x : Acq) : (s.setAcq n x).scripts = s.scripts := rfl
@[simp] theorem State.setAcq_buses (s : State) (n : Nat) (x : Acq) : (s.setAcq n x).buses = s.buses := rfl
@[simp] theorem State.setAcq_peOrd (s : State) (n : Nat) (x : Acq) : (s.setAcq n x).peOrd = s.peOrd := rfl
@[simp] theorem State.setAcq_sched (s : State) (n : Nat) (x : Acq) : (s.setAcq n x).sched = s.sched := rfl
@[simp] theorem State.setAcq_irq (s : State) (n : Nat) (x : Acq) : (s.setAcq n x).irq = s.irq := rfl
@[simp] theorem State.setAcq_pcie (s : State) (n : Nat) (x : Acq) : (s.setAcq n x).pcie = s.pcie := rfl
@[simp] theorem State.setAcq_boot (s : State) (n : Nat) (x : Acq) : (s.setAcq n x).boot = s.boot := rfl
@[simp] theorem State.setAcq_pace (s : State) (n : Nat) (x : Acq) : (s.setAcq n x).pace = s.pace := rfl
@[simp] theorem State.setAcq_paceLow (s : State) (n : Nat) (x : Acq) : (s.setAcq n x).paceLow = s.paceLow := rfl
@[simp] theorem State.setAcq_drvPins (s : State) (n : Nat) (x : Acq) : (s.setAcq n x).drvPins = s.drvPins := rfl
@[simp] theorem State.setAcq_denPins (s : State) (n : Nat) (x : Acq) : (s.setAcq n x).denPins = s.denPins := rfl
@[simp] theorem State.setAcq_free (s : State) (n : Nat) (x : Acq) : (s.setAcq n x).free = s.free := rfl
@[simp] theorem State.setAcq_out (s : State) (n : Nat) (x : Acq) : (s.setAcq n x).out = s.out := rfl

/-! ## setItem: writes cal -/

@[simp] theorem State.setItem_pending (s : State) (i : Nat) (x : CalItem) : (s.setItem i x).pending = s.pending := rfl
@[simp] theorem State.setItem_tb (s : State) (i : Nat) (x : CalItem) : (s.setItem i x).tb = s.tb := rfl
@[simp] theorem State.setItem_ptp (s : State) (i : Nat) (x : CalItem) : (s.setItem i x).ptp = s.ptp := rfl
@[simp] theorem State.setItem_clks (s : State) (i : Nat) (x : CalItem) : (s.setItem i x).clks = s.clks := rfl
@[simp] theorem State.setItem_clkOwner (s : State) (i : Nat) (x : CalItem) : (s.setItem i x).clkOwner = s.clkOwner := rfl
@[simp] theorem State.setItem_trigOut (s : State) (i : Nat) (x : CalItem) : (s.setItem i x).trigOut = s.trigOut := rfl
@[simp] theorem State.setItem_trigOutOwner (s : State) (i : Nat) (x : CalItem) : (s.setItem i x).trigOutOwner = s.trigOutOwner := rfl
@[simp] theorem State.setItem_trigIn (s : State) (i : Nat) (x : CalItem) : (s.setItem i x).trigIn = s.trigIn := rfl
@[simp] theorem State.setItem_trigInOwner (s : State) (i : Nat) (x : CalItem) : (s.setItem i x).trigInOwner = s.trigInOwner := rfl
@[simp] theorem State.setItem_taps (s : State) (i : Nat) (x : CalItem) : (s.setItem i x).taps = s.taps := rfl
@[simp] theorem State.setItem_netTaps (s : State) (i : Nat) (x : CalItem) : (s.setItem i x).netTaps = s.netTaps := rfl
@[simp] theorem State.setItem_udpPort (s : State) (i : Nat) (x : CalItem) : (s.setItem i x).udpPort = s.udpPort := rfl
@[simp] theorem State.setItem_served (s : State) (i : Nat) (x : CalItem) : (s.setItem i x).served = s.served := rfl
@[simp] theorem State.setItem_waits (s : State) (i : Nat) (x : CalItem) : (s.setItem i x).waits = s.waits := rfl
@[simp] theorem State.setItem_batches (s : State) (i : Nat) (x : CalItem) : (s.setItem i x).batches = s.batches := rfl
@[simp] theorem State.setItem_sliceOwner (s : State) (i : Nat) (x : CalItem) : (s.setItem i x).sliceOwner = s.sliceOwner := rfl
@[simp] theorem State.setItem_busOwner (s : State) (i : Nat) (x : CalItem) : (s.setItem i x).busOwner = s.busOwner := rfl
@[simp] theorem State.setItem_acqOwner (s : State) (i : Nat) (x : CalItem) : (s.setItem i x).acqOwner = s.acqOwner := rfl
@[simp] theorem State.setItem_acqs (s : State) (i : Nat) (x : CalItem) : (s.setItem i x).acqs = s.acqs := rfl
@[simp] theorem State.setItem_tdcs (s : State) (i : Nat) (x : CalItem) : (s.setItem i x).tdcs = s.tdcs := rfl
@[simp] theorem State.setItem_fixture (s : State) (i : Nat) (x : CalItem) : (s.setItem i x).fixture = s.fixture := rfl
@[simp] theorem State.setItem_flt (s : State) (i : Nat) (x : CalItem) : (s.setItem i x).flt = s.flt := rfl
@[simp] theorem State.setItem_rep (s : State) (i : Nat) (x : CalItem) : (s.setItem i x).rep = s.rep := rfl
@[simp] theorem State.setItem_ctrs (s : State) (i : Nat) (x : CalItem) : (s.setItem i x).ctrs = s.ctrs := rfl
@[simp] theorem State.setItem_wins (s : State) (i : Nat) (x : CalItem) : (s.setItem i x).wins = s.wins := rfl
@[simp] theorem State.setItem_pwr (s : State) (i : Nat) (x : CalItem) : (s.setItem i x).pwr = s.pwr := rfl
@[simp] theorem State.setItem_dram (s : State) (i : Nat) (x : CalItem) : (s.setItem i x).dram = s.dram := rfl
@[simp] theorem State.setItem_cellar (s : State) (i : Nat) (x : CalItem) : (s.setItem i x).cellar = s.cellar := rfl
@[simp] theorem State.setItem_eths (s : State) (i : Nat) (x : CalItem) : (s.setItem i x).eths = s.eths := rfl
@[simp] theorem State.setItem_syncs (s : State) (i : Nat) (x : CalItem) : (s.setItem i x).syncs = s.syncs := rfl
@[simp] theorem State.setItem_commits (s : State) (i : Nat) (x : CalItem) : (s.setItem i x).commits = s.commits := rfl
@[simp] theorem State.setItem_scripts (s : State) (i : Nat) (x : CalItem) : (s.setItem i x).scripts = s.scripts := rfl
@[simp] theorem State.setItem_buses (s : State) (i : Nat) (x : CalItem) : (s.setItem i x).buses = s.buses := rfl
@[simp] theorem State.setItem_peOrd (s : State) (i : Nat) (x : CalItem) : (s.setItem i x).peOrd = s.peOrd := rfl
@[simp] theorem State.setItem_sched (s : State) (i : Nat) (x : CalItem) : (s.setItem i x).sched = s.sched := rfl
@[simp] theorem State.setItem_irq (s : State) (i : Nat) (x : CalItem) : (s.setItem i x).irq = s.irq := rfl
@[simp] theorem State.setItem_pcie (s : State) (i : Nat) (x : CalItem) : (s.setItem i x).pcie = s.pcie := rfl
@[simp] theorem State.setItem_boot (s : State) (i : Nat) (x : CalItem) : (s.setItem i x).boot = s.boot := rfl
@[simp] theorem State.setItem_pace (s : State) (i : Nat) (x : CalItem) : (s.setItem i x).pace = s.pace := rfl
@[simp] theorem State.setItem_paceLow (s : State) (i : Nat) (x : CalItem) : (s.setItem i x).paceLow = s.paceLow := rfl
@[simp] theorem State.setItem_drvPins (s : State) (i : Nat) (x : CalItem) : (s.setItem i x).drvPins = s.drvPins := rfl
@[simp] theorem State.setItem_denPins (s : State) (i : Nat) (x : CalItem) : (s.setItem i x).denPins = s.denPins := rfl
@[simp] theorem State.setItem_free (s : State) (i : Nat) (x : CalItem) : (s.setItem i x).free = s.free := rfl
@[simp] theorem State.setItem_out (s : State) (i : Nat) (x : CalItem) : (s.setItem i x).out = s.out := rfl

/-! ## Operations that branch -/

/-- Moving grid time changes the time base alone. -/
theorem State.at__frame (s : State) (t : Nat) : ∃ x_tb, s.at_ t = { s with tb := x_tb } := by
  unfold State.at_; split <;> exact ⟨_, rfl⟩

@[simp] theorem State.at__pending (s : State) (t : Nat) : (s.at_ t).pending = s.pending := by
  obtain ⟨_, h⟩ := s.at__frame t; rw [h]
@[simp] theorem State.at__ptp (s : State) (t : Nat) : (s.at_ t).ptp = s.ptp := by
  obtain ⟨_, h⟩ := s.at__frame t; rw [h]
@[simp] theorem State.at__clks (s : State) (t : Nat) : (s.at_ t).clks = s.clks := by
  obtain ⟨_, h⟩ := s.at__frame t; rw [h]
@[simp] theorem State.at__clkOwner (s : State) (t : Nat) : (s.at_ t).clkOwner = s.clkOwner := by
  obtain ⟨_, h⟩ := s.at__frame t; rw [h]
@[simp] theorem State.at__trigOut (s : State) (t : Nat) : (s.at_ t).trigOut = s.trigOut := by
  obtain ⟨_, h⟩ := s.at__frame t; rw [h]
@[simp] theorem State.at__trigOutOwner (s : State) (t : Nat) : (s.at_ t).trigOutOwner = s.trigOutOwner := by
  obtain ⟨_, h⟩ := s.at__frame t; rw [h]
@[simp] theorem State.at__trigIn (s : State) (t : Nat) : (s.at_ t).trigIn = s.trigIn := by
  obtain ⟨_, h⟩ := s.at__frame t; rw [h]
@[simp] theorem State.at__trigInOwner (s : State) (t : Nat) : (s.at_ t).trigInOwner = s.trigInOwner := by
  obtain ⟨_, h⟩ := s.at__frame t; rw [h]
@[simp] theorem State.at__taps (s : State) (t : Nat) : (s.at_ t).taps = s.taps := by
  obtain ⟨_, h⟩ := s.at__frame t; rw [h]
@[simp] theorem State.at__netTaps (s : State) (t : Nat) : (s.at_ t).netTaps = s.netTaps := by
  obtain ⟨_, h⟩ := s.at__frame t; rw [h]
@[simp] theorem State.at__udpPort (s : State) (t : Nat) : (s.at_ t).udpPort = s.udpPort := by
  obtain ⟨_, h⟩ := s.at__frame t; rw [h]
@[simp] theorem State.at__served (s : State) (t : Nat) : (s.at_ t).served = s.served := by
  obtain ⟨_, h⟩ := s.at__frame t; rw [h]
@[simp] theorem State.at__waits (s : State) (t : Nat) : (s.at_ t).waits = s.waits := by
  obtain ⟨_, h⟩ := s.at__frame t; rw [h]
@[simp] theorem State.at__batches (s : State) (t : Nat) : (s.at_ t).batches = s.batches := by
  obtain ⟨_, h⟩ := s.at__frame t; rw [h]
@[simp] theorem State.at__sliceOwner (s : State) (t : Nat) : (s.at_ t).sliceOwner = s.sliceOwner := by
  obtain ⟨_, h⟩ := s.at__frame t; rw [h]
@[simp] theorem State.at__busOwner (s : State) (t : Nat) : (s.at_ t).busOwner = s.busOwner := by
  obtain ⟨_, h⟩ := s.at__frame t; rw [h]
@[simp] theorem State.at__acqOwner (s : State) (t : Nat) : (s.at_ t).acqOwner = s.acqOwner := by
  obtain ⟨_, h⟩ := s.at__frame t; rw [h]
@[simp] theorem State.at__acqs (s : State) (t : Nat) : (s.at_ t).acqs = s.acqs := by
  obtain ⟨_, h⟩ := s.at__frame t; rw [h]
@[simp] theorem State.at__tdcs (s : State) (t : Nat) : (s.at_ t).tdcs = s.tdcs := by
  obtain ⟨_, h⟩ := s.at__frame t; rw [h]
@[simp] theorem State.at__fixture (s : State) (t : Nat) : (s.at_ t).fixture = s.fixture := by
  obtain ⟨_, h⟩ := s.at__frame t; rw [h]
@[simp] theorem State.at__cal (s : State) (t : Nat) : (s.at_ t).cal = s.cal := by
  obtain ⟨_, h⟩ := s.at__frame t; rw [h]
@[simp] theorem State.at__flt (s : State) (t : Nat) : (s.at_ t).flt = s.flt := by
  obtain ⟨_, h⟩ := s.at__frame t; rw [h]
@[simp] theorem State.at__rep (s : State) (t : Nat) : (s.at_ t).rep = s.rep := by
  obtain ⟨_, h⟩ := s.at__frame t; rw [h]
@[simp] theorem State.at__ctrs (s : State) (t : Nat) : (s.at_ t).ctrs = s.ctrs := by
  obtain ⟨_, h⟩ := s.at__frame t; rw [h]
@[simp] theorem State.at__wins (s : State) (t : Nat) : (s.at_ t).wins = s.wins := by
  obtain ⟨_, h⟩ := s.at__frame t; rw [h]
@[simp] theorem State.at__pwr (s : State) (t : Nat) : (s.at_ t).pwr = s.pwr := by
  obtain ⟨_, h⟩ := s.at__frame t; rw [h]
@[simp] theorem State.at__dram (s : State) (t : Nat) : (s.at_ t).dram = s.dram := by
  obtain ⟨_, h⟩ := s.at__frame t; rw [h]
@[simp] theorem State.at__cellar (s : State) (t : Nat) : (s.at_ t).cellar = s.cellar := by
  obtain ⟨_, h⟩ := s.at__frame t; rw [h]
@[simp] theorem State.at__eths (s : State) (t : Nat) : (s.at_ t).eths = s.eths := by
  obtain ⟨_, h⟩ := s.at__frame t; rw [h]
@[simp] theorem State.at__syncs (s : State) (t : Nat) : (s.at_ t).syncs = s.syncs := by
  obtain ⟨_, h⟩ := s.at__frame t; rw [h]
@[simp] theorem State.at__commits (s : State) (t : Nat) : (s.at_ t).commits = s.commits := by
  obtain ⟨_, h⟩ := s.at__frame t; rw [h]
@[simp] theorem State.at__scripts (s : State) (t : Nat) : (s.at_ t).scripts = s.scripts := by
  obtain ⟨_, h⟩ := s.at__frame t; rw [h]
@[simp] theorem State.at__buses (s : State) (t : Nat) : (s.at_ t).buses = s.buses := by
  obtain ⟨_, h⟩ := s.at__frame t; rw [h]
@[simp] theorem State.at__peOrd (s : State) (t : Nat) : (s.at_ t).peOrd = s.peOrd := by
  obtain ⟨_, h⟩ := s.at__frame t; rw [h]
@[simp] theorem State.at__sched (s : State) (t : Nat) : (s.at_ t).sched = s.sched := by
  obtain ⟨_, h⟩ := s.at__frame t; rw [h]
@[simp] theorem State.at__irq (s : State) (t : Nat) : (s.at_ t).irq = s.irq := by
  obtain ⟨_, h⟩ := s.at__frame t; rw [h]
@[simp] theorem State.at__pcie (s : State) (t : Nat) : (s.at_ t).pcie = s.pcie := by
  obtain ⟨_, h⟩ := s.at__frame t; rw [h]
@[simp] theorem State.at__boot (s : State) (t : Nat) : (s.at_ t).boot = s.boot := by
  obtain ⟨_, h⟩ := s.at__frame t; rw [h]
@[simp] theorem State.at__pace (s : State) (t : Nat) : (s.at_ t).pace = s.pace := by
  obtain ⟨_, h⟩ := s.at__frame t; rw [h]
@[simp] theorem State.at__paceLow (s : State) (t : Nat) : (s.at_ t).paceLow = s.paceLow := by
  obtain ⟨_, h⟩ := s.at__frame t; rw [h]
@[simp] theorem State.at__drvPins (s : State) (t : Nat) : (s.at_ t).drvPins = s.drvPins := by
  obtain ⟨_, h⟩ := s.at__frame t; rw [h]
@[simp] theorem State.at__denPins (s : State) (t : Nat) : (s.at_ t).denPins = s.denPins := by
  obtain ⟨_, h⟩ := s.at__frame t; rw [h]
@[simp] theorem State.at__free (s : State) (t : Nat) : (s.at_ t).free = s.free := by
  obtain ⟨_, h⟩ := s.at__frame t; rw [h]
@[simp] theorem State.at__out (s : State) (t : Nat) : (s.at_ t).out = s.out := by
  obtain ⟨_, h⟩ := s.at__frame t; rw [h]

/-- A change of a batch changes the batches alone. -/
theorem State.onBatch_frame (s : State) (b : Nat) (f : Batch → Batch) : ∃ x_batches, s.onBatch b f = { s with batches := x_batches } := by
  unfold State.onBatch; split <;> exact ⟨_, rfl⟩

@[simp] theorem State.onBatch_pending (s : State) (b : Nat) (f : Batch → Batch) : (s.onBatch b f).pending = s.pending := by
  obtain ⟨_, h⟩ := s.onBatch_frame b f; rw [h]
@[simp] theorem State.onBatch_tb (s : State) (b : Nat) (f : Batch → Batch) : (s.onBatch b f).tb = s.tb := by
  obtain ⟨_, h⟩ := s.onBatch_frame b f; rw [h]
@[simp] theorem State.onBatch_ptp (s : State) (b : Nat) (f : Batch → Batch) : (s.onBatch b f).ptp = s.ptp := by
  obtain ⟨_, h⟩ := s.onBatch_frame b f; rw [h]
@[simp] theorem State.onBatch_clks (s : State) (b : Nat) (f : Batch → Batch) : (s.onBatch b f).clks = s.clks := by
  obtain ⟨_, h⟩ := s.onBatch_frame b f; rw [h]
@[simp] theorem State.onBatch_clkOwner (s : State) (b : Nat) (f : Batch → Batch) : (s.onBatch b f).clkOwner = s.clkOwner := by
  obtain ⟨_, h⟩ := s.onBatch_frame b f; rw [h]
@[simp] theorem State.onBatch_trigOut (s : State) (b : Nat) (f : Batch → Batch) : (s.onBatch b f).trigOut = s.trigOut := by
  obtain ⟨_, h⟩ := s.onBatch_frame b f; rw [h]
@[simp] theorem State.onBatch_trigOutOwner (s : State) (b : Nat) (f : Batch → Batch) : (s.onBatch b f).trigOutOwner = s.trigOutOwner := by
  obtain ⟨_, h⟩ := s.onBatch_frame b f; rw [h]
@[simp] theorem State.onBatch_trigIn (s : State) (b : Nat) (f : Batch → Batch) : (s.onBatch b f).trigIn = s.trigIn := by
  obtain ⟨_, h⟩ := s.onBatch_frame b f; rw [h]
@[simp] theorem State.onBatch_trigInOwner (s : State) (b : Nat) (f : Batch → Batch) : (s.onBatch b f).trigInOwner = s.trigInOwner := by
  obtain ⟨_, h⟩ := s.onBatch_frame b f; rw [h]
@[simp] theorem State.onBatch_taps (s : State) (b : Nat) (f : Batch → Batch) : (s.onBatch b f).taps = s.taps := by
  obtain ⟨_, h⟩ := s.onBatch_frame b f; rw [h]
@[simp] theorem State.onBatch_netTaps (s : State) (b : Nat) (f : Batch → Batch) : (s.onBatch b f).netTaps = s.netTaps := by
  obtain ⟨_, h⟩ := s.onBatch_frame b f; rw [h]
@[simp] theorem State.onBatch_udpPort (s : State) (b : Nat) (f : Batch → Batch) : (s.onBatch b f).udpPort = s.udpPort := by
  obtain ⟨_, h⟩ := s.onBatch_frame b f; rw [h]
@[simp] theorem State.onBatch_served (s : State) (b : Nat) (f : Batch → Batch) : (s.onBatch b f).served = s.served := by
  obtain ⟨_, h⟩ := s.onBatch_frame b f; rw [h]
@[simp] theorem State.onBatch_waits (s : State) (b : Nat) (f : Batch → Batch) : (s.onBatch b f).waits = s.waits := by
  obtain ⟨_, h⟩ := s.onBatch_frame b f; rw [h]
@[simp] theorem State.onBatch_sliceOwner (s : State) (b : Nat) (f : Batch → Batch) : (s.onBatch b f).sliceOwner = s.sliceOwner := by
  obtain ⟨_, h⟩ := s.onBatch_frame b f; rw [h]
@[simp] theorem State.onBatch_busOwner (s : State) (b : Nat) (f : Batch → Batch) : (s.onBatch b f).busOwner = s.busOwner := by
  obtain ⟨_, h⟩ := s.onBatch_frame b f; rw [h]
@[simp] theorem State.onBatch_acqOwner (s : State) (b : Nat) (f : Batch → Batch) : (s.onBatch b f).acqOwner = s.acqOwner := by
  obtain ⟨_, h⟩ := s.onBatch_frame b f; rw [h]
@[simp] theorem State.onBatch_acqs (s : State) (b : Nat) (f : Batch → Batch) : (s.onBatch b f).acqs = s.acqs := by
  obtain ⟨_, h⟩ := s.onBatch_frame b f; rw [h]
@[simp] theorem State.onBatch_tdcs (s : State) (b : Nat) (f : Batch → Batch) : (s.onBatch b f).tdcs = s.tdcs := by
  obtain ⟨_, h⟩ := s.onBatch_frame b f; rw [h]
@[simp] theorem State.onBatch_fixture (s : State) (b : Nat) (f : Batch → Batch) : (s.onBatch b f).fixture = s.fixture := by
  obtain ⟨_, h⟩ := s.onBatch_frame b f; rw [h]
@[simp] theorem State.onBatch_cal (s : State) (b : Nat) (f : Batch → Batch) : (s.onBatch b f).cal = s.cal := by
  obtain ⟨_, h⟩ := s.onBatch_frame b f; rw [h]
@[simp] theorem State.onBatch_flt (s : State) (b : Nat) (f : Batch → Batch) : (s.onBatch b f).flt = s.flt := by
  obtain ⟨_, h⟩ := s.onBatch_frame b f; rw [h]
@[simp] theorem State.onBatch_rep (s : State) (b : Nat) (f : Batch → Batch) : (s.onBatch b f).rep = s.rep := by
  obtain ⟨_, h⟩ := s.onBatch_frame b f; rw [h]
@[simp] theorem State.onBatch_ctrs (s : State) (b : Nat) (f : Batch → Batch) : (s.onBatch b f).ctrs = s.ctrs := by
  obtain ⟨_, h⟩ := s.onBatch_frame b f; rw [h]
@[simp] theorem State.onBatch_wins (s : State) (b : Nat) (f : Batch → Batch) : (s.onBatch b f).wins = s.wins := by
  obtain ⟨_, h⟩ := s.onBatch_frame b f; rw [h]
@[simp] theorem State.onBatch_pwr (s : State) (b : Nat) (f : Batch → Batch) : (s.onBatch b f).pwr = s.pwr := by
  obtain ⟨_, h⟩ := s.onBatch_frame b f; rw [h]
@[simp] theorem State.onBatch_dram (s : State) (b : Nat) (f : Batch → Batch) : (s.onBatch b f).dram = s.dram := by
  obtain ⟨_, h⟩ := s.onBatch_frame b f; rw [h]
@[simp] theorem State.onBatch_cellar (s : State) (b : Nat) (f : Batch → Batch) : (s.onBatch b f).cellar = s.cellar := by
  obtain ⟨_, h⟩ := s.onBatch_frame b f; rw [h]
@[simp] theorem State.onBatch_eths (s : State) (b : Nat) (f : Batch → Batch) : (s.onBatch b f).eths = s.eths := by
  obtain ⟨_, h⟩ := s.onBatch_frame b f; rw [h]
@[simp] theorem State.onBatch_syncs (s : State) (b : Nat) (f : Batch → Batch) : (s.onBatch b f).syncs = s.syncs := by
  obtain ⟨_, h⟩ := s.onBatch_frame b f; rw [h]
@[simp] theorem State.onBatch_commits (s : State) (b : Nat) (f : Batch → Batch) : (s.onBatch b f).commits = s.commits := by
  obtain ⟨_, h⟩ := s.onBatch_frame b f; rw [h]
@[simp] theorem State.onBatch_scripts (s : State) (b : Nat) (f : Batch → Batch) : (s.onBatch b f).scripts = s.scripts := by
  obtain ⟨_, h⟩ := s.onBatch_frame b f; rw [h]
@[simp] theorem State.onBatch_buses (s : State) (b : Nat) (f : Batch → Batch) : (s.onBatch b f).buses = s.buses := by
  obtain ⟨_, h⟩ := s.onBatch_frame b f; rw [h]
@[simp] theorem State.onBatch_peOrd (s : State) (b : Nat) (f : Batch → Batch) : (s.onBatch b f).peOrd = s.peOrd := by
  obtain ⟨_, h⟩ := s.onBatch_frame b f; rw [h]
@[simp] theorem State.onBatch_sched (s : State) (b : Nat) (f : Batch → Batch) : (s.onBatch b f).sched = s.sched := by
  obtain ⟨_, h⟩ := s.onBatch_frame b f; rw [h]
@[simp] theorem State.onBatch_irq (s : State) (b : Nat) (f : Batch → Batch) : (s.onBatch b f).irq = s.irq := by
  obtain ⟨_, h⟩ := s.onBatch_frame b f; rw [h]
@[simp] theorem State.onBatch_pcie (s : State) (b : Nat) (f : Batch → Batch) : (s.onBatch b f).pcie = s.pcie := by
  obtain ⟨_, h⟩ := s.onBatch_frame b f; rw [h]
@[simp] theorem State.onBatch_boot (s : State) (b : Nat) (f : Batch → Batch) : (s.onBatch b f).boot = s.boot := by
  obtain ⟨_, h⟩ := s.onBatch_frame b f; rw [h]
@[simp] theorem State.onBatch_pace (s : State) (b : Nat) (f : Batch → Batch) : (s.onBatch b f).pace = s.pace := by
  obtain ⟨_, h⟩ := s.onBatch_frame b f; rw [h]
@[simp] theorem State.onBatch_paceLow (s : State) (b : Nat) (f : Batch → Batch) : (s.onBatch b f).paceLow = s.paceLow := by
  obtain ⟨_, h⟩ := s.onBatch_frame b f; rw [h]
@[simp] theorem State.onBatch_drvPins (s : State) (b : Nat) (f : Batch → Batch) : (s.onBatch b f).drvPins = s.drvPins := by
  obtain ⟨_, h⟩ := s.onBatch_frame b f; rw [h]
@[simp] theorem State.onBatch_denPins (s : State) (b : Nat) (f : Batch → Batch) : (s.onBatch b f).denPins = s.denPins := by
  obtain ⟨_, h⟩ := s.onBatch_frame b f; rw [h]
@[simp] theorem State.onBatch_free (s : State) (b : Nat) (f : Batch → Batch) : (s.onBatch b f).free = s.free := by
  obtain ⟨_, h⟩ := s.onBatch_frame b f; rw [h]
@[simp] theorem State.onBatch_out (s : State) (b : Nat) (f : Batch → Batch) : (s.onBatch b f).out = s.out := by
  obtain ⟨_, h⟩ := s.onBatch_frame b f; rw [h]

/-- A message sets a pending bit or goes out. -/
theorem State.msi_frame (s : State) (fn vec : Nat) : ∃ x_irq x_out, s.msi fn vec = { s with irq := x_irq, out := x_out } := by
  unfold State.msi; split
  · exact ⟨_, _, rfl⟩
  · split <;> exact ⟨_, _, rfl⟩

@[simp] theorem State.msi_pending (s : State) (fn vec : Nat) : (s.msi fn vec).pending = s.pending := by
  obtain ⟨_, _, h⟩ := s.msi_frame fn vec; rw [h]
@[simp] theorem State.msi_tb (s : State) (fn vec : Nat) : (s.msi fn vec).tb = s.tb := by
  obtain ⟨_, _, h⟩ := s.msi_frame fn vec; rw [h]
@[simp] theorem State.msi_ptp (s : State) (fn vec : Nat) : (s.msi fn vec).ptp = s.ptp := by
  obtain ⟨_, _, h⟩ := s.msi_frame fn vec; rw [h]
@[simp] theorem State.msi_clks (s : State) (fn vec : Nat) : (s.msi fn vec).clks = s.clks := by
  obtain ⟨_, _, h⟩ := s.msi_frame fn vec; rw [h]
@[simp] theorem State.msi_clkOwner (s : State) (fn vec : Nat) : (s.msi fn vec).clkOwner = s.clkOwner := by
  obtain ⟨_, _, h⟩ := s.msi_frame fn vec; rw [h]
@[simp] theorem State.msi_trigOut (s : State) (fn vec : Nat) : (s.msi fn vec).trigOut = s.trigOut := by
  obtain ⟨_, _, h⟩ := s.msi_frame fn vec; rw [h]
@[simp] theorem State.msi_trigOutOwner (s : State) (fn vec : Nat) : (s.msi fn vec).trigOutOwner = s.trigOutOwner := by
  obtain ⟨_, _, h⟩ := s.msi_frame fn vec; rw [h]
@[simp] theorem State.msi_trigIn (s : State) (fn vec : Nat) : (s.msi fn vec).trigIn = s.trigIn := by
  obtain ⟨_, _, h⟩ := s.msi_frame fn vec; rw [h]
@[simp] theorem State.msi_trigInOwner (s : State) (fn vec : Nat) : (s.msi fn vec).trigInOwner = s.trigInOwner := by
  obtain ⟨_, _, h⟩ := s.msi_frame fn vec; rw [h]
@[simp] theorem State.msi_taps (s : State) (fn vec : Nat) : (s.msi fn vec).taps = s.taps := by
  obtain ⟨_, _, h⟩ := s.msi_frame fn vec; rw [h]
@[simp] theorem State.msi_netTaps (s : State) (fn vec : Nat) : (s.msi fn vec).netTaps = s.netTaps := by
  obtain ⟨_, _, h⟩ := s.msi_frame fn vec; rw [h]
@[simp] theorem State.msi_udpPort (s : State) (fn vec : Nat) : (s.msi fn vec).udpPort = s.udpPort := by
  obtain ⟨_, _, h⟩ := s.msi_frame fn vec; rw [h]
@[simp] theorem State.msi_served (s : State) (fn vec : Nat) : (s.msi fn vec).served = s.served := by
  obtain ⟨_, _, h⟩ := s.msi_frame fn vec; rw [h]
@[simp] theorem State.msi_waits (s : State) (fn vec : Nat) : (s.msi fn vec).waits = s.waits := by
  obtain ⟨_, _, h⟩ := s.msi_frame fn vec; rw [h]
@[simp] theorem State.msi_batches (s : State) (fn vec : Nat) : (s.msi fn vec).batches = s.batches := by
  obtain ⟨_, _, h⟩ := s.msi_frame fn vec; rw [h]
@[simp] theorem State.msi_sliceOwner (s : State) (fn vec : Nat) : (s.msi fn vec).sliceOwner = s.sliceOwner := by
  obtain ⟨_, _, h⟩ := s.msi_frame fn vec; rw [h]
@[simp] theorem State.msi_busOwner (s : State) (fn vec : Nat) : (s.msi fn vec).busOwner = s.busOwner := by
  obtain ⟨_, _, h⟩ := s.msi_frame fn vec; rw [h]
@[simp] theorem State.msi_acqOwner (s : State) (fn vec : Nat) : (s.msi fn vec).acqOwner = s.acqOwner := by
  obtain ⟨_, _, h⟩ := s.msi_frame fn vec; rw [h]
@[simp] theorem State.msi_acqs (s : State) (fn vec : Nat) : (s.msi fn vec).acqs = s.acqs := by
  obtain ⟨_, _, h⟩ := s.msi_frame fn vec; rw [h]
@[simp] theorem State.msi_tdcs (s : State) (fn vec : Nat) : (s.msi fn vec).tdcs = s.tdcs := by
  obtain ⟨_, _, h⟩ := s.msi_frame fn vec; rw [h]
@[simp] theorem State.msi_fixture (s : State) (fn vec : Nat) : (s.msi fn vec).fixture = s.fixture := by
  obtain ⟨_, _, h⟩ := s.msi_frame fn vec; rw [h]
@[simp] theorem State.msi_cal (s : State) (fn vec : Nat) : (s.msi fn vec).cal = s.cal := by
  obtain ⟨_, _, h⟩ := s.msi_frame fn vec; rw [h]
@[simp] theorem State.msi_flt (s : State) (fn vec : Nat) : (s.msi fn vec).flt = s.flt := by
  obtain ⟨_, _, h⟩ := s.msi_frame fn vec; rw [h]
@[simp] theorem State.msi_rep (s : State) (fn vec : Nat) : (s.msi fn vec).rep = s.rep := by
  obtain ⟨_, _, h⟩ := s.msi_frame fn vec; rw [h]
@[simp] theorem State.msi_ctrs (s : State) (fn vec : Nat) : (s.msi fn vec).ctrs = s.ctrs := by
  obtain ⟨_, _, h⟩ := s.msi_frame fn vec; rw [h]
@[simp] theorem State.msi_wins (s : State) (fn vec : Nat) : (s.msi fn vec).wins = s.wins := by
  obtain ⟨_, _, h⟩ := s.msi_frame fn vec; rw [h]
@[simp] theorem State.msi_pwr (s : State) (fn vec : Nat) : (s.msi fn vec).pwr = s.pwr := by
  obtain ⟨_, _, h⟩ := s.msi_frame fn vec; rw [h]
@[simp] theorem State.msi_dram (s : State) (fn vec : Nat) : (s.msi fn vec).dram = s.dram := by
  obtain ⟨_, _, h⟩ := s.msi_frame fn vec; rw [h]
@[simp] theorem State.msi_cellar (s : State) (fn vec : Nat) : (s.msi fn vec).cellar = s.cellar := by
  obtain ⟨_, _, h⟩ := s.msi_frame fn vec; rw [h]
@[simp] theorem State.msi_eths (s : State) (fn vec : Nat) : (s.msi fn vec).eths = s.eths := by
  obtain ⟨_, _, h⟩ := s.msi_frame fn vec; rw [h]
@[simp] theorem State.msi_syncs (s : State) (fn vec : Nat) : (s.msi fn vec).syncs = s.syncs := by
  obtain ⟨_, _, h⟩ := s.msi_frame fn vec; rw [h]
@[simp] theorem State.msi_commits (s : State) (fn vec : Nat) : (s.msi fn vec).commits = s.commits := by
  obtain ⟨_, _, h⟩ := s.msi_frame fn vec; rw [h]
@[simp] theorem State.msi_scripts (s : State) (fn vec : Nat) : (s.msi fn vec).scripts = s.scripts := by
  obtain ⟨_, _, h⟩ := s.msi_frame fn vec; rw [h]
@[simp] theorem State.msi_buses (s : State) (fn vec : Nat) : (s.msi fn vec).buses = s.buses := by
  obtain ⟨_, _, h⟩ := s.msi_frame fn vec; rw [h]
@[simp] theorem State.msi_peOrd (s : State) (fn vec : Nat) : (s.msi fn vec).peOrd = s.peOrd := by
  obtain ⟨_, _, h⟩ := s.msi_frame fn vec; rw [h]
@[simp] theorem State.msi_sched (s : State) (fn vec : Nat) : (s.msi fn vec).sched = s.sched := by
  obtain ⟨_, _, h⟩ := s.msi_frame fn vec; rw [h]
@[simp] theorem State.msi_pcie (s : State) (fn vec : Nat) : (s.msi fn vec).pcie = s.pcie := by
  obtain ⟨_, _, h⟩ := s.msi_frame fn vec; rw [h]
@[simp] theorem State.msi_boot (s : State) (fn vec : Nat) : (s.msi fn vec).boot = s.boot := by
  obtain ⟨_, _, h⟩ := s.msi_frame fn vec; rw [h]
@[simp] theorem State.msi_pace (s : State) (fn vec : Nat) : (s.msi fn vec).pace = s.pace := by
  obtain ⟨_, _, h⟩ := s.msi_frame fn vec; rw [h]
@[simp] theorem State.msi_paceLow (s : State) (fn vec : Nat) : (s.msi fn vec).paceLow = s.paceLow := by
  obtain ⟨_, _, h⟩ := s.msi_frame fn vec; rw [h]
@[simp] theorem State.msi_drvPins (s : State) (fn vec : Nat) : (s.msi fn vec).drvPins = s.drvPins := by
  obtain ⟨_, _, h⟩ := s.msi_frame fn vec; rw [h]
@[simp] theorem State.msi_denPins (s : State) (fn vec : Nat) : (s.msi fn vec).denPins = s.denPins := by
  obtain ⟨_, _, h⟩ := s.msi_frame fn vec; rw [h]
@[simp] theorem State.msi_free (s : State) (fn vec : Nat) : (s.msi fn vec).free = s.free := by
  obtain ⟨_, _, h⟩ := s.msi_frame fn vec; rw [h]

/-- A signal changes the interrupt controller or is counted as merged. -/
theorem State.signal_frame (s : State) (n : Nat) : ∃ x_irq x_ctrs, s.signal n = { s with irq := x_irq, ctrs := x_ctrs } := by
  unfold State.signal; simp only; split
  · exact ⟨_, _, rfl⟩
  · split
    · exact ⟨_, _, rfl⟩
    · split <;> exact ⟨_, _, rfl⟩

/-- A change of a port changes the cellar alone. -/
theorem State.setPort_frame (s : State) (p : Nat) (x : Port) : ∃ x_cellar, s.setPort p x = { s with cellar := x_cellar } := by
  unfold State.setPort; split <;> exact ⟨_, rfl⟩

@[simp] theorem State.setPort_pending (s : State) (p : Nat) (x : Port) : (s.setPort p x).pending = s.pending := by
  obtain ⟨_, h⟩ := s.setPort_frame p x; rw [h]
@[simp] theorem State.setPort_tb (s : State) (p : Nat) (x : Port) : (s.setPort p x).tb = s.tb := by
  obtain ⟨_, h⟩ := s.setPort_frame p x; rw [h]
@[simp] theorem State.setPort_ptp (s : State) (p : Nat) (x : Port) : (s.setPort p x).ptp = s.ptp := by
  obtain ⟨_, h⟩ := s.setPort_frame p x; rw [h]
@[simp] theorem State.setPort_clks (s : State) (p : Nat) (x : Port) : (s.setPort p x).clks = s.clks := by
  obtain ⟨_, h⟩ := s.setPort_frame p x; rw [h]
@[simp] theorem State.setPort_clkOwner (s : State) (p : Nat) (x : Port) : (s.setPort p x).clkOwner = s.clkOwner := by
  obtain ⟨_, h⟩ := s.setPort_frame p x; rw [h]
@[simp] theorem State.setPort_trigOut (s : State) (p : Nat) (x : Port) : (s.setPort p x).trigOut = s.trigOut := by
  obtain ⟨_, h⟩ := s.setPort_frame p x; rw [h]
@[simp] theorem State.setPort_trigOutOwner (s : State) (p : Nat) (x : Port) : (s.setPort p x).trigOutOwner = s.trigOutOwner := by
  obtain ⟨_, h⟩ := s.setPort_frame p x; rw [h]
@[simp] theorem State.setPort_trigIn (s : State) (p : Nat) (x : Port) : (s.setPort p x).trigIn = s.trigIn := by
  obtain ⟨_, h⟩ := s.setPort_frame p x; rw [h]
@[simp] theorem State.setPort_trigInOwner (s : State) (p : Nat) (x : Port) : (s.setPort p x).trigInOwner = s.trigInOwner := by
  obtain ⟨_, h⟩ := s.setPort_frame p x; rw [h]
@[simp] theorem State.setPort_taps (s : State) (p : Nat) (x : Port) : (s.setPort p x).taps = s.taps := by
  obtain ⟨_, h⟩ := s.setPort_frame p x; rw [h]
@[simp] theorem State.setPort_netTaps (s : State) (p : Nat) (x : Port) : (s.setPort p x).netTaps = s.netTaps := by
  obtain ⟨_, h⟩ := s.setPort_frame p x; rw [h]
@[simp] theorem State.setPort_udpPort (s : State) (p : Nat) (x : Port) : (s.setPort p x).udpPort = s.udpPort := by
  obtain ⟨_, h⟩ := s.setPort_frame p x; rw [h]
@[simp] theorem State.setPort_served (s : State) (p : Nat) (x : Port) : (s.setPort p x).served = s.served := by
  obtain ⟨_, h⟩ := s.setPort_frame p x; rw [h]
@[simp] theorem State.setPort_waits (s : State) (p : Nat) (x : Port) : (s.setPort p x).waits = s.waits := by
  obtain ⟨_, h⟩ := s.setPort_frame p x; rw [h]
@[simp] theorem State.setPort_batches (s : State) (p : Nat) (x : Port) : (s.setPort p x).batches = s.batches := by
  obtain ⟨_, h⟩ := s.setPort_frame p x; rw [h]
@[simp] theorem State.setPort_sliceOwner (s : State) (p : Nat) (x : Port) : (s.setPort p x).sliceOwner = s.sliceOwner := by
  obtain ⟨_, h⟩ := s.setPort_frame p x; rw [h]
@[simp] theorem State.setPort_busOwner (s : State) (p : Nat) (x : Port) : (s.setPort p x).busOwner = s.busOwner := by
  obtain ⟨_, h⟩ := s.setPort_frame p x; rw [h]
@[simp] theorem State.setPort_acqOwner (s : State) (p : Nat) (x : Port) : (s.setPort p x).acqOwner = s.acqOwner := by
  obtain ⟨_, h⟩ := s.setPort_frame p x; rw [h]
@[simp] theorem State.setPort_acqs (s : State) (p : Nat) (x : Port) : (s.setPort p x).acqs = s.acqs := by
  obtain ⟨_, h⟩ := s.setPort_frame p x; rw [h]
@[simp] theorem State.setPort_tdcs (s : State) (p : Nat) (x : Port) : (s.setPort p x).tdcs = s.tdcs := by
  obtain ⟨_, h⟩ := s.setPort_frame p x; rw [h]
@[simp] theorem State.setPort_fixture (s : State) (p : Nat) (x : Port) : (s.setPort p x).fixture = s.fixture := by
  obtain ⟨_, h⟩ := s.setPort_frame p x; rw [h]
@[simp] theorem State.setPort_cal (s : State) (p : Nat) (x : Port) : (s.setPort p x).cal = s.cal := by
  obtain ⟨_, h⟩ := s.setPort_frame p x; rw [h]
@[simp] theorem State.setPort_flt (s : State) (p : Nat) (x : Port) : (s.setPort p x).flt = s.flt := by
  obtain ⟨_, h⟩ := s.setPort_frame p x; rw [h]
@[simp] theorem State.setPort_rep (s : State) (p : Nat) (x : Port) : (s.setPort p x).rep = s.rep := by
  obtain ⟨_, h⟩ := s.setPort_frame p x; rw [h]
@[simp] theorem State.setPort_ctrs (s : State) (p : Nat) (x : Port) : (s.setPort p x).ctrs = s.ctrs := by
  obtain ⟨_, h⟩ := s.setPort_frame p x; rw [h]
@[simp] theorem State.setPort_wins (s : State) (p : Nat) (x : Port) : (s.setPort p x).wins = s.wins := by
  obtain ⟨_, h⟩ := s.setPort_frame p x; rw [h]
@[simp] theorem State.setPort_pwr (s : State) (p : Nat) (x : Port) : (s.setPort p x).pwr = s.pwr := by
  obtain ⟨_, h⟩ := s.setPort_frame p x; rw [h]
@[simp] theorem State.setPort_dram (s : State) (p : Nat) (x : Port) : (s.setPort p x).dram = s.dram := by
  obtain ⟨_, h⟩ := s.setPort_frame p x; rw [h]
@[simp] theorem State.setPort_eths (s : State) (p : Nat) (x : Port) : (s.setPort p x).eths = s.eths := by
  obtain ⟨_, h⟩ := s.setPort_frame p x; rw [h]
@[simp] theorem State.setPort_syncs (s : State) (p : Nat) (x : Port) : (s.setPort p x).syncs = s.syncs := by
  obtain ⟨_, h⟩ := s.setPort_frame p x; rw [h]
@[simp] theorem State.setPort_commits (s : State) (p : Nat) (x : Port) : (s.setPort p x).commits = s.commits := by
  obtain ⟨_, h⟩ := s.setPort_frame p x; rw [h]
@[simp] theorem State.setPort_scripts (s : State) (p : Nat) (x : Port) : (s.setPort p x).scripts = s.scripts := by
  obtain ⟨_, h⟩ := s.setPort_frame p x; rw [h]
@[simp] theorem State.setPort_buses (s : State) (p : Nat) (x : Port) : (s.setPort p x).buses = s.buses := by
  obtain ⟨_, h⟩ := s.setPort_frame p x; rw [h]
@[simp] theorem State.setPort_peOrd (s : State) (p : Nat) (x : Port) : (s.setPort p x).peOrd = s.peOrd := by
  obtain ⟨_, h⟩ := s.setPort_frame p x; rw [h]
@[simp] theorem State.setPort_sched (s : State) (p : Nat) (x : Port) : (s.setPort p x).sched = s.sched := by
  obtain ⟨_, h⟩ := s.setPort_frame p x; rw [h]
@[simp] theorem State.setPort_irq (s : State) (p : Nat) (x : Port) : (s.setPort p x).irq = s.irq := by
  obtain ⟨_, h⟩ := s.setPort_frame p x; rw [h]
@[simp] theorem State.setPort_pcie (s : State) (p : Nat) (x : Port) : (s.setPort p x).pcie = s.pcie := by
  obtain ⟨_, h⟩ := s.setPort_frame p x; rw [h]
@[simp] theorem State.setPort_boot (s : State) (p : Nat) (x : Port) : (s.setPort p x).boot = s.boot := by
  obtain ⟨_, h⟩ := s.setPort_frame p x; rw [h]
@[simp] theorem State.setPort_pace (s : State) (p : Nat) (x : Port) : (s.setPort p x).pace = s.pace := by
  obtain ⟨_, h⟩ := s.setPort_frame p x; rw [h]
@[simp] theorem State.setPort_paceLow (s : State) (p : Nat) (x : Port) : (s.setPort p x).paceLow = s.paceLow := by
  obtain ⟨_, h⟩ := s.setPort_frame p x; rw [h]
@[simp] theorem State.setPort_drvPins (s : State) (p : Nat) (x : Port) : (s.setPort p x).drvPins = s.drvPins := by
  obtain ⟨_, h⟩ := s.setPort_frame p x; rw [h]
@[simp] theorem State.setPort_denPins (s : State) (p : Nat) (x : Port) : (s.setPort p x).denPins = s.denPins := by
  obtain ⟨_, h⟩ := s.setPort_frame p x; rw [h]
@[simp] theorem State.setPort_free (s : State) (p : Nat) (x : Port) : (s.setPort p x).free = s.free := by
  obtain ⟨_, h⟩ := s.setPort_frame p x; rw [h]
@[simp] theorem State.setPort_out (s : State) (p : Nat) (x : Port) : (s.setPort p x).out = s.out := by
  obtain ⟨_, h⟩ := s.setPort_frame p x; rw [h]

/-- A completion delivered writes its tap's ring, or a message or frame. -/
theorem State.deliver_frame (s : State) (t : Nat) (c : Cpl) (inl : List Byte) (net : Option NetSrc) : ∃ x_taps x_irq x_out, s.deliver t c inl net = { s with taps := x_taps, irq := x_irq, out := x_out } := by
  unfold State.deliver
  simp only
  split
  · cases net <;> exact ⟨_, _, _, rfl⟩
  · obtain ⟨i, u, h⟩ := (s.setTap t { s.tap t with
      cpls := put (s.tap t).cpls ((s.tap t).cplTail % 64) { c with flags := c.flags + 32768 * (((s.tap t).cplTail / 64 + 1) % 2) }
      cplTail := ((s.tap t).cplTail + 1) % two32 }).msi_frame t 0
    exact ⟨_, i, u, h⟩

/-- The duplicates of a completion write its tap, messages, frames and the counter of resubmissions. -/
theorem State.deliverDups_frame (s : State) (t : Nat) (c : Cpl) (inl : List Byte) (l : List (Option NetSrc)) : ∃ x_taps x_irq x_out x_ctrs, s.deliverDups t c inl l = { s with taps := x_taps, irq := x_irq, out := x_out, ctrs := x_ctrs } := by
  induction l generalizing s with
  | nil => exact ⟨_, _, _, _, rfl⟩
  | cons n l ih =>
    obtain ⟨a, b, d, h⟩ := s.deliver_frame t { c with flags := c.flags ||| 1 } inl n
    obtain ⟨a', b', d', e', h'⟩ := ih ((s.deliver t { c with flags := c.flags ||| 1 } inl n).count 0x0502 1 ⟨some t, none, none, none⟩)
    exact ⟨a', b', d', e', by rw [State.deliverDups, h', h]; rfl⟩

/-- A posted completion changes its tap, messages, frames and counters, and nothing else. -/
theorem State.post_frame (s : State) (t : Nat) (c : Cpl) (inl : List Byte) : ∃ x_taps x_irq x_out x_ctrs, s.post t c inl = { s with taps := x_taps, irq := x_irq, out := x_out, ctrs := x_ctrs } := by
  unfold State.post
  simp only
  split
  · split
    · obtain ⟨a, b, d, h⟩ := s.deliver_frame t c inl (s.tap t).lastSrc
      exact ⟨a, b, d, _, h⟩
    · next e _ =>
      obtain ⟨a, b, d, h⟩ := (s.setTap t { s.tap t with
        old := if c.status == ACCEPTED then (s.tap t).old.map (fun e => if e.seq == c.seq then { e with cpl := some c, dups := [] } else e)
          else (s.tap t).old.filter (fun e => e.seq != c.seq) }).deliver_frame t c inl e.net
      rw [h]
      obtain ⟨a', b', d', e', h'⟩ := State.deliverDups_frame { s with taps := a, irq := b, out := d } t c inl e.dups
      exact ⟨a', b', d', e', h'⟩
  · next e _ =>
    obtain ⟨a, b, d, h⟩ := s.deliver_frame t c inl e.net
    rw [h]
    obtain ⟨a', b', d', e', h'⟩ := State.deliverDups_frame (State.setTap { s with taps := a, irq := b, out := d } t
      { State.tap { s with taps := a, irq := b, out := d } t with
        hist := (State.tap { s with taps := a, irq := b, out := d } t).hist.map
          (fun e => if e.seq == c.seq then { e with cpl := some c, inl := inl, dups := [] } else e) }) t c inl e.dups
    exact ⟨a', b', d', e', h'⟩

@[simp] theorem State.post_pending (s : State) (t : Nat) (c : Cpl) (inl : List Byte) : (s.post t c inl).pending = s.pending := by
  obtain ⟨_, _, _, _, h⟩ := s.post_frame t c inl; rw [h]
@[simp] theorem State.post_tb (s : State) (t : Nat) (c : Cpl) (inl : List Byte) : (s.post t c inl).tb = s.tb := by
  obtain ⟨_, _, _, _, h⟩ := s.post_frame t c inl; rw [h]
@[simp] theorem State.post_ptp (s : State) (t : Nat) (c : Cpl) (inl : List Byte) : (s.post t c inl).ptp = s.ptp := by
  obtain ⟨_, _, _, _, h⟩ := s.post_frame t c inl; rw [h]
@[simp] theorem State.post_clks (s : State) (t : Nat) (c : Cpl) (inl : List Byte) : (s.post t c inl).clks = s.clks := by
  obtain ⟨_, _, _, _, h⟩ := s.post_frame t c inl; rw [h]
@[simp] theorem State.post_clkOwner (s : State) (t : Nat) (c : Cpl) (inl : List Byte) : (s.post t c inl).clkOwner = s.clkOwner := by
  obtain ⟨_, _, _, _, h⟩ := s.post_frame t c inl; rw [h]
@[simp] theorem State.post_trigOut (s : State) (t : Nat) (c : Cpl) (inl : List Byte) : (s.post t c inl).trigOut = s.trigOut := by
  obtain ⟨_, _, _, _, h⟩ := s.post_frame t c inl; rw [h]
@[simp] theorem State.post_trigOutOwner (s : State) (t : Nat) (c : Cpl) (inl : List Byte) : (s.post t c inl).trigOutOwner = s.trigOutOwner := by
  obtain ⟨_, _, _, _, h⟩ := s.post_frame t c inl; rw [h]
@[simp] theorem State.post_trigIn (s : State) (t : Nat) (c : Cpl) (inl : List Byte) : (s.post t c inl).trigIn = s.trigIn := by
  obtain ⟨_, _, _, _, h⟩ := s.post_frame t c inl; rw [h]
@[simp] theorem State.post_trigInOwner (s : State) (t : Nat) (c : Cpl) (inl : List Byte) : (s.post t c inl).trigInOwner = s.trigInOwner := by
  obtain ⟨_, _, _, _, h⟩ := s.post_frame t c inl; rw [h]
@[simp] theorem State.post_netTaps (s : State) (t : Nat) (c : Cpl) (inl : List Byte) : (s.post t c inl).netTaps = s.netTaps := by
  obtain ⟨_, _, _, _, h⟩ := s.post_frame t c inl; rw [h]
@[simp] theorem State.post_udpPort (s : State) (t : Nat) (c : Cpl) (inl : List Byte) : (s.post t c inl).udpPort = s.udpPort := by
  obtain ⟨_, _, _, _, h⟩ := s.post_frame t c inl; rw [h]
@[simp] theorem State.post_served (s : State) (t : Nat) (c : Cpl) (inl : List Byte) : (s.post t c inl).served = s.served := by
  obtain ⟨_, _, _, _, h⟩ := s.post_frame t c inl; rw [h]
@[simp] theorem State.post_waits (s : State) (t : Nat) (c : Cpl) (inl : List Byte) : (s.post t c inl).waits = s.waits := by
  obtain ⟨_, _, _, _, h⟩ := s.post_frame t c inl; rw [h]
@[simp] theorem State.post_batches (s : State) (t : Nat) (c : Cpl) (inl : List Byte) : (s.post t c inl).batches = s.batches := by
  obtain ⟨_, _, _, _, h⟩ := s.post_frame t c inl; rw [h]
@[simp] theorem State.post_sliceOwner (s : State) (t : Nat) (c : Cpl) (inl : List Byte) : (s.post t c inl).sliceOwner = s.sliceOwner := by
  obtain ⟨_, _, _, _, h⟩ := s.post_frame t c inl; rw [h]
@[simp] theorem State.post_busOwner (s : State) (t : Nat) (c : Cpl) (inl : List Byte) : (s.post t c inl).busOwner = s.busOwner := by
  obtain ⟨_, _, _, _, h⟩ := s.post_frame t c inl; rw [h]
@[simp] theorem State.post_acqOwner (s : State) (t : Nat) (c : Cpl) (inl : List Byte) : (s.post t c inl).acqOwner = s.acqOwner := by
  obtain ⟨_, _, _, _, h⟩ := s.post_frame t c inl; rw [h]
@[simp] theorem State.post_acqs (s : State) (t : Nat) (c : Cpl) (inl : List Byte) : (s.post t c inl).acqs = s.acqs := by
  obtain ⟨_, _, _, _, h⟩ := s.post_frame t c inl; rw [h]
@[simp] theorem State.post_tdcs (s : State) (t : Nat) (c : Cpl) (inl : List Byte) : (s.post t c inl).tdcs = s.tdcs := by
  obtain ⟨_, _, _, _, h⟩ := s.post_frame t c inl; rw [h]
@[simp] theorem State.post_fixture (s : State) (t : Nat) (c : Cpl) (inl : List Byte) : (s.post t c inl).fixture = s.fixture := by
  obtain ⟨_, _, _, _, h⟩ := s.post_frame t c inl; rw [h]
@[simp] theorem State.post_cal (s : State) (t : Nat) (c : Cpl) (inl : List Byte) : (s.post t c inl).cal = s.cal := by
  obtain ⟨_, _, _, _, h⟩ := s.post_frame t c inl; rw [h]
@[simp] theorem State.post_flt (s : State) (t : Nat) (c : Cpl) (inl : List Byte) : (s.post t c inl).flt = s.flt := by
  obtain ⟨_, _, _, _, h⟩ := s.post_frame t c inl; rw [h]
@[simp] theorem State.post_rep (s : State) (t : Nat) (c : Cpl) (inl : List Byte) : (s.post t c inl).rep = s.rep := by
  obtain ⟨_, _, _, _, h⟩ := s.post_frame t c inl; rw [h]
@[simp] theorem State.post_wins (s : State) (t : Nat) (c : Cpl) (inl : List Byte) : (s.post t c inl).wins = s.wins := by
  obtain ⟨_, _, _, _, h⟩ := s.post_frame t c inl; rw [h]
@[simp] theorem State.post_pwr (s : State) (t : Nat) (c : Cpl) (inl : List Byte) : (s.post t c inl).pwr = s.pwr := by
  obtain ⟨_, _, _, _, h⟩ := s.post_frame t c inl; rw [h]
@[simp] theorem State.post_dram (s : State) (t : Nat) (c : Cpl) (inl : List Byte) : (s.post t c inl).dram = s.dram := by
  obtain ⟨_, _, _, _, h⟩ := s.post_frame t c inl; rw [h]
@[simp] theorem State.post_cellar (s : State) (t : Nat) (c : Cpl) (inl : List Byte) : (s.post t c inl).cellar = s.cellar := by
  obtain ⟨_, _, _, _, h⟩ := s.post_frame t c inl; rw [h]
@[simp] theorem State.post_eths (s : State) (t : Nat) (c : Cpl) (inl : List Byte) : (s.post t c inl).eths = s.eths := by
  obtain ⟨_, _, _, _, h⟩ := s.post_frame t c inl; rw [h]
@[simp] theorem State.post_syncs (s : State) (t : Nat) (c : Cpl) (inl : List Byte) : (s.post t c inl).syncs = s.syncs := by
  obtain ⟨_, _, _, _, h⟩ := s.post_frame t c inl; rw [h]
@[simp] theorem State.post_commits (s : State) (t : Nat) (c : Cpl) (inl : List Byte) : (s.post t c inl).commits = s.commits := by
  obtain ⟨_, _, _, _, h⟩ := s.post_frame t c inl; rw [h]
@[simp] theorem State.post_scripts (s : State) (t : Nat) (c : Cpl) (inl : List Byte) : (s.post t c inl).scripts = s.scripts := by
  obtain ⟨_, _, _, _, h⟩ := s.post_frame t c inl; rw [h]
@[simp] theorem State.post_buses (s : State) (t : Nat) (c : Cpl) (inl : List Byte) : (s.post t c inl).buses = s.buses := by
  obtain ⟨_, _, _, _, h⟩ := s.post_frame t c inl; rw [h]
@[simp] theorem State.post_peOrd (s : State) (t : Nat) (c : Cpl) (inl : List Byte) : (s.post t c inl).peOrd = s.peOrd := by
  obtain ⟨_, _, _, _, h⟩ := s.post_frame t c inl; rw [h]
@[simp] theorem State.post_sched (s : State) (t : Nat) (c : Cpl) (inl : List Byte) : (s.post t c inl).sched = s.sched := by
  obtain ⟨_, _, _, _, h⟩ := s.post_frame t c inl; rw [h]
@[simp] theorem State.post_pcie (s : State) (t : Nat) (c : Cpl) (inl : List Byte) : (s.post t c inl).pcie = s.pcie := by
  obtain ⟨_, _, _, _, h⟩ := s.post_frame t c inl; rw [h]
@[simp] theorem State.post_boot (s : State) (t : Nat) (c : Cpl) (inl : List Byte) : (s.post t c inl).boot = s.boot := by
  obtain ⟨_, _, _, _, h⟩ := s.post_frame t c inl; rw [h]
@[simp] theorem State.post_pace (s : State) (t : Nat) (c : Cpl) (inl : List Byte) : (s.post t c inl).pace = s.pace := by
  obtain ⟨_, _, _, _, h⟩ := s.post_frame t c inl; rw [h]
@[simp] theorem State.post_paceLow (s : State) (t : Nat) (c : Cpl) (inl : List Byte) : (s.post t c inl).paceLow = s.paceLow := by
  obtain ⟨_, _, _, _, h⟩ := s.post_frame t c inl; rw [h]
@[simp] theorem State.post_drvPins (s : State) (t : Nat) (c : Cpl) (inl : List Byte) : (s.post t c inl).drvPins = s.drvPins := by
  obtain ⟨_, _, _, _, h⟩ := s.post_frame t c inl; rw [h]
@[simp] theorem State.post_denPins (s : State) (t : Nat) (c : Cpl) (inl : List Byte) : (s.post t c inl).denPins = s.denPins := by
  obtain ⟨_, _, _, _, h⟩ := s.post_frame t c inl; rw [h]
@[simp] theorem State.post_free (s : State) (t : Nat) (c : Cpl) (inl : List Byte) : (s.post t c inl).free = s.free := by
  obtain ⟨_, _, _, _, h⟩ := s.post_frame t c inl; rw [h]

/-- ACCEPTED changes the same fields as any completion. -/
theorem State.accept_frame (s : State) (h : Hdr) (op : Nat) : ∃ x_taps x_irq x_out x_ctrs, s.accept h op = { s with taps := x_taps, irq := x_irq, out := x_out, ctrs := x_ctrs } := by
  obtain ⟨a, b, d, e, hp⟩ := (s.setTap h.tap { s.tap h.tap with asyncs := (s.tap h.tap).asyncs ++ [⟨h.seq, op, h.target⟩] }).post_frame
    h.tap ⟨h.seq, ACCEPTED, 0, op, h.target, 0, []⟩ []
  exact ⟨a, b, d, e, hp⟩

@[simp] theorem State.accept_pending (s : State) (h : Hdr) (op : Nat) : (s.accept h op).pending = s.pending := by
  obtain ⟨_, _, _, _, h⟩ := s.accept_frame h op; rw [h]
@[simp] theorem State.accept_tb (s : State) (h : Hdr) (op : Nat) : (s.accept h op).tb = s.tb := by
  obtain ⟨_, _, _, _, h⟩ := s.accept_frame h op; rw [h]
@[simp] theorem State.accept_ptp (s : State) (h : Hdr) (op : Nat) : (s.accept h op).ptp = s.ptp := by
  obtain ⟨_, _, _, _, h⟩ := s.accept_frame h op; rw [h]
@[simp] theorem State.accept_clks (s : State) (h : Hdr) (op : Nat) : (s.accept h op).clks = s.clks := by
  obtain ⟨_, _, _, _, h⟩ := s.accept_frame h op; rw [h]
@[simp] theorem State.accept_clkOwner (s : State) (h : Hdr) (op : Nat) : (s.accept h op).clkOwner = s.clkOwner := by
  obtain ⟨_, _, _, _, h⟩ := s.accept_frame h op; rw [h]
@[simp] theorem State.accept_trigOut (s : State) (h : Hdr) (op : Nat) : (s.accept h op).trigOut = s.trigOut := by
  obtain ⟨_, _, _, _, h⟩ := s.accept_frame h op; rw [h]
@[simp] theorem State.accept_trigOutOwner (s : State) (h : Hdr) (op : Nat) : (s.accept h op).trigOutOwner = s.trigOutOwner := by
  obtain ⟨_, _, _, _, h⟩ := s.accept_frame h op; rw [h]
@[simp] theorem State.accept_trigIn (s : State) (h : Hdr) (op : Nat) : (s.accept h op).trigIn = s.trigIn := by
  obtain ⟨_, _, _, _, h⟩ := s.accept_frame h op; rw [h]
@[simp] theorem State.accept_trigInOwner (s : State) (h : Hdr) (op : Nat) : (s.accept h op).trigInOwner = s.trigInOwner := by
  obtain ⟨_, _, _, _, h⟩ := s.accept_frame h op; rw [h]
@[simp] theorem State.accept_netTaps (s : State) (h : Hdr) (op : Nat) : (s.accept h op).netTaps = s.netTaps := by
  obtain ⟨_, _, _, _, h⟩ := s.accept_frame h op; rw [h]
@[simp] theorem State.accept_udpPort (s : State) (h : Hdr) (op : Nat) : (s.accept h op).udpPort = s.udpPort := by
  obtain ⟨_, _, _, _, h⟩ := s.accept_frame h op; rw [h]
@[simp] theorem State.accept_served (s : State) (h : Hdr) (op : Nat) : (s.accept h op).served = s.served := by
  obtain ⟨_, _, _, _, h⟩ := s.accept_frame h op; rw [h]
@[simp] theorem State.accept_waits (s : State) (h : Hdr) (op : Nat) : (s.accept h op).waits = s.waits := by
  obtain ⟨_, _, _, _, h⟩ := s.accept_frame h op; rw [h]
@[simp] theorem State.accept_batches (s : State) (h : Hdr) (op : Nat) : (s.accept h op).batches = s.batches := by
  obtain ⟨_, _, _, _, h⟩ := s.accept_frame h op; rw [h]
@[simp] theorem State.accept_sliceOwner (s : State) (h : Hdr) (op : Nat) : (s.accept h op).sliceOwner = s.sliceOwner := by
  obtain ⟨_, _, _, _, h⟩ := s.accept_frame h op; rw [h]
@[simp] theorem State.accept_busOwner (s : State) (h : Hdr) (op : Nat) : (s.accept h op).busOwner = s.busOwner := by
  obtain ⟨_, _, _, _, h⟩ := s.accept_frame h op; rw [h]
@[simp] theorem State.accept_acqOwner (s : State) (h : Hdr) (op : Nat) : (s.accept h op).acqOwner = s.acqOwner := by
  obtain ⟨_, _, _, _, h⟩ := s.accept_frame h op; rw [h]
@[simp] theorem State.accept_acqs (s : State) (h : Hdr) (op : Nat) : (s.accept h op).acqs = s.acqs := by
  obtain ⟨_, _, _, _, h⟩ := s.accept_frame h op; rw [h]
@[simp] theorem State.accept_tdcs (s : State) (h : Hdr) (op : Nat) : (s.accept h op).tdcs = s.tdcs := by
  obtain ⟨_, _, _, _, h⟩ := s.accept_frame h op; rw [h]
@[simp] theorem State.accept_fixture (s : State) (h : Hdr) (op : Nat) : (s.accept h op).fixture = s.fixture := by
  obtain ⟨_, _, _, _, h⟩ := s.accept_frame h op; rw [h]
@[simp] theorem State.accept_cal (s : State) (h : Hdr) (op : Nat) : (s.accept h op).cal = s.cal := by
  obtain ⟨_, _, _, _, h⟩ := s.accept_frame h op; rw [h]
@[simp] theorem State.accept_flt (s : State) (h : Hdr) (op : Nat) : (s.accept h op).flt = s.flt := by
  obtain ⟨_, _, _, _, h⟩ := s.accept_frame h op; rw [h]
@[simp] theorem State.accept_rep (s : State) (h : Hdr) (op : Nat) : (s.accept h op).rep = s.rep := by
  obtain ⟨_, _, _, _, h⟩ := s.accept_frame h op; rw [h]
@[simp] theorem State.accept_wins (s : State) (h : Hdr) (op : Nat) : (s.accept h op).wins = s.wins := by
  obtain ⟨_, _, _, _, h⟩ := s.accept_frame h op; rw [h]
@[simp] theorem State.accept_pwr (s : State) (h : Hdr) (op : Nat) : (s.accept h op).pwr = s.pwr := by
  obtain ⟨_, _, _, _, h⟩ := s.accept_frame h op; rw [h]
@[simp] theorem State.accept_dram (s : State) (h : Hdr) (op : Nat) : (s.accept h op).dram = s.dram := by
  obtain ⟨_, _, _, _, h⟩ := s.accept_frame h op; rw [h]
@[simp] theorem State.accept_cellar (s : State) (h : Hdr) (op : Nat) : (s.accept h op).cellar = s.cellar := by
  obtain ⟨_, _, _, _, h⟩ := s.accept_frame h op; rw [h]
@[simp] theorem State.accept_eths (s : State) (h : Hdr) (op : Nat) : (s.accept h op).eths = s.eths := by
  obtain ⟨_, _, _, _, h⟩ := s.accept_frame h op; rw [h]
@[simp] theorem State.accept_syncs (s : State) (h : Hdr) (op : Nat) : (s.accept h op).syncs = s.syncs := by
  obtain ⟨_, _, _, _, h⟩ := s.accept_frame h op; rw [h]
@[simp] theorem State.accept_commits (s : State) (h : Hdr) (op : Nat) : (s.accept h op).commits = s.commits := by
  obtain ⟨_, _, _, _, h⟩ := s.accept_frame h op; rw [h]
@[simp] theorem State.accept_scripts (s : State) (h : Hdr) (op : Nat) : (s.accept h op).scripts = s.scripts := by
  obtain ⟨_, _, _, _, h⟩ := s.accept_frame h op; rw [h]
@[simp] theorem State.accept_buses (s : State) (h : Hdr) (op : Nat) : (s.accept h op).buses = s.buses := by
  obtain ⟨_, _, _, _, h⟩ := s.accept_frame h op; rw [h]
@[simp] theorem State.accept_peOrd (s : State) (h : Hdr) (op : Nat) : (s.accept h op).peOrd = s.peOrd := by
  obtain ⟨_, _, _, _, h⟩ := s.accept_frame h op; rw [h]
@[simp] theorem State.accept_sched (s : State) (h : Hdr) (op : Nat) : (s.accept h op).sched = s.sched := by
  obtain ⟨_, _, _, _, h⟩ := s.accept_frame h op; rw [h]
@[simp] theorem State.accept_pcie (s : State) (h : Hdr) (op : Nat) : (s.accept h op).pcie = s.pcie := by
  obtain ⟨_, _, _, _, h⟩ := s.accept_frame h op; rw [h]
@[simp] theorem State.accept_boot (s : State) (h : Hdr) (op : Nat) : (s.accept h op).boot = s.boot := by
  obtain ⟨_, _, _, _, h⟩ := s.accept_frame h op; rw [h]
@[simp] theorem State.accept_pace (s : State) (h : Hdr) (op : Nat) : (s.accept h op).pace = s.pace := by
  obtain ⟨_, _, _, _, h⟩ := s.accept_frame h op; rw [h]
@[simp] theorem State.accept_paceLow (s : State) (h : Hdr) (op : Nat) : (s.accept h op).paceLow = s.paceLow := by
  obtain ⟨_, _, _, _, h⟩ := s.accept_frame h op; rw [h]
@[simp] theorem State.accept_drvPins (s : State) (h : Hdr) (op : Nat) : (s.accept h op).drvPins = s.drvPins := by
  obtain ⟨_, _, _, _, h⟩ := s.accept_frame h op; rw [h]
@[simp] theorem State.accept_denPins (s : State) (h : Hdr) (op : Nat) : (s.accept h op).denPins = s.denPins := by
  obtain ⟨_, _, _, _, h⟩ := s.accept_frame h op; rw [h]
@[simp] theorem State.accept_free (s : State) (h : Hdr) (op : Nat) : (s.accept h op).free = s.free := by
  obtain ⟨_, _, _, _, h⟩ := s.accept_frame h op; rw [h]

/-- A report reaches the collector alone. -/
theorem State.report_frame (s : State) (src code dom detail : Nat) (warn cond : Bool) : ∃ x_flt, s.report src code dom detail warn cond = { s with flt := x_flt } := by
  unfold State.report; simp only; split <;> exact ⟨_, rfl⟩

@[simp] theorem State.report_pending (s : State) (src code dom detail : Nat) (warn cond : Bool) : (s.report src code dom detail warn cond).pending = s.pending := by
  obtain ⟨_, h⟩ := s.report_frame src code dom detail warn cond; rw [h]
@[simp] theorem State.report_tb (s : State) (src code dom detail : Nat) (warn cond : Bool) : (s.report src code dom detail warn cond).tb = s.tb := by
  obtain ⟨_, h⟩ := s.report_frame src code dom detail warn cond; rw [h]
@[simp] theorem State.report_ptp (s : State) (src code dom detail : Nat) (warn cond : Bool) : (s.report src code dom detail warn cond).ptp = s.ptp := by
  obtain ⟨_, h⟩ := s.report_frame src code dom detail warn cond; rw [h]
@[simp] theorem State.report_clks (s : State) (src code dom detail : Nat) (warn cond : Bool) : (s.report src code dom detail warn cond).clks = s.clks := by
  obtain ⟨_, h⟩ := s.report_frame src code dom detail warn cond; rw [h]
@[simp] theorem State.report_clkOwner (s : State) (src code dom detail : Nat) (warn cond : Bool) : (s.report src code dom detail warn cond).clkOwner = s.clkOwner := by
  obtain ⟨_, h⟩ := s.report_frame src code dom detail warn cond; rw [h]
@[simp] theorem State.report_trigOut (s : State) (src code dom detail : Nat) (warn cond : Bool) : (s.report src code dom detail warn cond).trigOut = s.trigOut := by
  obtain ⟨_, h⟩ := s.report_frame src code dom detail warn cond; rw [h]
@[simp] theorem State.report_trigOutOwner (s : State) (src code dom detail : Nat) (warn cond : Bool) : (s.report src code dom detail warn cond).trigOutOwner = s.trigOutOwner := by
  obtain ⟨_, h⟩ := s.report_frame src code dom detail warn cond; rw [h]
@[simp] theorem State.report_trigIn (s : State) (src code dom detail : Nat) (warn cond : Bool) : (s.report src code dom detail warn cond).trigIn = s.trigIn := by
  obtain ⟨_, h⟩ := s.report_frame src code dom detail warn cond; rw [h]
@[simp] theorem State.report_trigInOwner (s : State) (src code dom detail : Nat) (warn cond : Bool) : (s.report src code dom detail warn cond).trigInOwner = s.trigInOwner := by
  obtain ⟨_, h⟩ := s.report_frame src code dom detail warn cond; rw [h]
@[simp] theorem State.report_taps (s : State) (src code dom detail : Nat) (warn cond : Bool) : (s.report src code dom detail warn cond).taps = s.taps := by
  obtain ⟨_, h⟩ := s.report_frame src code dom detail warn cond; rw [h]
@[simp] theorem State.report_netTaps (s : State) (src code dom detail : Nat) (warn cond : Bool) : (s.report src code dom detail warn cond).netTaps = s.netTaps := by
  obtain ⟨_, h⟩ := s.report_frame src code dom detail warn cond; rw [h]
@[simp] theorem State.report_udpPort (s : State) (src code dom detail : Nat) (warn cond : Bool) : (s.report src code dom detail warn cond).udpPort = s.udpPort := by
  obtain ⟨_, h⟩ := s.report_frame src code dom detail warn cond; rw [h]
@[simp] theorem State.report_served (s : State) (src code dom detail : Nat) (warn cond : Bool) : (s.report src code dom detail warn cond).served = s.served := by
  obtain ⟨_, h⟩ := s.report_frame src code dom detail warn cond; rw [h]
@[simp] theorem State.report_waits (s : State) (src code dom detail : Nat) (warn cond : Bool) : (s.report src code dom detail warn cond).waits = s.waits := by
  obtain ⟨_, h⟩ := s.report_frame src code dom detail warn cond; rw [h]
@[simp] theorem State.report_batches (s : State) (src code dom detail : Nat) (warn cond : Bool) : (s.report src code dom detail warn cond).batches = s.batches := by
  obtain ⟨_, h⟩ := s.report_frame src code dom detail warn cond; rw [h]
@[simp] theorem State.report_sliceOwner (s : State) (src code dom detail : Nat) (warn cond : Bool) : (s.report src code dom detail warn cond).sliceOwner = s.sliceOwner := by
  obtain ⟨_, h⟩ := s.report_frame src code dom detail warn cond; rw [h]
@[simp] theorem State.report_busOwner (s : State) (src code dom detail : Nat) (warn cond : Bool) : (s.report src code dom detail warn cond).busOwner = s.busOwner := by
  obtain ⟨_, h⟩ := s.report_frame src code dom detail warn cond; rw [h]
@[simp] theorem State.report_acqOwner (s : State) (src code dom detail : Nat) (warn cond : Bool) : (s.report src code dom detail warn cond).acqOwner = s.acqOwner := by
  obtain ⟨_, h⟩ := s.report_frame src code dom detail warn cond; rw [h]
@[simp] theorem State.report_acqs (s : State) (src code dom detail : Nat) (warn cond : Bool) : (s.report src code dom detail warn cond).acqs = s.acqs := by
  obtain ⟨_, h⟩ := s.report_frame src code dom detail warn cond; rw [h]
@[simp] theorem State.report_tdcs (s : State) (src code dom detail : Nat) (warn cond : Bool) : (s.report src code dom detail warn cond).tdcs = s.tdcs := by
  obtain ⟨_, h⟩ := s.report_frame src code dom detail warn cond; rw [h]
@[simp] theorem State.report_fixture (s : State) (src code dom detail : Nat) (warn cond : Bool) : (s.report src code dom detail warn cond).fixture = s.fixture := by
  obtain ⟨_, h⟩ := s.report_frame src code dom detail warn cond; rw [h]
@[simp] theorem State.report_cal (s : State) (src code dom detail : Nat) (warn cond : Bool) : (s.report src code dom detail warn cond).cal = s.cal := by
  obtain ⟨_, h⟩ := s.report_frame src code dom detail warn cond; rw [h]
@[simp] theorem State.report_rep (s : State) (src code dom detail : Nat) (warn cond : Bool) : (s.report src code dom detail warn cond).rep = s.rep := by
  obtain ⟨_, h⟩ := s.report_frame src code dom detail warn cond; rw [h]
@[simp] theorem State.report_ctrs (s : State) (src code dom detail : Nat) (warn cond : Bool) : (s.report src code dom detail warn cond).ctrs = s.ctrs := by
  obtain ⟨_, h⟩ := s.report_frame src code dom detail warn cond; rw [h]
@[simp] theorem State.report_wins (s : State) (src code dom detail : Nat) (warn cond : Bool) : (s.report src code dom detail warn cond).wins = s.wins := by
  obtain ⟨_, h⟩ := s.report_frame src code dom detail warn cond; rw [h]
@[simp] theorem State.report_pwr (s : State) (src code dom detail : Nat) (warn cond : Bool) : (s.report src code dom detail warn cond).pwr = s.pwr := by
  obtain ⟨_, h⟩ := s.report_frame src code dom detail warn cond; rw [h]
@[simp] theorem State.report_dram (s : State) (src code dom detail : Nat) (warn cond : Bool) : (s.report src code dom detail warn cond).dram = s.dram := by
  obtain ⟨_, h⟩ := s.report_frame src code dom detail warn cond; rw [h]
@[simp] theorem State.report_cellar (s : State) (src code dom detail : Nat) (warn cond : Bool) : (s.report src code dom detail warn cond).cellar = s.cellar := by
  obtain ⟨_, h⟩ := s.report_frame src code dom detail warn cond; rw [h]
@[simp] theorem State.report_eths (s : State) (src code dom detail : Nat) (warn cond : Bool) : (s.report src code dom detail warn cond).eths = s.eths := by
  obtain ⟨_, h⟩ := s.report_frame src code dom detail warn cond; rw [h]
@[simp] theorem State.report_syncs (s : State) (src code dom detail : Nat) (warn cond : Bool) : (s.report src code dom detail warn cond).syncs = s.syncs := by
  obtain ⟨_, h⟩ := s.report_frame src code dom detail warn cond; rw [h]
@[simp] theorem State.report_commits (s : State) (src code dom detail : Nat) (warn cond : Bool) : (s.report src code dom detail warn cond).commits = s.commits := by
  obtain ⟨_, h⟩ := s.report_frame src code dom detail warn cond; rw [h]
@[simp] theorem State.report_scripts (s : State) (src code dom detail : Nat) (warn cond : Bool) : (s.report src code dom detail warn cond).scripts = s.scripts := by
  obtain ⟨_, h⟩ := s.report_frame src code dom detail warn cond; rw [h]
@[simp] theorem State.report_buses (s : State) (src code dom detail : Nat) (warn cond : Bool) : (s.report src code dom detail warn cond).buses = s.buses := by
  obtain ⟨_, h⟩ := s.report_frame src code dom detail warn cond; rw [h]
@[simp] theorem State.report_peOrd (s : State) (src code dom detail : Nat) (warn cond : Bool) : (s.report src code dom detail warn cond).peOrd = s.peOrd := by
  obtain ⟨_, h⟩ := s.report_frame src code dom detail warn cond; rw [h]
@[simp] theorem State.report_sched (s : State) (src code dom detail : Nat) (warn cond : Bool) : (s.report src code dom detail warn cond).sched = s.sched := by
  obtain ⟨_, h⟩ := s.report_frame src code dom detail warn cond; rw [h]
@[simp] theorem State.report_irq (s : State) (src code dom detail : Nat) (warn cond : Bool) : (s.report src code dom detail warn cond).irq = s.irq := by
  obtain ⟨_, h⟩ := s.report_frame src code dom detail warn cond; rw [h]
@[simp] theorem State.report_pcie (s : State) (src code dom detail : Nat) (warn cond : Bool) : (s.report src code dom detail warn cond).pcie = s.pcie := by
  obtain ⟨_, h⟩ := s.report_frame src code dom detail warn cond; rw [h]
@[simp] theorem State.report_boot (s : State) (src code dom detail : Nat) (warn cond : Bool) : (s.report src code dom detail warn cond).boot = s.boot := by
  obtain ⟨_, h⟩ := s.report_frame src code dom detail warn cond; rw [h]
@[simp] theorem State.report_pace (s : State) (src code dom detail : Nat) (warn cond : Bool) : (s.report src code dom detail warn cond).pace = s.pace := by
  obtain ⟨_, h⟩ := s.report_frame src code dom detail warn cond; rw [h]
@[simp] theorem State.report_paceLow (s : State) (src code dom detail : Nat) (warn cond : Bool) : (s.report src code dom detail warn cond).paceLow = s.paceLow := by
  obtain ⟨_, h⟩ := s.report_frame src code dom detail warn cond; rw [h]
@[simp] theorem State.report_drvPins (s : State) (src code dom detail : Nat) (warn cond : Bool) : (s.report src code dom detail warn cond).drvPins = s.drvPins := by
  obtain ⟨_, h⟩ := s.report_frame src code dom detail warn cond; rw [h]
@[simp] theorem State.report_denPins (s : State) (src code dom detail : Nat) (warn cond : Bool) : (s.report src code dom detail warn cond).denPins = s.denPins := by
  obtain ⟨_, h⟩ := s.report_frame src code dom detail warn cond; rw [h]
@[simp] theorem State.report_free (s : State) (src code dom detail : Nat) (warn cond : Bool) : (s.report src code dom detail warn cond).free = s.free := by
  obtain ⟨_, h⟩ := s.report_frame src code dom detail warn cond; rw [h]
@[simp] theorem State.report_out (s : State) (src code dom detail : Nat) (warn cond : Bool) : (s.report src code dom detail warn cond).out = s.out := by
  obtain ⟨_, h⟩ := s.report_frame src code dom detail warn cond; rw [h]

/-- A report with a free DETAIL. -/
theorem State.reportFree_frame (s : State) (src code dom : Nat) (warn cond : Bool) : ∃ x_flt x_free, s.reportFree src code dom warn cond = { s with flt := x_flt, free := x_free } := by
  obtain ⟨f, h⟩ := s.fresh.2.report_frame src code dom (s.fresh.1 % 18446744073709551616) warn cond
  exact ⟨f, _, h⟩

/-- A correctable error is counted, written back and may warn. -/
theorem State.correctable_frame (s : State) (a bit : Nat) : ∃ x_dram x_flt x_ctrs x_free, s.correctable a bit = { s with dram := x_dram, flt := x_flt, ctrs := x_ctrs, free := x_free } := by
  have one : ∀ (u : State) (p q : Prop) [Decidable p] [Decidable q] (k i c d e f m x : Nat), (∃ d' f' c' n', u = { s with dram := d', flt := f', ctrs := c', free := n' }) →
      ∃ d' f' c' n', (if q then (if p then u.reportFree k c d true false else u).rowWear x i else if p then u.reportFree k c d true false else u) =
        { s with dram := d', flt := f', ctrs := c', free := n' } := by
    rintro u p q _ _ k i c d e f m x ⟨d', f', c', n', rfl⟩
    have hr : ∃ f'' n'', (if p then State.reportFree { s with dram := d', flt := f', ctrs := c', free := n' } k c d true false
        else { s with dram := d', flt := f', ctrs := c', free := n' }) = { s with dram := d', flt := f'', ctrs := c', free := n'' } := by
      split
      · obtain ⟨f'', n'', h⟩ := State.reportFree_frame { s with dram := d', flt := f', ctrs := c', free := n' } k c d true false
        exact ⟨f'', n'', h⟩
      · exact ⟨_, _, rfl⟩
    obtain ⟨f'', n'', h⟩ := hr
    rw [h]
    split
    · obtain ⟨g, h'⟩ := State.report_frame { s with dram := d', flt := f'', ctrs := c', free := n'' } (pcSrc x) (0x0306 + i) (0x0014 + aStack x)
        (aBank x * 16777216 + aRow x) true false
      exact ⟨_, g, _, _, h'⟩
    · exact ⟨_, _, _, _, rfl⟩
  unfold State.correctable
  simp only
  refine one _ _ _ _ _ _ _ 0 0 0 _ ?_
  split <;> exact ⟨_, _, _, _, rfl⟩

/-- A word written changes memory's marks, and an injection uses itself up. -/
theorem State.writeWord_frame (s : State) (a : Nat) : ∃ x_dram x_flt x_free, s.writeWord a = { s with dram := x_dram, flt := x_flt, free := x_free } := by
  have one : ∀ (u : State) (c w n : Nat), (∃ d, u = { s with dram := d }) → ∃ d f m,
      { (u.useInject c).fresh.2 with dram := { (u.useInject c).fresh.2.dram with
        flip := (u.useInject c).fresh.2.dram.flip.set (0, 0) w (n, (u.useInject c).fresh.1) } } = { s with dram := d, flt := f, free := m } := by
    rintro _ c w n ⟨d, rfl⟩
    exact ⟨_, _, _, rfl⟩
  have h0 : ∃ d, ({ s.unflip (a / 32) with dram := { (s.unflip (a / 32)).dram with
      poison := (s.unflip (a / 32)).dram.poison.filter (fun x => x != a / 32) } } : State) = { s with dram := d } := ⟨_, rfl⟩
  unfold State.writeWord
  simp only
  split
  · exact one _ _ _ _ h0
  · split
    · exact one _ _ _ _ h0
    · obtain ⟨d, h⟩ := h0
      exact ⟨d, _, _, h⟩

/-- A word written changes memory, and what its read-modify-write corrects is counted and may warn. -/
theorem State.storeWord_frame (s : State) (a : Nat) (data : List Byte) : ∃ x_dram x_flt x_ctrs x_free, s.storeWord a data = { s with dram := x_dram, flt := x_flt, ctrs := x_ctrs, free := x_free } := by
  unfold State.storeWord
  simp only
  split
  · exact ⟨_, _, _, _, rfl⟩
  · split
    · exact ⟨_, _, _, _, rfl⟩
    · split
      · obtain ⟨d, f, c, n, h⟩ := s.correctable_frame a ((s.wrongBits (a / 32) noErr).headD 0)
        rw [h]
        obtain ⟨d', f', n', h'⟩ := State.writeWord_frame (State.poke { s with dram := d, flt := f, ctrs := c, free := n } a data) a
        exact ⟨d', f', c, n', h'⟩
      · obtain ⟨d', f', n', h'⟩ := State.writeWord_frame (s.poke a data) a
        exact ⟨d', f', _, n', h'⟩

/-- Bytes stored change memory; counters, reports and free values follow from its checks. -/
theorem State.store_frame (s : State) (a : Nat) (data : List Byte) : ∃ x_dram x_flt x_ctrs x_free, s.store a data = { s with dram := x_dram, flt := x_flt, ctrs := x_ctrs, free := x_free } := by
  unfold State.store
  generalize data.length + 1 = k
  induction k generalizing s a data with
  | zero => exact ⟨_, _, _, _, rfl⟩
  | succ k ih =>
    unfold storeBytes
    simp only
    split
    · exact ⟨_, _, _, _, rfl⟩
    · obtain ⟨d, f, c, n, h⟩ := s.storeWord_frame a (data.take (32 - a % 32))
      obtain ⟨d', f', c', n', h'⟩ := ih (s.storeWord a (data.take (32 - a % 32))) (a + (32 - a % 32)) (data.drop (32 - a % 32))
      exact ⟨d', f', c', n', by rw [h', h]⟩

/-- Result data go to memory, whose checks may count and report. -/
theorem State.putData_frame (s : State) (r : Option DRef) (v : List Byte) : ∃ x_dram x_flt x_ctrs x_free, s.putData r v = { s with dram := x_dram, flt := x_flt, ctrs := x_ctrs, free := x_free } := by
  unfold State.putData; split
  · split
    · exact ⟨_, _, _, _, rfl⟩
    · exact s.store_frame _ v
  · exact ⟨_, _, _, _, rfl⟩

@[simp] theorem State.putData_pending (s : State) (r : Option DRef) (v : List Byte) : (s.putData r v).pending = s.pending := by
  obtain ⟨_, _, _, _, h⟩ := s.putData_frame r v; rw [h]
@[simp] theorem State.putData_tb (s : State) (r : Option DRef) (v : List Byte) : (s.putData r v).tb = s.tb := by
  obtain ⟨_, _, _, _, h⟩ := s.putData_frame r v; rw [h]
@[simp] theorem State.putData_ptp (s : State) (r : Option DRef) (v : List Byte) : (s.putData r v).ptp = s.ptp := by
  obtain ⟨_, _, _, _, h⟩ := s.putData_frame r v; rw [h]
@[simp] theorem State.putData_clks (s : State) (r : Option DRef) (v : List Byte) : (s.putData r v).clks = s.clks := by
  obtain ⟨_, _, _, _, h⟩ := s.putData_frame r v; rw [h]
@[simp] theorem State.putData_clkOwner (s : State) (r : Option DRef) (v : List Byte) : (s.putData r v).clkOwner = s.clkOwner := by
  obtain ⟨_, _, _, _, h⟩ := s.putData_frame r v; rw [h]
@[simp] theorem State.putData_trigOut (s : State) (r : Option DRef) (v : List Byte) : (s.putData r v).trigOut = s.trigOut := by
  obtain ⟨_, _, _, _, h⟩ := s.putData_frame r v; rw [h]
@[simp] theorem State.putData_trigOutOwner (s : State) (r : Option DRef) (v : List Byte) : (s.putData r v).trigOutOwner = s.trigOutOwner := by
  obtain ⟨_, _, _, _, h⟩ := s.putData_frame r v; rw [h]
@[simp] theorem State.putData_trigIn (s : State) (r : Option DRef) (v : List Byte) : (s.putData r v).trigIn = s.trigIn := by
  obtain ⟨_, _, _, _, h⟩ := s.putData_frame r v; rw [h]
@[simp] theorem State.putData_trigInOwner (s : State) (r : Option DRef) (v : List Byte) : (s.putData r v).trigInOwner = s.trigInOwner := by
  obtain ⟨_, _, _, _, h⟩ := s.putData_frame r v; rw [h]
@[simp] theorem State.putData_taps (s : State) (r : Option DRef) (v : List Byte) : (s.putData r v).taps = s.taps := by
  obtain ⟨_, _, _, _, h⟩ := s.putData_frame r v; rw [h]
@[simp] theorem State.putData_netTaps (s : State) (r : Option DRef) (v : List Byte) : (s.putData r v).netTaps = s.netTaps := by
  obtain ⟨_, _, _, _, h⟩ := s.putData_frame r v; rw [h]
@[simp] theorem State.putData_udpPort (s : State) (r : Option DRef) (v : List Byte) : (s.putData r v).udpPort = s.udpPort := by
  obtain ⟨_, _, _, _, h⟩ := s.putData_frame r v; rw [h]
@[simp] theorem State.putData_served (s : State) (r : Option DRef) (v : List Byte) : (s.putData r v).served = s.served := by
  obtain ⟨_, _, _, _, h⟩ := s.putData_frame r v; rw [h]
@[simp] theorem State.putData_waits (s : State) (r : Option DRef) (v : List Byte) : (s.putData r v).waits = s.waits := by
  obtain ⟨_, _, _, _, h⟩ := s.putData_frame r v; rw [h]
@[simp] theorem State.putData_batches (s : State) (r : Option DRef) (v : List Byte) : (s.putData r v).batches = s.batches := by
  obtain ⟨_, _, _, _, h⟩ := s.putData_frame r v; rw [h]
@[simp] theorem State.putData_sliceOwner (s : State) (r : Option DRef) (v : List Byte) : (s.putData r v).sliceOwner = s.sliceOwner := by
  obtain ⟨_, _, _, _, h⟩ := s.putData_frame r v; rw [h]
@[simp] theorem State.putData_busOwner (s : State) (r : Option DRef) (v : List Byte) : (s.putData r v).busOwner = s.busOwner := by
  obtain ⟨_, _, _, _, h⟩ := s.putData_frame r v; rw [h]
@[simp] theorem State.putData_acqOwner (s : State) (r : Option DRef) (v : List Byte) : (s.putData r v).acqOwner = s.acqOwner := by
  obtain ⟨_, _, _, _, h⟩ := s.putData_frame r v; rw [h]
@[simp] theorem State.putData_acqs (s : State) (r : Option DRef) (v : List Byte) : (s.putData r v).acqs = s.acqs := by
  obtain ⟨_, _, _, _, h⟩ := s.putData_frame r v; rw [h]
@[simp] theorem State.putData_tdcs (s : State) (r : Option DRef) (v : List Byte) : (s.putData r v).tdcs = s.tdcs := by
  obtain ⟨_, _, _, _, h⟩ := s.putData_frame r v; rw [h]
@[simp] theorem State.putData_fixture (s : State) (r : Option DRef) (v : List Byte) : (s.putData r v).fixture = s.fixture := by
  obtain ⟨_, _, _, _, h⟩ := s.putData_frame r v; rw [h]
@[simp] theorem State.putData_cal (s : State) (r : Option DRef) (v : List Byte) : (s.putData r v).cal = s.cal := by
  obtain ⟨_, _, _, _, h⟩ := s.putData_frame r v; rw [h]
@[simp] theorem State.putData_rep (s : State) (r : Option DRef) (v : List Byte) : (s.putData r v).rep = s.rep := by
  obtain ⟨_, _, _, _, h⟩ := s.putData_frame r v; rw [h]
@[simp] theorem State.putData_wins (s : State) (r : Option DRef) (v : List Byte) : (s.putData r v).wins = s.wins := by
  obtain ⟨_, _, _, _, h⟩ := s.putData_frame r v; rw [h]
@[simp] theorem State.putData_pwr (s : State) (r : Option DRef) (v : List Byte) : (s.putData r v).pwr = s.pwr := by
  obtain ⟨_, _, _, _, h⟩ := s.putData_frame r v; rw [h]
@[simp] theorem State.putData_cellar (s : State) (r : Option DRef) (v : List Byte) : (s.putData r v).cellar = s.cellar := by
  obtain ⟨_, _, _, _, h⟩ := s.putData_frame r v; rw [h]
@[simp] theorem State.putData_eths (s : State) (r : Option DRef) (v : List Byte) : (s.putData r v).eths = s.eths := by
  obtain ⟨_, _, _, _, h⟩ := s.putData_frame r v; rw [h]
@[simp] theorem State.putData_syncs (s : State) (r : Option DRef) (v : List Byte) : (s.putData r v).syncs = s.syncs := by
  obtain ⟨_, _, _, _, h⟩ := s.putData_frame r v; rw [h]
@[simp] theorem State.putData_commits (s : State) (r : Option DRef) (v : List Byte) : (s.putData r v).commits = s.commits := by
  obtain ⟨_, _, _, _, h⟩ := s.putData_frame r v; rw [h]
@[simp] theorem State.putData_scripts (s : State) (r : Option DRef) (v : List Byte) : (s.putData r v).scripts = s.scripts := by
  obtain ⟨_, _, _, _, h⟩ := s.putData_frame r v; rw [h]
@[simp] theorem State.putData_buses (s : State) (r : Option DRef) (v : List Byte) : (s.putData r v).buses = s.buses := by
  obtain ⟨_, _, _, _, h⟩ := s.putData_frame r v; rw [h]
@[simp] theorem State.putData_peOrd (s : State) (r : Option DRef) (v : List Byte) : (s.putData r v).peOrd = s.peOrd := by
  obtain ⟨_, _, _, _, h⟩ := s.putData_frame r v; rw [h]
@[simp] theorem State.putData_sched (s : State) (r : Option DRef) (v : List Byte) : (s.putData r v).sched = s.sched := by
  obtain ⟨_, _, _, _, h⟩ := s.putData_frame r v; rw [h]
@[simp] theorem State.putData_irq (s : State) (r : Option DRef) (v : List Byte) : (s.putData r v).irq = s.irq := by
  obtain ⟨_, _, _, _, h⟩ := s.putData_frame r v; rw [h]
@[simp] theorem State.putData_pcie (s : State) (r : Option DRef) (v : List Byte) : (s.putData r v).pcie = s.pcie := by
  obtain ⟨_, _, _, _, h⟩ := s.putData_frame r v; rw [h]
@[simp] theorem State.putData_boot (s : State) (r : Option DRef) (v : List Byte) : (s.putData r v).boot = s.boot := by
  obtain ⟨_, _, _, _, h⟩ := s.putData_frame r v; rw [h]
@[simp] theorem State.putData_pace (s : State) (r : Option DRef) (v : List Byte) : (s.putData r v).pace = s.pace := by
  obtain ⟨_, _, _, _, h⟩ := s.putData_frame r v; rw [h]
@[simp] theorem State.putData_paceLow (s : State) (r : Option DRef) (v : List Byte) : (s.putData r v).paceLow = s.paceLow := by
  obtain ⟨_, _, _, _, h⟩ := s.putData_frame r v; rw [h]
@[simp] theorem State.putData_drvPins (s : State) (r : Option DRef) (v : List Byte) : (s.putData r v).drvPins = s.drvPins := by
  obtain ⟨_, _, _, _, h⟩ := s.putData_frame r v; rw [h]
@[simp] theorem State.putData_denPins (s : State) (r : Option DRef) (v : List Byte) : (s.putData r v).denPins = s.denPins := by
  obtain ⟨_, _, _, _, h⟩ := s.putData_frame r v; rw [h]
@[simp] theorem State.putData_out (s : State) (r : Option DRef) (v : List Byte) : (s.putData r v).out = s.out := by
  obtain ⟨_, _, _, _, h⟩ := s.putData_frame r v; rw [h]

theorem State.foldl_onBatch_frame (f : Nat → Batch → Batch) (l : List Nat) (s : State) :
    ∃ x, l.foldl (fun s b => s.onBatch b (f b)) s = { s with batches := x } := by
  induction l generalizing s with
  | nil => exact ⟨_, rfl⟩
  | cons b l ih =>
    obtain ⟨x, h⟩ := s.onBatch_frame b (f b)
    obtain ⟨y, h'⟩ := ih (s.onBatch b (f b))
    exact ⟨y, by rw [List.foldl_cons, h', h]⟩

/-- Stops by a report change the batches stopped and the source that remembers them. -/
theorem State.stopAll_frame (s : State) (src reason : Nat) (bs : List Nat) : ∃ x_batches x_flt, s.stopAll src reason bs = { s with batches := x_batches, flt := x_flt } := by
  obtain ⟨x, h⟩ := State.foldl_onBatch_frame (fun _ x => x.addCause reason x.vh) (bs.filter s.isActive) s
  unfold State.stopAll
  simp only [h]
  exact ⟨_, _, rfl⟩

/-- A unit's report changes the collector and the batches it stops, and nothing else. -/
theorem State.raise_frame (s : State) (src code detail : Nat) (cond : Bool) : ∃ x_batches x_flt, s.raise src code detail cond = { s with batches := x_batches, flt := x_flt } := by
  unfold State.raise
  simp only
  obtain ⟨x, h⟩ := s.report_frame src code (domainOf src code) detail (s.kindWarn code) cond
  rw [h]
  unfold State.stopsBy
  split
  · exact ⟨_, _, rfl⟩
  · split
    · exact ⟨_, _, rfl⟩
    · obtain ⟨y, z, h'⟩ := State.stopAll_frame { s with flt := x } src (s.stopsOf src code).2 (s.stopsOf src code).1
      exact ⟨y, z, h'⟩

@[simp] theorem State.raise_pending (s : State) (src code detail : Nat) (cond : Bool) : (s.raise src code detail cond).pending = s.pending := by
  obtain ⟨_, _, h⟩ := s.raise_frame src code detail cond; rw [h]
@[simp] theorem State.raise_tb (s : State) (src code detail : Nat) (cond : Bool) : (s.raise src code detail cond).tb = s.tb := by
  obtain ⟨_, _, h⟩ := s.raise_frame src code detail cond; rw [h]
@[simp] theorem State.raise_ptp (s : State) (src code detail : Nat) (cond : Bool) : (s.raise src code detail cond).ptp = s.ptp := by
  obtain ⟨_, _, h⟩ := s.raise_frame src code detail cond; rw [h]
@[simp] theorem State.raise_clks (s : State) (src code detail : Nat) (cond : Bool) : (s.raise src code detail cond).clks = s.clks := by
  obtain ⟨_, _, h⟩ := s.raise_frame src code detail cond; rw [h]
@[simp] theorem State.raise_clkOwner (s : State) (src code detail : Nat) (cond : Bool) : (s.raise src code detail cond).clkOwner = s.clkOwner := by
  obtain ⟨_, _, h⟩ := s.raise_frame src code detail cond; rw [h]
@[simp] theorem State.raise_trigOut (s : State) (src code detail : Nat) (cond : Bool) : (s.raise src code detail cond).trigOut = s.trigOut := by
  obtain ⟨_, _, h⟩ := s.raise_frame src code detail cond; rw [h]
@[simp] theorem State.raise_trigOutOwner (s : State) (src code detail : Nat) (cond : Bool) : (s.raise src code detail cond).trigOutOwner = s.trigOutOwner := by
  obtain ⟨_, _, h⟩ := s.raise_frame src code detail cond; rw [h]
@[simp] theorem State.raise_trigIn (s : State) (src code detail : Nat) (cond : Bool) : (s.raise src code detail cond).trigIn = s.trigIn := by
  obtain ⟨_, _, h⟩ := s.raise_frame src code detail cond; rw [h]
@[simp] theorem State.raise_trigInOwner (s : State) (src code detail : Nat) (cond : Bool) : (s.raise src code detail cond).trigInOwner = s.trigInOwner := by
  obtain ⟨_, _, h⟩ := s.raise_frame src code detail cond; rw [h]
@[simp] theorem State.raise_taps (s : State) (src code detail : Nat) (cond : Bool) : (s.raise src code detail cond).taps = s.taps := by
  obtain ⟨_, _, h⟩ := s.raise_frame src code detail cond; rw [h]
@[simp] theorem State.raise_netTaps (s : State) (src code detail : Nat) (cond : Bool) : (s.raise src code detail cond).netTaps = s.netTaps := by
  obtain ⟨_, _, h⟩ := s.raise_frame src code detail cond; rw [h]
@[simp] theorem State.raise_udpPort (s : State) (src code detail : Nat) (cond : Bool) : (s.raise src code detail cond).udpPort = s.udpPort := by
  obtain ⟨_, _, h⟩ := s.raise_frame src code detail cond; rw [h]
@[simp] theorem State.raise_served (s : State) (src code detail : Nat) (cond : Bool) : (s.raise src code detail cond).served = s.served := by
  obtain ⟨_, _, h⟩ := s.raise_frame src code detail cond; rw [h]
@[simp] theorem State.raise_waits (s : State) (src code detail : Nat) (cond : Bool) : (s.raise src code detail cond).waits = s.waits := by
  obtain ⟨_, _, h⟩ := s.raise_frame src code detail cond; rw [h]
@[simp] theorem State.raise_sliceOwner (s : State) (src code detail : Nat) (cond : Bool) : (s.raise src code detail cond).sliceOwner = s.sliceOwner := by
  obtain ⟨_, _, h⟩ := s.raise_frame src code detail cond; rw [h]
@[simp] theorem State.raise_busOwner (s : State) (src code detail : Nat) (cond : Bool) : (s.raise src code detail cond).busOwner = s.busOwner := by
  obtain ⟨_, _, h⟩ := s.raise_frame src code detail cond; rw [h]
@[simp] theorem State.raise_acqOwner (s : State) (src code detail : Nat) (cond : Bool) : (s.raise src code detail cond).acqOwner = s.acqOwner := by
  obtain ⟨_, _, h⟩ := s.raise_frame src code detail cond; rw [h]
@[simp] theorem State.raise_acqs (s : State) (src code detail : Nat) (cond : Bool) : (s.raise src code detail cond).acqs = s.acqs := by
  obtain ⟨_, _, h⟩ := s.raise_frame src code detail cond; rw [h]
@[simp] theorem State.raise_tdcs (s : State) (src code detail : Nat) (cond : Bool) : (s.raise src code detail cond).tdcs = s.tdcs := by
  obtain ⟨_, _, h⟩ := s.raise_frame src code detail cond; rw [h]
@[simp] theorem State.raise_fixture (s : State) (src code detail : Nat) (cond : Bool) : (s.raise src code detail cond).fixture = s.fixture := by
  obtain ⟨_, _, h⟩ := s.raise_frame src code detail cond; rw [h]
@[simp] theorem State.raise_cal (s : State) (src code detail : Nat) (cond : Bool) : (s.raise src code detail cond).cal = s.cal := by
  obtain ⟨_, _, h⟩ := s.raise_frame src code detail cond; rw [h]
@[simp] theorem State.raise_rep (s : State) (src code detail : Nat) (cond : Bool) : (s.raise src code detail cond).rep = s.rep := by
  obtain ⟨_, _, h⟩ := s.raise_frame src code detail cond; rw [h]
@[simp] theorem State.raise_ctrs (s : State) (src code detail : Nat) (cond : Bool) : (s.raise src code detail cond).ctrs = s.ctrs := by
  obtain ⟨_, _, h⟩ := s.raise_frame src code detail cond; rw [h]
@[simp] theorem State.raise_wins (s : State) (src code detail : Nat) (cond : Bool) : (s.raise src code detail cond).wins = s.wins := by
  obtain ⟨_, _, h⟩ := s.raise_frame src code detail cond; rw [h]
@[simp] theorem State.raise_pwr (s : State) (src code detail : Nat) (cond : Bool) : (s.raise src code detail cond).pwr = s.pwr := by
  obtain ⟨_, _, h⟩ := s.raise_frame src code detail cond; rw [h]
@[simp] theorem State.raise_dram (s : State) (src code detail : Nat) (cond : Bool) : (s.raise src code detail cond).dram = s.dram := by
  obtain ⟨_, _, h⟩ := s.raise_frame src code detail cond; rw [h]
@[simp] theorem State.raise_cellar (s : State) (src code detail : Nat) (cond : Bool) : (s.raise src code detail cond).cellar = s.cellar := by
  obtain ⟨_, _, h⟩ := s.raise_frame src code detail cond; rw [h]
@[simp] theorem State.raise_eths (s : State) (src code detail : Nat) (cond : Bool) : (s.raise src code detail cond).eths = s.eths := by
  obtain ⟨_, _, h⟩ := s.raise_frame src code detail cond; rw [h]
@[simp] theorem State.raise_syncs (s : State) (src code detail : Nat) (cond : Bool) : (s.raise src code detail cond).syncs = s.syncs := by
  obtain ⟨_, _, h⟩ := s.raise_frame src code detail cond; rw [h]
@[simp] theorem State.raise_commits (s : State) (src code detail : Nat) (cond : Bool) : (s.raise src code detail cond).commits = s.commits := by
  obtain ⟨_, _, h⟩ := s.raise_frame src code detail cond; rw [h]
@[simp] theorem State.raise_scripts (s : State) (src code detail : Nat) (cond : Bool) : (s.raise src code detail cond).scripts = s.scripts := by
  obtain ⟨_, _, h⟩ := s.raise_frame src code detail cond; rw [h]
@[simp] theorem State.raise_buses (s : State) (src code detail : Nat) (cond : Bool) : (s.raise src code detail cond).buses = s.buses := by
  obtain ⟨_, _, h⟩ := s.raise_frame src code detail cond; rw [h]
@[simp] theorem State.raise_peOrd (s : State) (src code detail : Nat) (cond : Bool) : (s.raise src code detail cond).peOrd = s.peOrd := by
  obtain ⟨_, _, h⟩ := s.raise_frame src code detail cond; rw [h]
@[simp] theorem State.raise_sched (s : State) (src code detail : Nat) (cond : Bool) : (s.raise src code detail cond).sched = s.sched := by
  obtain ⟨_, _, h⟩ := s.raise_frame src code detail cond; rw [h]
@[simp] theorem State.raise_irq (s : State) (src code detail : Nat) (cond : Bool) : (s.raise src code detail cond).irq = s.irq := by
  obtain ⟨_, _, h⟩ := s.raise_frame src code detail cond; rw [h]
@[simp] theorem State.raise_pcie (s : State) (src code detail : Nat) (cond : Bool) : (s.raise src code detail cond).pcie = s.pcie := by
  obtain ⟨_, _, h⟩ := s.raise_frame src code detail cond; rw [h]
@[simp] theorem State.raise_boot (s : State) (src code detail : Nat) (cond : Bool) : (s.raise src code detail cond).boot = s.boot := by
  obtain ⟨_, _, h⟩ := s.raise_frame src code detail cond; rw [h]
@[simp] theorem State.raise_pace (s : State) (src code detail : Nat) (cond : Bool) : (s.raise src code detail cond).pace = s.pace := by
  obtain ⟨_, _, h⟩ := s.raise_frame src code detail cond; rw [h]
@[simp] theorem State.raise_paceLow (s : State) (src code detail : Nat) (cond : Bool) : (s.raise src code detail cond).paceLow = s.paceLow := by
  obtain ⟨_, _, h⟩ := s.raise_frame src code detail cond; rw [h]
@[simp] theorem State.raise_drvPins (s : State) (src code detail : Nat) (cond : Bool) : (s.raise src code detail cond).drvPins = s.drvPins := by
  obtain ⟨_, _, h⟩ := s.raise_frame src code detail cond; rw [h]
@[simp] theorem State.raise_denPins (s : State) (src code detail : Nat) (cond : Bool) : (s.raise src code detail cond).denPins = s.denPins := by
  obtain ⟨_, _, h⟩ := s.raise_frame src code detail cond; rw [h]
@[simp] theorem State.raise_free (s : State) (src code detail : Nat) (cond : Bool) : (s.raise src code detail cond).free = s.free := by
  obtain ⟨_, _, h⟩ := s.raise_frame src code detail cond; rw [h]
@[simp] theorem State.raise_out (s : State) (src code detail : Nat) (cond : Bool) : (s.raise src code detail cond).out = s.out := by
  obtain ⟨_, _, h⟩ := s.raise_frame src code detail cond; rw [h]

/-- A batch fault changes the collector, its batch and the batch's message on vector 2. -/
theorem State.batchFaultCode_frame (s : State) (b k code dom det v : Nat) : ∃ x_batches x_flt x_irq x_out, s.batchFaultCode b k code dom det v = { s with batches := x_batches, flt := x_flt, irq := x_irq, out := x_out } := by
  unfold State.batchFaultCode
  split
  · exact ⟨_, _, _, _, rfl⟩
  · next x _ =>
    simp only
    obtain ⟨f, h⟩ := s.report_frame (0x700 + 16 * (b - 1) + k) code dom det false false
    rw [h]
    split
    all_goals
      first
      | obtain ⟨y, h1⟩ := State.onBatch_frame (State.setSrc { s with flt := f } (0x700 + 16 * (b - 1) + k)
          { State.src { s with flt := f } (0x700 + 16 * (b - 1) + k) with
            stops := addOnce b (State.src { s with flt := f } (0x700 + 16 * (b - 1) + k)).stops }) b (fun x => x.addCause 4 v)
        rw [h1]
        obtain ⟨i, u, h2⟩ := State.msi_frame _ b 2
        exact ⟨_, _, i, u, h2⟩
      | obtain ⟨y, h1⟩ := State.onBatch_frame { s with flt := f } b (fun x => x.addCause 4 v)
        rw [h1]
        obtain ⟨i, u, h2⟩ := State.msi_frame _ b 2
        exact ⟨_, _, i, u, h2⟩

theorem State.batchFaultDet_frame (s : State) (b k dom det v : Nat) :
    ∃ x f i u, s.batchFaultDet b k dom det v = { s with batches := x, flt := f, irq := i, out := u } := s.batchFaultCode_frame b k _ dom det v

end Sys2Proof.Machine
end

