-- ==== Sys2Proof/Laws/Ops.lean ====
section
/-! SUPPORT. Frames of the shared operations over completions, reports, links and queues: each lemma says once which fields of the state the
operation can change; every other field is as before. -/

namespace Sys2Proof.Machine
open Sys2Proof

/-! ## Completions (R273, R278, R286, R291) -/

theorem State.finishData_frame (s : State) (t seq status flags : Nat) (result : List Byte) (n : Nat) (inl : List Byte) :
    ∃ a i u c, s.finishData t seq status flags result n inl = { s with taps := a, irq := i, out := u, ctrs := c } := by
  unfold State.finishData
  simp only
  split
  · next x _ =>
    obtain ⟨a, i, u, c, h⟩ := (s.setTap t { s.tap t with asyncs := (s.tap t).asyncs.filter (fun a => a.seq != seq) }).post_frame t
      ⟨seq, status, flags, x.opcode, x.target, result.length + n, result⟩ inl
    exact ⟨a, i, u, c, h⟩
  · exact ⟨_, _, _, _, rfl⟩

theorem State.finish_frame (s : State) (t seq status flags : Nat) (result : List Byte) :
    ∃ a i u c, s.finish t seq status flags result = { s with taps := a, irq := i, out := u, ctrs := c } :=
  s.finishData_frame t seq status flags result 0 []

theorem State.finishWait_frame (s : State) (w : Waiter) (status flags : Nat) (result data : List Byte) (inl : Bool) :
    ∃ a i u c, s.finishWait w status flags result data inl = { s with taps := a, irq := i, out := u, ctrs := c } := by
  unfold State.finishWait
  simp only
  split
  · split
    · exact State.post_frame (s.setTap w.tap _) w.tap _ _
    · exact ⟨_, _, _, _, rfl⟩
  · split
    · exact State.post_frame (s.setTap w.tap _) w.tap _ _
    · exact ⟨_, _, _, _, rfl⟩

theorem State.release_frame (s : State) (p : Waiter → Bool) (st flags : Nat) (result : List Byte) :
    ∃ w a i u c, s.release p st flags result = { s with waits := w, taps := a, irq := i, out := u, ctrs := c } := by
  unfold State.release
  generalize s.waits.filter p = l
  have key : ∀ (l : List Waiter) (s : State), ∃ a i u c,
      l.foldl (fun s w => s.finishWait w st flags result [] false) s = { s with taps := a, irq := i, out := u, ctrs := c } := by
    intro l
    induction l with
    | nil => intro s; exact ⟨_, _, _, _, rfl⟩
    | cons w l ih =>
      intro s
      obtain ⟨a, i, u, c, h⟩ := s.finishWait_frame w st flags result [] false
      obtain ⟨a', i', u', c', h'⟩ := ih (s.finishWait w st flags result [] false)
      exact ⟨a', i', u', c', by rw [List.foldl_cons, h', h]⟩
  obtain ⟨a, i, u, c, h⟩ := key l { s with waits := s.waits.filter (fun w => !p w) }
  exact ⟨_, a, i, u, c, h⟩

/-- What a dispatched command leaves besides its own part's effect: result data in memory, completions, a waiting entry. -/
theorem State.settle_frame (h : Hdr) (op : Nat) (r : Res) (ref : Option DRef) :
    ∃ w d a i u c f n, State.settle h op r ref =
      { r.s with waits := w, dram := d, taps := a, irq := i, out := u, ctrs := c, flt := f, free := n } := by
  unfold State.settle
  simp only
  split
  · split
    · obtain ⟨a, i, u, c, e⟩ := State.accept_frame { r.s with waits := r.s.waits ++ [_] } h op
      exact ⟨_, _, a, i, u, c, _, _, e⟩
    · exact ⟨_, _, _, _, _, _, _, _, rfl⟩
  · split
    · obtain ⟨a, i, u, c, e⟩ := r.s.accept_frame h op
      exact ⟨_, _, a, i, u, c, _, _, e⟩
    · obtain ⟨d, f, c, n, e⟩ := r.s.putData_frame ref r.data
      rw [e]
      split
      · obtain ⟨a, i, u, c, e⟩ := State.accept_frame { r.s with dram := d, flt := f, ctrs := c, free := n } h op
        rw [e]
        obtain ⟨a', i', u', c', e'⟩ := State.post_frame
          (State.setTap { r.s with dram := d, flt := f, free := n, taps := a, irq := i, out := u, ctrs := c } h.tap _) h.tap _ _
        exact ⟨_, _, a', i', u', c', _, _, e'⟩
      · obtain ⟨a, i, u, c, e⟩ := State.post_frame { r.s with dram := d, flt := f, ctrs := c, free := n } h.tap _ _
        exact ⟨_, _, a, i, u, c, _, _, e⟩

/-! ## Reports (R436, R438, R528) -/

theorem State.raiseFree_frame (s : State) (src code : Nat) (cond : Bool) :
    ∃ b f n, s.raiseFree src code cond = { s with batches := b, flt := f, free := n } := by
  obtain ⟨b, f, h⟩ := s.fresh.2.raise_frame src code (s.fresh.1 % 18446744073709551616) cond
  exact ⟨b, f, _, h⟩

theorem State.condition_frame (s : State) (src code : Nat) (on : Bool) :
    ∃ b f n, s.condition src code on = { s with batches := b, flt := f, free := n } := by
  unfold State.condition
  split
  · split
    · exact ⟨_, _, _, rfl⟩
    · exact s.raiseFree_frame src code true
  · exact ⟨_, _, _, rfl⟩

theorem State.batchFaultAt_frame (s : State) (b k dom v : Nat) :
    ∃ x f i u, s.batchFaultAt b k dom v = { s with batches := x, flt := f, irq := i, out := u } := s.batchFaultDet_frame b k dom v v

theorem State.batchFault_frame (s : State) (b k : Nat) :
    ∃ x f i u, s.batchFault b k = { s with batches := x, flt := f, irq := i, out := u } := by
  unfold State.batchFault
  split
  · exact ⟨_, _, _, _, rfl⟩
  · exact s.batchFaultAt_frame b k _ _

/-! ## Reads and their checks (R360 to R365) -/

/-- t is s after checks of words read: batches stopped, reports, memory's marks, counters, messages and free values may differ. -/
def State.ReadsTo (s t : State) : Prop :=
  ∃ b f d c i u n, t = { s with batches := b, flt := f, dram := d, ctrs := c, irq := i, out := u, free := n }

theorem State.ReadsTo.refl (s : State) : s.ReadsTo s := ⟨_, _, _, _, _, _, _, rfl⟩

theorem State.ReadsTo.trans {s t u : State} (h : s.ReadsTo t) (k : t.ReadsTo u) : s.ReadsTo u := by
  obtain ⟨_, _, _, _, _, _, _, rfl⟩ := h
  obtain ⟨_, _, _, _, _, _, _, rfl⟩ := k
  exact ⟨_, _, _, _, _, _, _, rfl⟩

theorem State.ReadsTo.foldl {α : Type} (f : State → α → State) (h : ∀ s a, State.ReadsTo s (f s a)) (l : List α) (s : State) : s.ReadsTo (l.foldl f s) := by
  induction l generalizing s with
  | nil => exact .refl s
  | cons a l ih => exact (h s a).trans (ih (f s a))

theorem State.batchFaultRec_frame (s : State) (b k dom det v : Nat) (m : FRec) (j : Nat) :
    ∃ x f i u, s.batchFaultRec b k dom det v m j = { s with batches := x, flt := f, irq := i, out := u } := by
  obtain ⟨x, f, i, u, h⟩ := s.batchFaultCode_frame b k (0x0100 + k + j) dom det v
  unfold State.batchFaultRec
  simp only [h]
  split <;> exact ⟨_, _, _, _, rfl⟩

theorem State.usePoison_reads (s : State) (u : Use) (a i : Nat) : s.ReadsTo (s.usePoison u a i) := by
  unfold State.usePoison
  split
  · split
    · obtain ⟨_, _, _, _, h⟩ := s.batchFaultRec_frame _ 13 (0x0014 + aStack a) _ _ _ i
      rw [h]; exact ⟨_, _, _, _, _, _, _, rfl⟩
    · exact .refl s
  all_goals exact ⟨_, _, _, _, _, _, _, rfl⟩

theorem State.raiseFree_reads (s : State) (src code : Nat) (cond : Bool) : s.ReadsTo (s.raiseFree src code cond) := by
  obtain ⟨_, _, _, h⟩ := s.raiseFree_frame src code cond
  rw [h]; exact ⟨_, _, _, _, _, _, _, rfl⟩

theorem State.raise_reads (s : State) (src code det : Nat) (cond : Bool) : s.ReadsTo (s.raise src code det cond) := by
  obtain ⟨_, _, h⟩ := s.raise_frame src code det cond
  rw [h]; exact ⟨_, _, _, _, _, _, _, rfl⟩

theorem State.rowWear_reads (s : State) (a i : Nat) : s.ReadsTo (s.rowWear a i) := by
  obtain ⟨_, h⟩ := s.report_frame (pcSrc a) (0x0306 + i) (0x0014 + aStack a) (aBank a * 16777216 + aRow a) true false
  exact ⟨_, _, _, _, _, _, _, h⟩

theorem State.freezeStack_reads (s : State) (q addr code : Nat) (cmd : Trans) (syn : Nat) : s.ReadsTo (s.freezeStack q addr code cmd syn) := by
  unfold State.freezeStack
  simp only
  split
  · exact .refl s
  · have h : s.ReadsTo (s.setStack q { s.stack q with frozen := true, freezeAddr := addr, failing := some (cmd, syn) }) :=
      ⟨_, _, _, _, _, _, _, rfl⟩
    exact h.trans (State.raise_reads _ _ _ _ _)

theorem State.demandUe_reads (s : State) (u : Use) (cmd : Trans) (a syn : Nat) : s.ReadsTo (s.demandUe u cmd a syn) := by
  unfold State.demandUe
  simp only
  split
  · exact (State.freezeStack_reads _ _ _ _ _ _).trans (State.rowWear_reads _ _ _)
  · have h : s.ReadsTo (s.poisonWord a) := ⟨_, _, _, _, _, _, _, rfl⟩
    exact ((h.trans (State.raiseFree_reads _ _ _ _)).trans (State.rowWear_reads _ _ _)).trans (State.usePoison_reads _ _ _ _)

theorem State.poisonRead_reads (s : State) (u : Use) (a : Nat) : s.ReadsTo (s.poisonRead u a) :=
  (State.raiseFree_reads _ _ _ _).trans (State.usePoison_reads _ _ _ _)

theorem State.correctable_reads (s : State) (a bit : Nat) : s.ReadsTo (s.correctable a bit) := by
  obtain ⟨_, _, _, _, h⟩ := s.correctable_frame a bit
  rw [h]; exact ⟨_, _, _, _, _, _, _, rfl⟩

/-- A word read and checked. -/
theorem State.readCheck_reads (s : State) (u : Use) (cmd : Trans) (a : Nat) (e : DramErr) : s.ReadsTo (s.readCheck u cmd a e) := by
  have h0 : s.ReadsTo (if e.sev then s.count 0x0704 1 Ev.dev else s) := by
    split
    · exact ⟨_, _, _, _, _, _, _, rfl⟩
    · exact .refl s
  unfold State.readCheck
  simp only
  generalize (if e.sev then s.count 0x0704 1 Ev.dev else s) = s1 at h0 ⊢
  have hf : s.ReadsTo (if 3 ≤ (s1.wrongBits (a / 32) e).length then s1.fresh else (0, s1)).2 := by
    refine h0.trans ?_
    split
    · exact ⟨_, _, _, _, _, _, _, rfl⟩
    · exact .refl s1
  generalize (if 3 ≤ (s1.wrongBits (a / 32) e).length then s1.fresh else (0, s1)) = f at hf ⊢
  split
  · exact hf.trans (State.demandUe_reads _ _ _ _ _)
  · split
    · exact hf.trans ((State.correctable_reads _ _ _).trans (State.poisonRead_reads _ _ _))
    · exact hf.trans (State.correctable_reads _ _ _)
  · split
    · exact h0.trans (State.poisonRead_reads _ _ _)
    · exact h0

theorem State.checkWords_reads (s : State) (u : Use) (b cls a n : Nat) : s.ReadsTo (s.checkWords u b cls a n) :=
  State.ReadsTo.foldl _ (fun _ _ => State.readCheck_reads _ _ _ _ _) _ s

theorem State.readRefs_frame (s : State) (h : Hdr) (refs : List (DRef × Bool)) : s.ReadsTo (s.readRefs h refs) := by
  refine State.ReadsTo.foldl _ (fun s r => ?_) refs s
  split
  · exact State.checkWords_reads _ _ _ _ _ _
  · exact .refl s

/-! ## Commands of a tap -/

/-- A tap command is not taken and changes nothing, or posts the status of a failed check at its grid time, before or after the reads of its data
blocks, or settles its own part there. -/
theorem State.runCmd_cases (s : State) (h : Hdr) (op : Nat) (refs : List (DRef × Bool)) (out : Option DRef) (own : State → Res)
    (len : List (State → Bool)) :
    s.runCmd h op refs out own len = s ∨
    (∃ st, s.runCmd h op refs out own len = (s.at_ h.t).post h.tap ⟨h.seq, st, 0, op, h.target, 0, []⟩ []) ∨
    (∃ st, s.runCmd h op refs out own len = ((s.at_ h.t).readRefs h refs).post h.tap ⟨h.seq, st, 0, op, h.target, 0, []⟩ []) ∨
    s.runCmd h op refs out own len = State.settle h op (own ((s.at_ h.t).readRefs h refs)) out := by
  unfold State.runCmd
  simp only
  split
  · exact .inl rfl
  · right
    split
    · exact .inl ⟨_, rfl⟩
    · split
      · exact .inl ⟨_, rfl⟩
      · split
        · exact .inl ⟨_, rfl⟩
        · split
          · exact .inl ⟨_, rfl⟩
          · split
            · exact .inl ⟨_, rfl⟩
            · split
              · exact .inl ⟨_, rfl⟩
              · split
                · exact .inr (.inl ⟨_, rfl⟩)
                · exact .inr (.inr rfl)

/-- A tap command whose own part keeps the queue of commands keeps it. -/
theorem State.runCmd_pending (s : State) (h : Hdr) (op : Nat) (refs : List (DRef × Bool)) (out : Option DRef) (own : State → Res)
    (len : List (State → Bool)) (ho : ∀ s : State, (own s).s.pending = s.pending) :
    (s.runCmd h op refs out own len).pending = s.pending := by
  have hr : ((s.at_ h.t).readRefs h refs).pending = s.pending := by
    obtain ⟨_, _, _, _, _, _, _, f⟩ := (s.at_ h.t).readRefs_frame h refs
    rw [f]; simp
  rcases s.runCmd_cases h op refs out own len with e | ⟨st, e⟩ | ⟨st, e⟩ | e
  · rw [e]
  · rw [e]; simp
  · rw [e]; simp [hr]
  · obtain ⟨_, _, _, _, _, _, _, _, f⟩ := State.settle_frame h op (own ((s.at_ h.t).readRefs h refs)) out
    rw [e, f]; simp [ho, hr]

/-! ## Cellar links (R418 to R426) -/

theorem State.sendFlit_frame (s : State) (p : Nat) (f : Flit) : ∃ x u, s.sendFlit p f = { s with flt := x, out := u } := by
  unfold State.sendFlit; simp only; split <;> exact ⟨_, _, rfl⟩

theorem State.pump_frame (s : State) (p n : Nat) : ∃ c x u, s.pump p n = { s with cellar := c, flt := x, out := u } := by
  induction n generalizing s with
  | zero => exact ⟨_, _, _, rfl⟩
  | succ n ih =>
    unfold State.pump
    simp only
    split
    · exact ⟨_, _, _, rfl⟩
    · split
      · exact ⟨_, _, _, rfl⟩
      · next f _ =>
        obtain ⟨c, h1⟩ := s.setPort_frame p _
        rw [h1]
        obtain ⟨x, u, h2⟩ := State.sendFlit_frame { s with cellar := c } p _
        rw [h2]
        obtain ⟨c', x', u', h3⟩ := ih { s with cellar := c, flt := x, out := u }
        exact ⟨c', x', u', h3⟩

theorem State.queueFlits_frame (s : State) (p : Nat) (l : List Flit) : ∃ c x u, s.queueFlits p l = { s with cellar := c, flt := x, out := u } := by
  unfold State.queueFlits
  simp only
  split
  · exact ⟨_, _, _, rfl⟩
  · split
    · obtain ⟨c, h1⟩ := s.setPort_frame p { s.port p with late := (s.port p).late ++ l }
      exact ⟨c, _, _, h1⟩
    · obtain ⟨c, h1⟩ := s.setPort_frame p { s.port p with txq := (s.port p).txq ++ l }
      rw [h1]
      obtain ⟨c', x', u', h3⟩ := State.pump_frame { s with cellar := c } p ((s.port p).txq.length + l.length)
      exact ⟨c', x', u', h3⟩

theorem State.sendMsg_frame (s : State) (p dest vl mtype : Nat) (body : List Byte) :
    ∃ c x u, s.sendMsg p dest vl mtype body = { s with cellar := c, flt := x, out := u } := s.queueFlits_frame p _

/-! ## Hardware queues (R338 to R341) -/

theorem State.queueSignal_frame (s : State) (b q : Nat) : ∃ i c, s.queueSignal b q = { s with irq := i, ctrs := c } := by
  unfold State.queueSignal; split
  · exact s.signal_frame _
  · exact ⟨_, _, rfl⟩

theorem State.onQueue_frame (s : State) (b q : Nat) (f : QCount → QCount) : ∃ c x, s.onQueue b q f = { s with sched := c, batches := x } := by
  unfold State.onQueue
  split
  · exact ⟨_, _, rfl⟩
  · obtain ⟨x, h⟩ := s.onBatch_frame b (fun x => { x with qs := upd ⟨0, 0, 0⟩ x.qs q f })
    exact ⟨_, x, h⟩

theorem State.enqueue_frame (s : State) (j : Job) : ∃ c b i k, s.enqueue j = { s with sched := c, batches := b, irq := i, ctrs := k } := by
  unfold State.enqueue
  split
  · exact ⟨_, _, _, _, rfl⟩
  · split
    · exact ⟨_, _, _, _, rfl⟩
    · simp only
      obtain ⟨c, b, h⟩ := State.onQueue_frame { s with sched := { s.sched with ready := s.sched.ready ++ [j] } } j.b j.queue
        (fun c => { c with enq := c.enq + 1 })
      rw [h]
      obtain ⟨i, k, h'⟩ := State.queueSignal_frame { s with sched := c, batches := b } j.b j.queue
      exact ⟨c, b, i, k, h'⟩

theorem State.postEvent_frame (s : State) (b prio type : Nat) (body : List Byte) :
    ∃ c x i k, s.postEvent b prio type body = { s with sched := c, batches := x, irq := i, ctrs := k } := by
  unfold State.postEvent
  split
  · exact ⟨_, _, _, _, rfl⟩
  · split
    · exact s.enqueue_frame _
    · obtain ⟨c, x, h⟩ := s.onQueue_frame b 0 (fun c => { c with enq := c.enq + 1, deq := c.deq + 1 })
      exact ⟨c, x, _, _, by rw [h]; rfl⟩

end Sys2Proof.Machine
end

