-- ==== Sys2Proof/Tests/Slice0.lean ====
section
/-! SUPPORT. Tests: ill-formed commands that the check refuses, the manual's worked examples, words of pattern instructions, single steps,
and for every statement about hypotheses a state and operands that meet them. -/



namespace Sys2Proof.Tests
open Sys2Proof Sys2Proof.Machine

/- One proof after another: a hundred kernel evaluations at once would each hold a thread. -/
set_option Elab.async false

def b1 : Batch := Batch.new 4
def s0 : State := { State.reset with
  boot := { Boot.zero with ready := true }, pwr := { Power.zero with on := 2 ^ 52 - 1 }
  tb := { TimeBase.zero with locked := true, epochValid := true }
  batches := [(1, b1)], sliceOwner := [(0, 1)], busOwner := [(0, 1)], acqOwner := [(0, 1)], clkOwner := [(0, 1)]
  trigOutOwner := [(0, 1)], trigInOwner := [(0, 1)], dram := { State.reset.dram with owner := [(0, 1)] } }
def TDCI : Tab CalItem := [(0x2020, { CalItem.zero with state := 1 }), (0x2021, { CalItem.zero with state := 1 })]
def h0 : Hdr := ⟨0, 5, 1, false, false, false, [], 0⟩
def hs : Hdr := ⟨1, 5, 1, false, false, false, [], 1000⟩
def hist0 (d : List (Option NetSrc)) (n : Option NetSrc) : Hist := ⟨5, 0, none, [], d, n⟩
def cpl0 : Cpl := ⟨5, 0, 0, 1, 0, 0, []⟩
def d0 : DRef := ⟨0, 4096, false, false⟩
def BCAL : BootCal := ⟨0, 0, 0, 0, List.replicate 64 (List.replicate 128 8192, List.replicate 128 8192), []⟩
def HT : Tdc := { Tdc.zero with hist := (List.range 128).map (fun i => (i, 8192)), since := some 0 }
def HU : Tdc := { Tdc.zero with hist := [(0, 4095), (1, 12289)] ++ (List.range 126).map (fun i => (i + 2, 8192)), since := some 0 }
def GU : Gather := ⟨0x1000, none, (List.range 64).map (fun i => (i, ⟨256, 0, 0, 0, 0⟩))⟩
def GSUM : Tab FitSum := (List.range 64).map (fun k =>
  let a := 256 * (k % 4)
  let b := a + 255
  (k, ⟨256, 128 * (a + b + 128), 128 * 500000 * (a + b), 128 * ((a + 64) * (a + 64) + (b + 64) * (b + 64)),
    128 * 500000 * (a * (a + 64) + b * (b + 64))⟩))
/-- An image that verifies. -/
def img0 : Image := ⟨false, 0x5951494D, 1, 1, 3, 4, 468, 0x0512, 0xA1, 0xA1, 100, true, true, true, true, [], List.replicate 1024 0, [], 4, 0, 100, 0⟩
def outS (o : Host.Outcome State Fault Refusal) : State := match o with
  | .next u => u
  | _ => State.reset

/-- A run whose only bus turns idle is on no bus. -/
theorem onBus_of_idle (s : State) (n : Nat) {z : Bus} (r : PeRun) (h1 : z.run = none) (h2 : z.queue = [])
    (h : (decide (s.buses.length = 1) && s.buses.all (fun p => p.1 == n)) = true) : (s.setBus n z).onBus r = false := by
  simp only [Bool.and_eq_true, decide_eq_true_eq] at h
  obtain ⟨p, hp⟩ := List.length_eq_one_iff.1 h.1
  obtain ⟨k, y⟩ := p
  have hk : k = n := by simpa [hp] using h.2
  subst hk
  unfold State.onBus State.setBus
  by_cases hz : z = Bus.zero <;> simp [hp, Tab.set, Tab.del, Tab.ins, hz]
  simp [h1, h2]


/-! ## Well-formed commands (the checks of WellFormed.lean) -/

def wh : Hdr := ⟨0, 1, 1, false, false, false, [], 0⟩
def wd : DRef := ⟨0, 64, false, false⟩
def wa : Audit := ⟨[0, 0, 0, 0], [0, 0, 0, 0], [0, 0, 0, 0], [0, 0, 0, 0], [0, 0, 0, 0]⟩
def wi : Image := ⟨false, 0, 1, 1, 1, 1, 0, 0, 0, 0, 0, true, true, true, true, [], [], [], 0, 0, 0, 0⟩
def wb : BootCal := ⟨0, 0, 0, 0, List.replicate 64 (List.replicate 128 0, List.replicate 128 0), []⟩
def wn : Announce := ⟨1, 0, 0, 0, 0, 0, 0, 1, 0, []⟩
def wAssign : AssignP := ⟨1, 1, 0, 1, 1⟩
def wCal : CalRunP := ⟨1, 1, 1, ⟨1, 0, 1⟩, ⟨0, 0⟩, wd⟩
def wSeg : SegMapP := ⟨1, 1, 1, 1, 1, 1, wd⟩
def wSite : SiteDefP := ⟨1, 1, 1, 1, wd⟩
def wStart : StartP := ⟨⟨0, 0⟩, 1, 1, 1, false⟩
def wSnap : SnapP := ⟨1, 1, 1, ⟨0, 0⟩, 1, wd⟩
def wAcq : AcqCfg := ⟨1, 1, 1, 1, 0, 0, 0, 0, 0, 0, 0, 0, 0, 0, 0, 0, 0⟩
def wArm : AcqArmP := ⟨1, false, false, 1, 1, 1, 1, 1⟩
def wStage : StageP := ⟨1, 1, false, false, 1, 1, wd⟩
def wCommit : CommitP := ⟨1, 1, 1, 1, ⟨0, 0⟩⟩
def wClk : ClkP := ⟨1, 1, 1, 1, ⟨0, 0⟩⟩

/-- Commands whose operands fit their fields are well formed. -/
theorem test_wf_takes_1 : List.all [
    .ident wh, .batchDestroy wh, .imageStatus wh, .stop wh, .batchCreate wh 1, .batchDestroyDone 1 1, .assign wh wAssign, 
    .granuleClearDone 1 1, .power wh 1 1, .rack wh 1 1 1, .rackDone 1 1, .repairMapCommit wh 1, .repairMapCommitDone 1 1, 
    .faultRead wh 1 1 wd, .faultClear wh 1, .timeSet wh 1 0 ⟨0, 0⟩, .ptpConfig wh 1 1 1 1 0, .calRun wh wCal, .calStatus wh 1 wd, 
    .peScriptLoad wh 1 1 1 wd, .inject wh 1 1, .wakeBudget wh 1, .tsLoad wh wd, .status wh wd, .flowLoad wh wd, .tsInvalidate wh 1, 
    .patLoad wh wd wd, .segMap wh wSeg, .siteDefine wh wSite, .levels wh 0 1 1 wd, .start wh wStart, .snapshot wh wSnap, 
    .failRead wh 1 false wd, .acqConfig wh wAcq, .acqArm wh wArm, .measRead wh 1 1 1 wd, .streamOpen wh 1 1 1 wd, 
    .counterSelect wh 1 1 1 1, .stage wh wStage, .commit wh wCommit, .clockOut wh wClk, .trigConfig wh 1 1 1 1, .cancel wh 1, 
    .periodLoad wh 1 1 ⟨1, 0, 1⟩, .nop 1, .endl 1, .batchRunBegin 1, .vectorHandover 1, .vectorBegin 1, .failMemoryWrite 1, 
    .markPost 1, .spargeDeadline 1, .batchStop 1 1, .acquireTimeout 1 1, .datalogFrameSend 1 1, .addressResolutionRetry 1 1, 
    .addressResolutionReply 1, .vec 1 1 1, .rpt 1 1, .loop 1 1, .call 1 ⟨false, 0⟩ 1, .ret 1 ⟨false, 0⟩, .jmp 1 ⟨false, 0⟩ 1, 
    .matchBlock 1 1 1 1, .tset 1 1, .per 1 1, .waitt 1 false 1, .sync 1 1 1 1, .trig 1 1, .mark 1 1
    ] Instr.wf = true := by decide +kernel

/-- Commands whose operands fit their fields are well formed. -/
theorem test_wf_takes_2 : List.all [
    .flag 1 1 1, .sitemask 1 1, .peact 1 1 1, .halt 1 ⟨false, 0⟩, .edgeFire 1 1, .compareDecision 1 1 [], 
    .consensusDecision 1 [] false [], .syncReport 1 ⟨0, 1⟩ 1 1 1 ⟨0, 0, 1⟩ 1, .syncTimeout 1 1, .spargeFetchDone 1 1, 
    .fillWrite 1 1 1, .peScriptDone 1 ⟨[], none⟩ 1, .peBusFault 1 1, .scriptSettleEnd 1 1, .trigInEdge 1 false 1, .flowPinStart 1 1, 
    .jobDispatch 1 1, .jobComplete 1 1, .delayTick 1, .maltsterTimer 1, .tapModeChange 1, .enumTimeout 1, .pwrfailWarning 1, 
    .pwrfailReturn 1, .thermalShutdown 1, .powerOnReset, .coldReset, .railLoss, .pcieFundamentalReset, .bwLoad false false, 
    .retClear, .ptpStatRead, .syncLeadRead, .refinLoss 1, .xtalLoss 1, .refinOkSet 1, .holdoverBuildOut 1, .refinReturn 1, 
    .buildOutDone 1, .pllUnlock 1, .errornStuck 1, .wakeSlot 1, .faultWindowClose 1, .pcieAer 1, .calRunDone 1, 
    .datalogConsumedWrite 1 1, .irqSignal 1, .irqClaim 1, .irqComplete 1 1, .msixUnmask 1 1, .tapDoorbellWrite 1 1, 
    .cplHeadWrite 1 1, .commandTake 1, .commandDispatch 1 1, .tapFrameRx ⟨⟨0, 1, 1⟩, 6502⟩ [], .seqQuery ⟨⟨0, 1, 1⟩, 6502⟩ 1, 
    .ethFrameDrop 1, .linkTrainRetry 1, .flitCrcFail 1, .linkBadFlit 1, .arpRequest 1 ⟨1, false, 1⟩, .icmpEcho 1 ⟨1, false, 1⟩ [], 
    .ptpSyncRx ⟨0, 1, 1, 1, false, 0, 0, true, 0⟩ 0, .ptpFollowUpRx ⟨0, 1, 1, 1, false, 0, 0, true, 0⟩, 
    .ptpDelayRespRx ⟨0, 1, 1, 1, false, 0, 0, true, 0⟩, .tcForward ⟨0, 1, 1, 1, false, 0, 0, true, 0⟩ 1 0 0, .ptpAnnounceRx 1 wn, 
    .delayReqSend 0, .tcEntryExpiry 1 1 ⟨0, 0⟩, .ethLinkDown 1 1
    ] Instr.wf = true := by decide +kernel

/-- Commands whose operands fit their fields are well formed. -/
theorem test_wf_takes_3 : List.all [
    .ethFecUncorr 1 1, .replayTimeout 1 1, .nakRepeat 1 1, .syncFlitSend 1 1, .linkRetrain 1 1, .linkDown 1 1, 
    .linkRetrainDone 1 1 ⟨none, []⟩, .linkUp ⟨0, []⟩, .flitRxData 1 ⟨1, 0, 0, false, 0, 0, 0, []⟩, .flitRxAck 1 1 [], 
    .flitRxNak ⟨0, none⟩ 1, .syncFlitRx ⟨0, none⟩ 1 1 0 1, .enumRx ⟨0, none⟩ 1, .auditRx ⟨0, none⟩ (some wa) (some wa) 1, 
    .stagingDeadline 1 1, .commitInstant 1 1, .commitApply 1 1, .commitAbortRx 1 1, .commitVerdictRx 1 1 1 1, 
    .startUp wi false false wb 1, .warmReset ⟨wi, wb⟩ 1, .functionLevelReset 1, .bwLoadDone wi false wb 1, .refselWrite 1, 
    .todfollowWrite false 1, .refadjWrite 0 1, .ageadjWrite 0 1, .gsTargetWrite 0 1, .gridScaleStep 1 1, .pllLock 1, 
    .syncInPulse 1 false 1, .clockOutAction 1 1, .devtimeRead 1 1, .cntLoRead 1 1, .cntOvfClear 1 1, .registerWrite 1 1 1 1, 
    .bar2Access 1 1 false [] 1, .outputShort 1 1, .contention 1 1, .brokenReport 1 1 1, .autoracked 1 1, .wakeRampEnd 1 1, 
    .wakeFail 1 1, .idlePark 1 1, .dramRequest 1 1 1 1 (.read 1) 1, .dramReadReturn 1 ⟨[], 0⟩ 1, .patrolScrub 1 ⟨[], 0, false⟩ 1, 
    .dramParityAlert 1 1 1 1, .refreshDue 1 1 false, .trackingStep 1 1 1 false 1, .tempRetrain 1 1, .stackRetrainDone 1 [] 1, 
    .stackTemperatureReading 1 0 1, .stackClearDone ⟨0, []⟩ 1, .sliceTempReading 1 0 1, .calIntervalDue 1 1 1, 
    .calMeasurementDone 1 (.hist) false 1, .tdcHistogramTimeout ⟨0, 0⟩, .reserveSeqCheck 1 false 1, 
    .paceWindowEnd (List.replicate 50 0) 1, .faultReport 1 1 1 1 1, .cellarFaultMsg 1 1 1, .peerLost 1 1 1, 
    .tdcStamp 1 false false 1, .tdcBlindEnd 1 false false false 1, .triggerQualification 1 1, .recordWrite 1 1, 
    .boundaryScanInstruction 1 false 1, .fixtureWrite 1 1 0
    ] Instr.wf = true := by decide +kernel

/-- One operand past its field: the check refuses each of these commands. -/
theorem test_wf_refuses_1 : List.all [
    .ident ({ wh with seq := 2 ^ 32 }), .batchDestroy ({ wh with seq := 2 ^ 32 }), .imageStatus ({ wh with seq := 2 ^ 32 }), 
    .stop ({ wh with seq := 2 ^ 32 }), .batchCreate ({ wh with seq := 2 ^ 32 }) 1, .batchCreate wh (2 ^ 8), .batchDestroyDone 0 1, 
    .batchDestroyDone 17 1, .assign ({ wh with seq := 2 ^ 32 }) wAssign, .assign wh ({ wAssign with op := 2 ^ 8 }), 
    .assign wh ({ wAssign with rtype := 2 ^ 8 }), .assign wh ({ wAssign with weight := 2 ^ 8 }), 
    .assign wh ({ wAssign with index := 2 ^ 32 }), .assign wh ({ wAssign with count := 2 ^ 32 }), .granuleClearDone 32768 1, 
    .power ({ wh with seq := 2 ^ 32 }) 1 1, .power wh (2 ^ 8) 1, .power wh 1 (2 ^ 8), .rack ({ wh with seq := 2 ^ 32 }) 1 1 1, 
    .rack wh (2 ^ 8) 1 1, .rack wh 1 (2 ^ 16) 1, .rack wh 1 1 (2 ^ 32), .rackDone (2 ^ 3) 1, 
    .repairMapCommit ({ wh with seq := 2 ^ 32 }) 1, .repairMapCommit wh (2 ^ 8), .repairMapCommitDone (2 ^ 3) 1, 
    .faultRead ({ wh with seq := 2 ^ 32 }) 1 1 wd, .faultRead wh (2 ^ 16) 1 wd, .faultRead wh 1 (2 ^ 16) wd, 
    .faultRead wh 1 1 ({ wd with len := 2 ^ 32 }), .faultClear ({ wh with seq := 2 ^ 32 }) 1, .faultClear wh (2 ^ 16), 
    .timeSet ({ wh with seq := 2 ^ 32 }) 1 0 ⟨0, 0⟩, .timeSet wh (2 ^ 8) 0 ⟨0, 0⟩, .timeSet wh 1 (2 ^ 63) ⟨0, 0⟩, 
    .timeSet wh 1 0 ⟨2 ^ 64, 0⟩, .ptpConfig ({ wh with seq := 2 ^ 32 }) 1 1 1 1 0, .ptpConfig wh (2 ^ 8) 1 1 1 0, 
    .ptpConfig wh 1 (2 ^ 8) 1 1 0, .ptpConfig wh 1 1 (2 ^ 8) 1 0
    ] (fun i => !Instr.wf i) = true := by decide +kernel

/-- One operand past its field: the check refuses each of these commands. -/
theorem test_wf_refuses_2 : List.all [
    .ptpConfig wh 1 1 1 (2 ^ 8) 0, .ptpConfig wh 1 1 1 1 (2 ^ 63), .calRun ({ wh with seq := 2 ^ 32 }) wCal, 
    .calRun wh ({ wCal with mode := 2 ^ 8 }), .calRun wh ({ wCal with n := 2 ^ 16 }), .calRun wh ({ wCal with calint := 2 ^ 32 }), 
    .calRun wh ({ wCal with pref := ⟨1, 0, 65536⟩ }), .calRun wh ({ wCal with t0 := ⟨2 ^ 64, 0⟩ }), 
    .calRun wh ({ wCal with data := { wd with len := 2 ^ 32 } }), .calStatus ({ wh with seq := 2 ^ 32 }) 1 wd, 
    .calStatus wh (2 ^ 16) wd, .calStatus wh 1 ({ wd with len := 2 ^ 32 }), .peScriptLoad ({ wh with seq := 2 ^ 32 }) 1 1 1 wd, 
    .peScriptLoad wh (2 ^ 16) 1 1 wd, .peScriptLoad wh 1 (2 ^ 16) 1 wd, .peScriptLoad wh 1 1 (2 ^ 32) wd, 
    .peScriptLoad wh 1 1 1 ({ wd with len := 2 ^ 32 }), .inject ({ wh with seq := 2 ^ 32 }) 1 1, .inject wh (2 ^ 16) 1, 
    .inject wh 1 (2 ^ 16), .wakeBudget ({ wh with seq := 2 ^ 32 }) 1, .wakeBudget wh (2 ^ 16), 
    .tsLoad ({ wh with seq := 2 ^ 32 }) wd, .tsLoad wh ({ wd with len := 2 ^ 32 }), .status ({ wh with seq := 2 ^ 32 }) wd, 
    .status wh ({ wd with len := 2 ^ 32 }), .flowLoad ({ wh with seq := 2 ^ 32 }) wd, .flowLoad wh ({ wd with len := 2 ^ 32 }), 
    .tsInvalidate ({ wh with seq := 2 ^ 32 }) 1, .tsInvalidate wh (2 ^ 8), .patLoad ({ wh with seq := 2 ^ 32 }) wd wd, 
    .patLoad wh ({ wd with len := 2 ^ 32 }) wd, .patLoad wh wd ({ wd with len := 2 ^ 32 }), .segMap ({ wh with seq := 2 ^ 32 }) wSeg, 
    .segMap wh ({ wSeg with segid := 2 ^ 16 }), .segMap wh ({ wSeg with mode := 2 ^ 8 }), .segMap wh ({ wSeg with peridx := 2 ^ 8 }), 
    .segMap wh ({ wSeg with trig := 2 ^ 8 }), .segMap wh ({ wSeg with length := 2 ^ 40 }), 
    .segMap wh ({ wSeg with ringgran := 2 ^ 32 })
    ] (fun i => !Instr.wf i) = true := by decide +kernel

/-- One operand past its field: the check refuses each of these commands. -/
theorem test_wf_refuses_3 : List.all [
    .segMap wh ({ wSeg with data := { wd with len := 2 ^ 32 } }), .siteDefine ({ wh with seq := 2 ^ 32 }) wSite, 
    .siteDefine wh ({ wSite with blimit := 2 ^ 32 }), .siteDefine wh ({ wSite with fmcap := 2 ^ 32 }), 
    .siteDefine wh ({ wSite with matchDelay := 2 ^ 16 }), .siteDefine wh ({ wSite with tpe := 2 ^ 32 }), 
    .siteDefine wh ({ wSite with data := { wd with len := 2 ^ 32 } }), .levels ({ wh with seq := 2 ^ 32 }) 0 1 1 wd, 
    .levels wh (2 ^ 31) 1 1 wd, .levels wh 0 (2 ^ 32) 1 wd, .levels wh 0 1 (2 ^ 16) wd, .levels wh 0 1 1 ({ wd with len := 2 ^ 32 }), 
    .start ({ wh with seq := 2 ^ 32 }) wStart, .start wh ({ wStart with t := ⟨2 ^ 64, 0⟩ }), 
    .start wh ({ wStart with dmask := 2 ^ 64 }), .start wh ({ wStart with cmgrp := 2 ^ 128 }), 
    .start wh ({ wStart with syncgrp := 2 ^ 8 }), .snapshot ({ wh with seq := 2 ^ 32 }) wSnap, 
    .snapshot wh ({ wSnap with when_ := 2 ^ 8 }), .snapshot wh ({ wSnap with sect := 2 ^ 5 }), 
    .snapshot wh ({ wSnap with vnum := 2 ^ 64 }), .snapshot wh ({ wSnap with time := ⟨2 ^ 64, 0⟩ }), 
    .snapshot wh ({ wSnap with cmask := 2 ^ 256 }), .snapshot wh ({ wSnap with data := { wd with len := 2 ^ 32 } }), 
    .failRead ({ wh with seq := 2 ^ 32 }) 1 false wd, .failRead wh (2 ^ 32) false wd, 
    .failRead wh 1 false ({ wd with len := 2 ^ 32 }), .acqConfig ({ wh with seq := 2 ^ 32 }) wAcq, 
    .acqConfig wh ({ wAcq with acq := 2 ^ 8 }), .acqConfig wh ({ wAcq with ttype := 2 ^ 8 }), 
    .acqConfig wh ({ wAcq with tsel := 2 ^ 8 }), .acqConfig wh ({ wAcq with flags := 2 ^ 8 }), 
    .acqArm ({ wh with seq := 2 ^ 32 }) wArm, .acqArm wh ({ wArm with acq := 2 ^ 8 }), .acqArm wh ({ wArm with level := 2 ^ 2 }), 
    .acqArm wh ({ wArm with script := 2 ^ 16 }), .acqArm wh ({ wArm with nrec := 2 ^ 32 }), 
    .acqArm wh ({ wArm with codeLo := 2 ^ 16 }), .acqArm wh ({ wArm with codeHi := 2 ^ 16 }), 
    .measRead ({ wh with seq := 2 ^ 32 }) 1 1 1 wd
    ] (fun i => !Instr.wf i) = true := by decide +kernel

/-- One operand past its field: the check refuses each of these commands. -/
theorem test_wf_refuses_4 : List.all [
    .measRead wh (2 ^ 8) 1 1 wd, .measRead wh 1 (2 ^ 8) 1 wd, .measRead wh 1 1 (2 ^ 32) wd, 
    .measRead wh 1 1 1 ({ wd with len := 2 ^ 32 }), .streamOpen ({ wh with seq := 2 ^ 32 }) 1 1 1 wd, .streamOpen wh (2 ^ 16) 1 1 wd, 
    .streamOpen wh 1 (2 ^ 8) 1 wd, .streamOpen wh 1 1 (2 ^ 64) wd, .streamOpen wh 1 1 1 ({ wd with len := 2 ^ 32 }), 
    .counterSelect ({ wh with seq := 2 ^ 32 }) 1 1 1 1, .counterSelect wh (2 ^ 8) 1 1 1, .counterSelect wh 1 (2 ^ 8) 1 1, 
    .counterSelect wh 1 1 (2 ^ 16) 1, .counterSelect wh 1 1 1 (2 ^ 32), .stage ({ wh with seq := 2 ^ 32 }) wStage, 
    .stage wh ({ wStage with group := 2 ^ 8 }), .stage wh ({ wStage with kind := 2 ^ 8 }), 
    .stage wh ({ wStage with epoch := 2 ^ 32 }), .stage wh ({ wStage with index := 2 ^ 16 }), 
    .stage wh ({ wStage with data := { wd with len := 2 ^ 32 } }), .commit ({ wh with seq := 2 ^ 32 }) wCommit, 
    .commit wh ({ wCommit with group := 2 ^ 8 }), .commit wh ({ wCommit with bmask := 2 ^ 16 }), 
    .commit wh ({ wCommit with epoch := 2 ^ 32 }), .commit wh ({ wCommit with dmask := 2 ^ 64 }), 
    .commit wh ({ wCommit with t := ⟨2 ^ 64, 0⟩ }), .clockOut ({ wh with seq := 2 ^ 32 }) wClk, 
    .clockOut wh ({ wClk with output := 2 ^ 8 }), .clockOut wh ({ wClk with format := 2 ^ 8 }), 
    .clockOut wh ({ wClk with action := 2 ^ 8 }), .clockOut wh ({ wClk with freq := 2 ^ 64 }), 
    .clockOut wh ({ wClk with time := ⟨2 ^ 64, 0⟩ }), .trigConfig ({ wh with seq := 2 ^ 32 }) 1 1 1 1, .trigConfig wh (2 ^ 4) 1 1 1, 
    .trigConfig wh 1 (2 ^ 8) 1 1, .trigConfig wh 1 1 (2 ^ 8) 1, .trigConfig wh 1 1 1 (2 ^ 32), .cancel ({ wh with seq := 2 ^ 32 }) 1, 
    .cancel wh (2 ^ 32), .periodLoad ({ wh with seq := 2 ^ 32 }) 1 1 ⟨1, 0, 1⟩
    ] (fun i => !Instr.wf i) = true := by decide +kernel

/-- One operand past its field: the check refuses each of these commands. -/
theorem test_wf_refuses_5 : List.all [
    .periodLoad wh (2 ^ 8) 1 ⟨1, 0, 1⟩, .periodLoad wh 1 (2 ^ 2) ⟨1, 0, 1⟩, .periodLoad wh 1 1 ⟨1, 0, 65536⟩, .nop 0, .nop 17, 
    .endl 0, .endl 17, .batchRunBegin 0, .batchRunBegin 17, .vectorHandover 0, .vectorHandover 17, .vectorBegin 0, .vectorBegin 17, 
    .failMemoryWrite 0, .failMemoryWrite 17, .markPost 0, .markPost 17, .spargeDeadline 0, .spargeDeadline 17, .batchStop 0 1, 
    .batchStop 17 1, .acquireTimeout 0 1, .acquireTimeout 17 1, .datalogFrameSend 0 1, .datalogFrameSend 17 1, 
    .addressResolutionRetry 0 1, .addressResolutionRetry 17 1, .addressResolutionReply 0, .addressResolutionReply 17, .vec 0 1 1, 
    .vec 17 1 1, .vec 1 (2 ^ 16) 1, .vec 1 1 (2 ^ 32), .rpt 0 1, .rpt 17 1, .rpt 1 (2 ^ 40), .loop 0 1, .loop 17 1, .loop 1 (2 ^ 32), 
    .call 0 ⟨false, 0⟩ 1
    ] (fun i => !Instr.wf i) = true := by decide +kernel

/-- One operand past its field: the check refuses each of these commands. -/
theorem test_wf_refuses_6 : List.all [
    .call 17 ⟨false, 0⟩ 1, .call 1 ⟨false, 0⟩ (2 ^ 14), .call 1 ⟨false, 128⟩ 1, .ret 0 ⟨false, 0⟩, .ret 17 ⟨false, 0⟩, 
    .ret 1 ⟨false, 128⟩, .jmp 0 ⟨false, 0⟩ 1, .jmp 17 ⟨false, 0⟩ 1, .jmp 1 ⟨false, 0⟩ (2 ^ 14), .jmp 1 ⟨false, 128⟩ 1, 
    .matchBlock 0 1 1 1, .matchBlock 17 1 1 1, .matchBlock 1 (2 ^ 16) 1 1, .matchBlock 1 1 (2 ^ 24) 1, .matchBlock 1 1 1 (2 ^ 8), 
    .tset 0 1, .tset 17 1, .tset 1 (2 ^ 8), .per 0 1, .per 17 1, .per 1 (2 ^ 6), .waitt 0 false 1, .waitt 17 false 1, 
    .waitt 1 false (2 ^ 48), .sync 0 1 1 1, .sync 17 1 1 1, .sync 1 (2 ^ 32) 1 1, .sync 1 1 (2 ^ 16) 1, .trig 0 1, .trig 17 1, 
    .trig 1 (2 ^ 8), .mark 0 1, .mark 17 1, .mark 1 (2 ^ 16), .flag 0 1 1, .flag 17 1 1, .flag 1 (2 ^ 16) 1, .flag 1 1 (2 ^ 16), 
    .sitemask 0 1, .sitemask 17 1
    ] (fun i => !Instr.wf i) = true := by decide +kernel

/-- One operand past its field: the check refuses each of these commands. -/
theorem test_wf_refuses_7 : List.all [
    .sitemask 1 (2 ^ 8), .peact 0 1 1, .peact 17 1 1, .peact 1 (2 ^ 32) 1, .peact 1 1 (2 ^ 16), .halt 0 ⟨false, 0⟩, 
    .halt 17 ⟨false, 0⟩, .halt 1 ⟨false, 128⟩, .edgeFire 512 1, .edgeFire 1 3, .compareDecision 0 1 [], .compareDecision 17 1 [], 
    .compareDecision 1 32 [], .compareDecision 1 1 [⟨16, false, false, []⟩], .consensusDecision 0 [] false [], 
    .consensusDecision 17 [] false [], .consensusDecision 1 [⟨32, 0, 0⟩] false [], 
    .consensusDecision 1 [] false [⟨0, 1, 1, ⟨1, 0, 1⟩, 1, 0, 0⟩], .syncReport (2 ^ 8) ⟨0, 1⟩ 1 1 1 ⟨0, 0, 1⟩ 1, 
    .syncReport 1 ({ (⟨0, 1⟩ : SyncDev) with dev := 64 }) 1 1 1 ⟨0, 0, 1⟩ 1, .syncReport 1 ⟨0, 1⟩ 0 1 1 ⟨0, 0, 1⟩ 1, 
    .syncReport 1 ⟨0, 1⟩ 17 1 1 ⟨0, 0, 1⟩ 1, .syncReport 1 ⟨0, 1⟩ 1 (2 ^ 16) 1 ⟨0, 0, 1⟩ 1, 
    .syncReport 1 ⟨0, 1⟩ 1 1 (2 ^ 32) ⟨0, 0, 1⟩ 1, .syncReport 1 ⟨0, 1⟩ 1 1 1 ⟨0, 1, 1⟩ 1, .syncReport 1 ⟨0, 0⟩ 1 1 1 ⟨0, 0, 1⟩ 1, 
    .syncReport 1 ({ (⟨0, 1⟩ : SyncDev) with members := 17 }) 1 1 1 ⟨0, 0, 1⟩ 1, .syncTimeout (2 ^ 8) 1, .spargeFetchDone 0 1, 
    .spargeFetchDone 17 1, .spargeFetchDone 1 (2 ^ 16), .fillWrite 0 1 1, .fillWrite 17 1 1, .fillWrite 1 (2 ^ 16) 1, 
    .fillWrite 1 1 (2 ^ 64), .peScriptDone 16 ⟨[], none⟩ 1, .peScriptDone 1 ⟨[2 ^ 32], none⟩ 1, .peBusFault 16 1, 
    .scriptSettleEnd 16 1, .trigInEdge 8 false 1
    ] (fun i => !Instr.wf i) = true := by decide +kernel

/-- One operand past its field: the check refuses each of these commands. -/
theorem test_wf_refuses_8 : List.all [
    .flowPinStart 8 1, .jobDispatch 9 1, .jobComplete 9 1, .datalogConsumedWrite 0 1, .datalogConsumedWrite 17 1, 
    .datalogConsumedWrite 1 (2 ^ 64), .irqSignal (2 ^ 32), .irqClaim 10, .irqComplete 10 1, .irqComplete 1 (2 ^ 12), 
    .msixUnmask 17 1, .msixUnmask 1 4, .tapDoorbellWrite 17 1, .tapDoorbellWrite 1 (2 ^ 32), .cplHeadWrite 17 1, 
    .cplHeadWrite 1 (2 ^ 32), .commandTake 17, .commandDispatch 17 1, 
    .tapFrameRx ({ (⟨⟨0, 1, 1⟩, 6502⟩ : NetVia) with src.port := 2 }) [], 
    .tapFrameRx ({ (⟨⟨0, 1, 1⟩, 6502⟩ : NetVia) with dport := 2 ^ 16 }) [], .tapFrameRx ⟨⟨0, 1, 1⟩, 6502⟩ (List.replicate 9217 0), 
    .seqQuery ({ (⟨⟨0, 1, 1⟩, 6502⟩ : NetVia) with src.port := 2 }) 1, 
    .seqQuery ({ (⟨⟨0, 1, 1⟩, 6502⟩ : NetVia) with dport := 2 ^ 16 }) 1, .seqQuery ⟨⟨0, 1, 1⟩, 6502⟩ 17, .ethFrameDrop 2, 
    .linkTrainRetry 2, .flitCrcFail 2, .linkBadFlit 2, .arpRequest 2 ⟨1, false, 1⟩, .arpRequest 1 ⟨2 ^ 48, false, 1⟩, 
    .icmpEcho 2 ⟨1, false, 1⟩ [], .icmpEcho 1 ⟨2 ^ 48, false, 1⟩ [], .icmpEcho 1 ⟨1, false, 1⟩ (List.replicate 9217 0), 
    .ptpSyncRx ⟨2, 1, 1, 1, false, 0, 0, true, 0⟩ 0, .ptpFollowUpRx ⟨2, 1, 1, 1, false, 0, 0, true, 0⟩, 
    .ptpDelayRespRx ⟨2, 1, 1, 1, false, 0, 0, true, 0⟩, .tcForward ⟨2, 1, 1, 1, false, 0, 0, true, 0⟩ 1 0 0, 
    .tcForward ⟨0, 1, 1, 1, false, 0, 0, true, 0⟩ (2 ^ 4) 0 0, .ptpAnnounceRx 2 wn, .ptpAnnounceRx 1 ({ wn with src := 2 ^ 80 })
    ] (fun i => !Instr.wf i) = true := by decide +kernel

/-- One operand past its field: the check refuses each of these commands. -/
theorem test_wf_refuses_9 : List.all [
    .tcEntryExpiry (2 ^ 80) 1 ⟨0, 0⟩, .tcEntryExpiry 1 (2 ^ 16) ⟨0, 0⟩, 
    .tcEntryExpiry 1 1 ({ (⟨0, 0⟩ : TcEnd) with domain := 2 ^ 8 }), .ethLinkDown 2 1, .ethFecUncorr 2 1, .replayTimeout 2 1, 
    .nakRepeat 2 1, .syncFlitSend 2 1, .linkRetrain 2 1, .linkDown 2 1, .linkRetrainDone 2 1 ⟨none, []⟩, 
    .linkRetrainDone 1 1 ⟨some (2, 0), []⟩, .linkUp ({ (⟨0, []⟩ : PortUp) with port := 2 }), .linkUp ⟨0, [(5, 1)]⟩, 
    .flitRxData 2 ⟨1, 0, 0, false, 0, 0, 0, []⟩, .flitRxData 1 ⟨1, 4, 0, false, 0, 0, 0, []⟩, .flitRxAck 2 1 [], 
    .flitRxAck 1 (2 ^ 12) [], .flitRxAck 1 1 (List.replicate 5 0), .flitRxNak ⟨2, none⟩ 1, .flitRxNak ⟨0, none⟩ (2 ^ 12), 
    .syncFlitRx ⟨2, none⟩ 1 1 0 1, .syncFlitRx ⟨0, none⟩ 64 1 0 1, .enumRx ({ (⟨0, none⟩ : EnumFlit) with c := 64 }) 1, 
    .enumRx ⟨0, some 4096⟩ 1, .auditRx ⟨2, none⟩ (some wa) (some wa) 1, .auditRx ⟨0, none⟩ (some { wa with sent := [] }) (some wa) 1, 
    .auditRx ⟨0, none⟩ (some wa) (some { wa with accepted := [] }) 1, .stagingDeadline (2 ^ 8) 1, .commitInstant (2 ^ 8) 1, 
    .commitApply (2 ^ 8) 1, .commitAbortRx (2 ^ 8) 1, .commitVerdictRx (2 ^ 8) 1 1 1, .commitVerdictRx 1 64 1 1, 
    .commitVerdictRx 1 1 (2 ^ 16) 1, .startUp wi false false ({ wb with hists := [] }) 1, .warmReset ⟨wi, { wb with hists := [] }⟩ 1, 
    .functionLevelReset 17, .bwLoadDone wi false ({ wb with hists := [] }) 1, .refselWrite (2 ^ 2)
    ] (fun i => !Instr.wf i) = true := by decide +kernel

/-- One operand past its field: the check refuses each of these commands. -/
theorem test_wf_refuses_10 : List.all [
    .refadjWrite (2 ^ 31) 1, .ageadjWrite (2 ^ 31) 1, .gsTargetWrite (2 ^ 31) 1, .pllLock (2 ^ 6), .clockOutAction 8 1, 
    .devtimeRead 17 1, .cntLoRead 17 1, .cntLoRead 1 64, .cntOvfClear 17 1, .cntOvfClear 1 64, .registerWrite 17 1 1 1, 
    .registerWrite 1 (2 ^ 16) 1 1, .registerWrite 1 1 3 1, .registerWrite 1 1 1 (2 ^ 64), .bar2Access 17 1 false [] 1, 
    .bar2Access 1 (2 ^ 36) false [] 1, .bar2Access 1 1 false (List.replicate 4097 0) 1, .bar2Access 1 1 false [] 4097, 
    .outputShort (2 ^ 12) 1, .contention (2 ^ 12) 1, .brokenReport (2 ^ 12) 1 1, .autoracked (2 ^ 12) 1, .wakeRampEnd 52 1, 
    .wakeFail 52 1, .idlePark 52 1, .dramRequest 17 1 1 1 (.read 1) 1, .dramRequest 1 4 1 1 (.read 1) 1, 
    .dramRequest 1 1 (2 ^ 36) 1 (.read 1) 1, .dramRequest 1 1 1 1 (.read 0) 1, .dramReadReturn (2 ^ 36) ⟨[], 0⟩ 1, 
    .dramReadReturn 1 ⟨List.replicate 5 ⟨[], 0, false⟩, 0⟩ 1, .patrolScrub (2 ^ 36) ⟨[], 0, false⟩ 1, 
    .patrolScrub 1 ⟨[272], 0, false⟩ 1, .dramParityAlert 4 1 1 1, .dramParityAlert 1 32 1 1, .refreshDue 4 1 false, 
    .refreshDue 1 32 false, .trackingStep 4 1 1 false 1, .trackingStep 1 32 1 false 1, .tempRetrain 4 1
    ] (fun i => !Instr.wf i) = true := by decide +kernel

/-- One operand past its field: the check refuses each of these commands. -/
theorem test_wf_refuses_11 : List.all [
    .stackRetrainDone 4 [] 1, .stackTemperatureReading 4 0 1, .stackClearDone ⟨4, []⟩ 1, .sliceTempReading 32 0 1, 
    .calIntervalDue 32 1 1, .calIntervalDue 1 48 1, .calMeasurementDone 65536 (.hist) false 1, 
    .calMeasurementDone 1 (.refs 0 []) false 1, .tdcHistogramTimeout ({ (⟨0, 0⟩ : HistEnd) with item := 65536 }), 
    .reserveSeqCheck 4 false 1, .paceWindowEnd [] 1, .paceWindowEnd (List.replicate 50 65536) 1, .faultReport (2 ^ 12) 1 1 1 1, 
    .faultReport 1 (2 ^ 16) 1 1 1, .cellarFaultMsg 64 1 1, .cellarFaultMsg 1 (2 ^ 12) 1, .cellarFaultMsg 1 1 (2 ^ 16), 
    .peerLost 2 1 1, .peerLost 1 64 1, .tdcStamp 544 false false 1, .tdcBlindEnd 544 false false false 1, .triggerQualification 12 1, 
    .recordWrite 12 1, .boundaryScanInstruction (2 ^ 8) false 1, .fixtureWrite 512 1 0, .fixtureWrite 1 2 0
    ] (fun i => !Instr.wf i) = true := by decide +kernel

/-- The parts of a header, a data reference, a comparator report and a flit are each checked. -/
theorem test_wf_parts :
    List.all [({ wh with tap := 17 } : Hdr), { wh with target := 65536 }, { wh with inl := List.replicate 8961 0 }] (fun h => !Hdr.wf h) = true ∧
    DRef.wf { wd with addr := 2 ^ 64 } = false ∧ TPair.wf ⟨0, 2 ^ 64⟩ = false ∧ Per.wf ⟨2 ^ 40, 0, 1⟩ = false ∧ Per.wf ⟨1, 65536, 1⟩ = false ∧
    List.all [(⟨256, 0, 0, false, 0, 0, 0, []⟩ : Flit), ⟨1, 0, 4096, false, 0, 0, 0, []⟩, ⟨1, 0, 0, true, 4096, 0, 0, []⟩,
      ⟨1, 0, 0, false, 0, 0, 0, List.replicate 23 0⟩] (fun f => !Flit.wf f) = true ∧
    List.all [PInstr.tset 256, .per 64, .waitt true (2 ^ 48), .trig 256, .mark 65536, .sitemask 256, .ret ⟨true, 128⟩, .halt ⟨true, 128⟩]
      (fun p => !PInstr.wf p) = true := by decide +kernel

/-- The parts of an event that carry what the hardware measures or receives are each checked. -/
theorem test_wf_event_parts :
    Obs.wf ⟨16, false, false, []⟩ = false ∧
    List.all [(⟨0, 0, 1, ⟨1, 0, 1⟩, 1, 2 ^ 24, 0⟩ : BlockRep), ⟨0, 0, 1, ⟨1, 0, 1⟩, 1, 0, 65536⟩, ⟨0, 0, 1, ⟨2 ^ 40, 0, 1⟩, 1, 0, 0⟩,
      ⟨0, 0, 65536, ⟨1, 0, 1⟩, 1, 0, 0⟩] (fun r => !BlockRep.wf r) = true ∧
    List.all [CalRes.refs 0 [1], .loop 0 ⟨1, 0, 1⟩ [1], .loop 0 ⟨1, 0, 65536⟩ (List.replicate 4096 0)] (fun r => !CalRes.wf r) = true ∧
    List.all [{ wb with band := 64 }, { wb with band2 := 64 }, { wb with trim := 256 }, { wb with trim2 := 256 },
      { wb with hists := List.replicate 64 ([], []) }, { wb with eyes := [(8192, 1)] }, { wb with eyes := [(0, 65)] }]
      (fun m => !BootCal.wf m) = true ∧
    List.all [(DramOp.read 2, 96), (.read 5, 0), (.write [], 0), (.write [1, 2], 127)] (fun p => !DramOp.wf p.1 p.2) = true ∧
    List.all [(⟨[3, 3], 0, false⟩ : DramErr), ⟨[272], 0, false⟩, ⟨[], 32, false⟩] (fun e => !DramErr.wf e) = true ∧
    List.all [(⟨2 ^ 48, true, 0⟩ : EthReq), ⟨0, false, 2 ^ 32⟩, ⟨0, true, 2 ^ 128⟩] (fun r => !EthReq.wf r) = true ∧
    FlitFrom.wf ⟨0, some 4096⟩ = false ∧ List.all [[(5, 1)], [(16, 1)]] (fun l => !eyesWf l) = true ∧
    List.all [(⟨some (0, 4), []⟩ : Trained), ⟨none, [(7, 1)]⟩] (fun r => !Trained.wf r) = true := by decide +kernel

/-- Each field of a PTP message, of an Announce message and of what a DRAM read or a stack's training brings back is checked. -/
theorem test_wf_message_parts :
    List.all [(⟨0, 2 ^ 80, 0, 0, false, 0, 0, true, 0⟩ : PtpMsg), ⟨0, 0, 65536, 0, false, 0, 0, true, 0⟩, ⟨0, 0, 0, 256, false, 0, 0, true, 0⟩,
      ⟨0, 0, 0, 0, false, 0, 0, true, 65536⟩] (fun m => !PtpMsg.wf m) = true ∧
    List.all [{ wn with domain := 256 }, { wn with prio1 := 256 }, { wn with clockClass := 256 }, { wn with accuracy := 256 },
      { wn with variance := 65536 }, { wn with prio2 := 256 }, { wn with grandmaster := 2 ^ 64 }, { wn with steps := 65536 },
      { wn with lapsed := [(2, 0)] }, { wn with lapsed := [(0, 2 ^ 80)] }] (fun a => !Announce.wf a) = true ∧
    DramRet.wf ⟨[⟨[272], 0, false⟩], 0⟩ = false ∧ List.all [(⟨0, [(2048, 1)]⟩ : StackEnd), ⟨0, [(0, 65)]⟩] (fun e => !StackEnd.wf e) = true := by
  decide +kernel

/-! ## Worked examples of the manual (each test names the chapter it is taken from; results of the manual's own examples) -/

/-- A period of 4/3 ns: the starts after vectors 0, 1 and 2 (02_time_arithmetic.md). -/
theorem test_period_of_four_thirds :
    let p : Per := ⟨1333333, 1, 3⟩
    let a := (Acc.start 0 3).advance p
    a = ⟨1333333, 1, 3⟩ ∧ a.advance p = ⟨2666666, 2, 3⟩ ∧ (a.advance p).advance p = ⟨4000000, 0, 3⟩ := by decide

/-- Residue conversions, rows 1 to 5: the new residue, the carry into F, and err over D × D′ (02_time_arithmetic.md). -/
theorem test_residue_conversions :
    Acc.convert ⟨0, 2, 3⟩ 7 = (⟨0, 5, 7⟩, 1) ∧ Acc.convert ⟨0, 1, 4⟩ 2 = (⟨0, 0, 2⟩, -2) ∧ Acc.convert ⟨0, 3, 4⟩ 2 = (⟨1, 0, 2⟩, 2) ∧
    Acc.convert ⟨0, 4, 5⟩ 2 = (⟨1, 0, 2⟩, 2) ∧ Acc.convert ⟨0, 2, 6⟩ 3 = (⟨0, 1, 3⟩, 0) := by decide

/-- What those conversions add to RESERR (02_time_arithmetic.md). -/
theorem test_residue_errors :
    rhe (1 * 65536) 21 = 3121 ∧ rhe (-2 * 65536) 8 = -16384 ∧ rhe (2 * 65536) 8 = 16384 ∧ rhe (2 * 65536) 10 = 13107 ∧
    rhe (-65536) 6 = -10923 := by decide

/-- Unit interval 3 at M = 4 and its drive edge (02_time_arithmetic.md). -/
theorem test_unit_interval_three :
    Acc.ui ⟨1333333, 1, 3⟩ ⟨1333333, 1, 3⟩ 4 3 = (2333333, 4) ∧ quantise 2384099 4 12 = (19, 1193) := by decide

/-- A tie goes to the earlier position (02_time_arithmetic.md). -/
theorem test_tie :
    Acc.ui ⟨417000000, 417, 512⟩ ⟨1000000, 1, 512⟩ 8 1 = (417125000, 3337) ∧ quantise 417125003 3337 4096 = (3337, 0) := by decide +kernel

/-- Unit interval 5 at M = 8 with a rational period: the drive edge and the strobe (05_timing_sets.md). -/
theorem test_unit_interval_five :
    Acc.ui ⟨4666666, 2, 3⟩ ⟨666666, 2, 3⟩ 8 5 = (5083333, 8) ∧ quantise 5105043 8 24 = (40, 13768) ∧ quantise 5139333 8 24 = (41, 1879) := by
  decide +kernel

/-- Minimum lengths (03_vector_data.md). -/
theorem test_minimum_lengths :
    [(⟨500000, 0, 1⟩ : Per), ⟨1000000, 0, 1⟩, ⟨1333333, 1, 3⟩, ⟨7500000, 0, 1⟩, ⟨7499999, 0, 1⟩].map minLength = [960, 512, 384, 64, 128] := by
  decide +kernel

/-- Waiting 10 ns at a period of 4/3 ns, relative and absolute: eight repeats (04_sequencer.md). -/
theorem test_waiting_ten_ns :
    let a : Acc := ⟨5 * second + 1333333333, 1, 3⟩
    let p : Per := ⟨1333333, 1, 3⟩
    waitRepeats a false 10 p = 8 ∧ waitRepeats a true 5000001344 p = 8 := by decide +kernel

/-- The delay for each scope (06_compare_and_fails.md). -/
theorem test_match_delays :
    lMatch 4000 (tCons 4 none) ⟨1000000, 0, 1⟩ = 40 ∧ lMatch 4000 (tCons 4 none) ⟨500000, 0, 1⟩ = 80 ∧
    lMatch 4000 (tCons 1 none) ⟨1000000, 0, 1⟩ = 28 ∧ lMatch 4000 (tCons 4 (some 3)) ⟨1000000, 0, 1⟩ = 325 := by decide +kernel

/-- Reciprocal frequency, and its SI value at RCORR = 7,864,320 (02_time_arithmetic.md). -/
theorem test_reciprocal_frequency :
    rhe (156250 * 1048576 * 1024000000000) 1024000123 = 163839980320002 ∧
    (⟨0, 1, false, false, false, 1, 163839980320002 * 256, 7864320, 0⟩ : AvgRes).si = 163839999980800 := by decide +kernel

/-- The SI width and the slew rate of one pulse (07_measurement.md). -/
theorem test_one_pulse :
    (⟨0, 2, false, false, false, 1, 260640, 7864320, 0⟩ : AvgRes).si = 994263 ∧ rhe (600000 * 262144) (1000 * 82) = 1918127 ∧
    rhe (600000 * 262144) (1000 * 90) = 1747627 := by decide +kernel

/-- One table entry: s = 7.2 fs is 471,859.2 × 2^-16 fs; with s = 471,859 the codes are those of the example (08_calibration.md). -/
theorem test_table_entry : tableCode 471859 (-300) 700 = 783 ∧ tableCode 471859 (-300) 1023 = 1126 := by decide

/-- Decoding one address (13_pattern_memory.md). -/
theorem test_decoding_one_address :
    let a := 1 * stackSize + 0x9A55A9C0
    aPc a = 19 ∧ aBank a = 43 ∧ aRow a = 1234 ∧ pcSrc a = 0x433 ∧ granule a = 9426 := by decide

/-- Running on an aged crystal: INCR_FRAC of TODFOLLOW (14_time_base.md). -/
theorem test_aged_crystal : followFrac (-3276800) 0 = 26843547 := by decide +kernel

/-- One-step residence (14_time_base.md). -/
theorem test_residence : residence 312457113 = 20477189 := by decide +kernel

/-- Locating logical channel 300, before and after its cell is racked (01_engine_overview.md). -/
theorem test_channel_300 :
    State.reset.pcell 300 = 318 ∧ ({ State.reset with rep := { State.reset.rep with xbar := [(300, 16)] } } : State).pcell 300 = 322 := by
  decide +kernel

/-! ## Words of pattern instructions, written out from the table of R89 and R90 -/

theorem test_pattern_words :
    [0x0000000000000000, 0x0100000700000009, 0x0200000000000003, 0x0300000000000004, 0x0400000000000000, 0x0510000000000007,
     0x0680000000000000, 0x07B0000000000005, 0x0800000200000A81, 0x0900000000000011].map PInstr.ofWord =
    [some .nop, some (.vec 7 9), some (.rpt 3), some (.loop 4), some .endl, some (.call ⟨false, 0x10⟩ 7),
     some (.ret ⟨true, 0⟩), some (.jmp ⟨true, 0x30⟩ 5), some (.mtch 2 10 0x81), some (.tset 17)] := by decide +kernel

theorem test_pattern_words_more :
    [0x0A0000000000003F, 0x0B01000000000010, 0x0C00000003E80002, 0x0D00000000000081, 0x0E0000000000BEEF, 0x0F00000000020001,
     0x1000000000000003, 0x1100000003E80005, 0x3F00000000000000].map PInstr.ofWord =
    [some (.per 63), some (.waitt true 16), some (.sync 1000 2), some (.trig 0x81), some (.mark 0xBEEF), some (.flag 1 2),
     some (.sitemask 3), some (.peact 1000 5), some (.halt ⟨false, 0⟩)] ∧
    [0x1200000000000000, 0x3E00000000000000, 0xFF00000000000000].map PInstr.ofWord = [none, none, none] := by decide +kernel

/-! ## Single steps -/

/-- One step with one command in the queue. -/
def stepOn (s : State) (c : Instr) : State := outS (step { s with pending := [c] })

/-- BATCH_CREATE of a new batch 2 by tap 0: the batch exists, UNLOADED. -/
theorem test_step_batch_create :
    ((stepOn s0 (.batchCreate ⟨0, 5, 2, false, false, false, [], 0⟩ 4)).batch 2).map (fun x => (x.state, x.weight)) = some (0, 4) := by
  decide +kernel

/-- BATCH_CREATE of an existing batch posts E_STATE (0x0303) and creates nothing new. -/
theorem test_step_batch_create_again :
    let s := stepOn s0 (.batchCreate h0 9)
    (s.batch 1).map Batch.weight = some 4 ∧ ((s.tap 0).cpls.map (fun p => p.2.status)) = [0x0303] := by decide +kernel

/-- A row with a time operand moves grid time forward (log 1). -/
theorem test_step_timer_moves_time :
    (stepOn { s0 with tb := { s0.tb with now := 5 } } (.maltsterTimer 7)).tb.now = 7 := by decide +kernel

/-- A doorbell past the room of the ring sets DB_ERR and changes no tail (R265). -/
theorem test_step_doorbell_refused :
    let s := stepOn s0 (.tapDoorbellWrite 1 65)
    (s.tap 1).dbErr = true ∧ (s.tap 1).cmdTail = 0 := by decide +kernel

/-- A doorbell of 64 entries is accepted. -/
theorem test_step_doorbell_accepted : ((stepOn s0 (.tapDoorbellWrite 1 64)).tap 1).cmdTail = 64 := by decide +kernel

/-- REFSEL while a batch is ARMED is refused by CFG_ERR; without one it is taken. -/
theorem test_step_refsel : (stepOn s0 (.refselWrite 2)).tb.cfgErr = false ∧
    (stepOn { s0 with batches := [(1, { b1 with state := 2 })] } (.refselWrite 2)).tb.cfgErr = true := by decide +kernel

/-- A cold reset leaves READY low; the queue is what waited behind it. -/
theorem test_step_cold_reset : (stepOn s0 .coldReset).boot.ready = false ∧
    (outS (step { s0 with pending := [.coldReset, .retClear] })).pending = [.retClear] := by decide +kernel

/-- A bus access by the physical function writes memory, and reads it back. -/
theorem test_step_bar2 :
    let s := stepOn s0 (.bar2Access 0 4096 true [1, 2, 3] 3)
    s.peek 4096 4 = [1, 2, 3, 0] := by decide +kernel

/-- FAULT_CLEAR of a source after a report: STATUS falls. -/
theorem test_step_fault_clear :
    let s := stepOn s0 (.faultReport 0x433 0x0306 9 0 1)
    (s.src 0x433).status = true ∧ ((stepOn s (.faultClear { h0 with t := 10 } 0x433)).src 0x433).status = false := by decide +kernel


/-- The PCIe configuration after reset is one that R404 to R406 support. -/
theorem test_pcie_after_reset : Pcie.zero.legal = true ∧ { Pcie.zero with lanes := 3 }.legal = false ∧
    pcieDevice 0 = 0x0512 ∧ pcieDevice 16 = 0x0513 := by decide

/-! ## Witnesses: every clause of a statement that has hypotheses is met by a concrete state and operands -/

/-- States and operands that meet the hypotheses of StepRunsFrontCommand, clause by clause. -/
theorem witness_StepRunsFrontCommand :
  (let s : State := s0;
       s.pending = []) :=
  by decide +kernel

/-- States and operands that meet the hypotheses of CommandsLeaveTheQueue, clause by clause. -/
theorem witness_CommandsLeaveTheQueue :
  (let c : Instr := .powerOnReset;
       let s : State := { s0 with pending := [.retClear] };
       let t : State := outS (exec .powerOnReset s);
       (exec c s = .next t)) :=
  rfl

/-- States and operands that meet the hypotheses of CompletionsArePosted, clause by clause. -/
theorem witness_CompletionsArePosted :
  (let s : State := { s0 with irq := { s0.irq with masked := [] } };
       let tap : Nat := 0;
       let c : Cpl := cpl0;
       (s.tap tap).netMode = false ∧ ((∀ e, (s.tap tap).histOf c.seq = some e → e.dups = [])) ∧ ((∀ e ∈ (s.tap tap).old, e.dups = []))) ∧
  (let s : State := { s0 with taps := [(1, { Tap.zero with netMode := true, hist := [hist0 [] (some ⟨0, 7, 9⟩)] })] };
       let tap : Nat := 1;
       let c : Cpl := cpl0;
       let e : Hist := hist0 [] (some ⟨0, 7, 9⟩);
       let src : NetSrc := ⟨0, 7, 9⟩;
       (s.tap tap).netMode = true ∧ (s.tap tap).histOf c.seq = some e ∧ e.dups = [] ∧ e.net = some src) :=
  by refine ⟨?_, ?_⟩ <;> decide +kernel

/-- States and operands that meet the hypotheses of SettledAnswers_1, clause by clause. -/
theorem witness_SettledAnswers_1 :
  (let h : Hdr := h0;
       h.async = false) ∧
  (let h : Hdr := h0;
       h.async = false) ∧
  (let d : DRef := d0;
       let data : List Byte := [1, 2];
       let a : Nat := 2;
       d.inl = false ∧ ((a < d.addr ∨ d.addr + data.length ≤ a))) ∧
  (let s : State := { s0 with taps := [(0, { Tap.zero with cmdTail := 1 })] };
       let tap : Nat := 0;
       let x := s.tap tap;
         s.takes tap = true ∧ x.netMode = false ∧ s.modePending tap = false ∧ x.cmdTail ≠ x.cmdHead ∧ slotNeed (x.slot x.cmdHead) ≤ x.freeSlots ∧ fld (x.slot x.cmdHead) 4 4 = x.expSeq ∧ fld (x.slot x.cmdHead) 0 2 ≠ 0x0115) ∧
  (let s : State := { s0 with taps := [(0, { Tap.zero with dq := [⟨0, (le 2 1 ++ le 2 0 ++ le 4 0 ++ le 2 0 ++ le 2 1 ++ le 4 0 ++ [] ++ List.replicate (112 - ([] : List Byte).length) 0), [], none⟩] })] };
       let tap : Nat := 0;
       let q : QCmd := ⟨0, (le 2 1 ++ le 2 0 ++ le 4 0 ++ le 2 0 ++ le 2 1 ++ le 4 0 ++ [] ++ List.replicate (112 - ([] : List Byte).length) 0), [], none⟩;
       let qs : List QCmd := [];
       s.dispatches tap = true ∧ (s.tap tap).dq = q :: qs ∧ fld q.slot 0 2 = 0x0001 ∧ slotErr q.slot = none) :=
  by refine ⟨?_, ?_, ?_, ?_, ?_⟩ <;> decide +kernel

/-- States and operands that meet the hypotheses of SettledAnswers_2, clause by clause. -/
theorem witness_SettledAnswers_2 :
  (let s : State := { s0 with netTaps := 1 };
       let tap : Nat := 0;
       s.modePending tap = true ∧ (s.tap tap).dq = [] ∧ (s.tap tap).running = none ∧ (s.tap tap).asyncs = []) ∧
  (let s : State := { s0 with netTaps := 2 ^ 16, taps := [(16, { Tap.zero with netMode := true })] };
       let tap : Nat := 16;
       let slot : List Byte := (le 2 0x0107 ++ le 2 0 ++ le 4 0 ++ List.replicate 120 0);
       tap ≤ 16 ∧ slot.length = 128 ∧ (s.tap tap).netMode = true ∧ s.takes tap = true ∧ s.modePending tap = false ∧ fld slot 4 4 = (s.tap tap).expSeq ∧ fld slot 0 2 ≠ 0x0115) ∧
  (let s : State := { s0 with netTaps := 2 ^ 16, taps := [(16, { Tap.zero with netMode := true })] };
       let tap : Nat := 16;
       tap ≤ 16 ∧ (s.tap tap).netMode = true) ∧
  (let s : State := { s0 with taps := [(0, { Tap.zero with dq := [⟨3, (le 2 0x0107 ++ le 2 0 ++ le 4 0 ++ List.replicate 120 0), [], none⟩] })] };
       let h : Hdr := h0;
       let q : QCmd := ⟨3, (le 2 0x0107 ++ le 2 0 ++ le 4 0 ++ List.replicate 120 0), [], none⟩;
       s.admits h 0x0115 [] = true ∧ q.seq ≠ h.seq ∧ (s.tap h.tap).dq = [q]) :=
  by refine ⟨?_, ?_, ?_, ?_⟩ <;> decide +kernel

/-- States and operands that meet the hypotheses of NotReadyTakesNothing, clause by clause. -/
theorem witness_NotReadyTakesNothing :
  (let s : State := State.reset;
       let h : Hdr := h0;
       s.dispatches h.tap = false) ∧
  (let s : State := State.reset;
       let h : Hdr := h0;
       s.dispatches h.tap = false) ∧
  (let s : State := State.reset;
       let h : Hdr := h0;
       s.dispatches h.tap = false) ∧
  (let s : State := { s0 with boot := { s0.boot with bootSafe := true } };
       let h : Hdr := h0;
       s.dispatches h.tap = true ∧ s.boot.bootSafe = true) ∧
  (let s : State := { s0 with boot := { s0.boot with bootSafe := true } };
       let h : Hdr := h0;
       s.dispatches h.tap = true ∧ s.boot.bootSafe = true) :=
  by refine ⟨?_, ?_, ?_, ?_, ?_⟩ <;> decide +kernel

/-- States and operands that meet the hypotheses of IdentityRecords, clause by clause. -/
theorem witness_IdentityRecords :
  (let s : State := s0;
       let h : Hdr := h0;
       s.admits h 0x0001 [] = true) ∧
  (let s : State := s0;
       let h : Hdr := h0;
       s.admits h 0x000E [] = true) :=
  by refine ⟨?_, ?_⟩ <;> decide +kernel

/-- States and operands that meet the hypotheses of BatchLifeCycle, clause by clause. -/
theorem witness_BatchLifeCycle :
  (let s : State := { s0 with batches := [] };
       let h : Hdr := h0;
       let w : Nat := 65535;
       s.admits h 0x0002 [] = true ∧ h.target ≠ 0 ∧ w ≠ 0 ∧ s.batch h.target = none) ∧
  (let s : State := s0;
       let h : Hdr := h0;
       s.admits h 0x0003 [] = true ∧ h.target ≠ 0 ∧ s.isActive h.target = false ∧ s.asyncOf h.target = false ∧ (s.tap h.target).dq = []) ∧
  (let s : State := { s0 with dram := { s0.dram with clearing := [8191], mem := [(17179869183, 1), (17179869184, 1)] } };
       let g : Nat := 8191;
       g ∈ s.dram.clearing) ∧
  (let s : State := { s0 with batches := [(1, { b1 with destroying := some [0] })] };
       let b : Nat := 1;
       let x : Batch := { b1 with destroying := some [0] };
       let gs : List Nat := [0];
       s.batch b = some x ∧ x.destroying = some gs ∧ gs.any s.dram.clearing.contains = false ∧ x.edges = []) :=
  by refine ⟨?_, ?_, ?_, ?_⟩ <;> decide +kernel

/-- States and operands that meet the hypotheses of AssignChangesOwners, clause by clause. -/
theorem witness_AssignChangesOwners :
  (let s : State := s0;
       let h : Hdr := h0;
       let p : AssignP := ⟨0, 1, 0, 8190, 2⟩;
       s.admits h 0x0004 [] = true ∧ h.target ≠ 0 ∧ p.op = 0 ∧ p.weight = 0 ∧ p.rtype ≤ 7 ∧ 0 < p.count ∧ p.index + p.count ≤ unitCount p.rtype ∧ ((p.rtype = 1 → p.index / 8192 = (p.index + p.count - 1) / 8192)) ∧ ((∀ i, i < p.count → s.unusable p.rtype (p.index + i) = false ∧ (s.ownerOf p.rtype (p.index + i) = 0 ∨ s.ownerOf p.rtype (p.index + i) = h.target) ∧ (p.rtype = 1 → p.index + i ∉ s.dram.clearing))) ∧ s.isActive h.target = false ∧ ((let v := assignUnits (s.at_ h.t) h.target h.target p.rtype ((List.range p.count).map (fun i => p.index + i));
           ∀ q, q < 4 → s.holdsStack h.target q = false → v.holdsStack h.target q = true → v.sharesHold [q] = true))) ∧
  (let s : State := { s0 with dram := { s0.dram with owner := [(32767, 1)] } };
       let h : Hdr := h0;
       let p : AssignP := ⟨1, 1, 0, 32767, 1⟩;
       s.admits h 0x0004 [] = true ∧ h.target ≠ 0 ∧ p.op = 1 ∧ p.weight = 0 ∧ p.rtype ≤ 7 ∧ 0 < p.count ∧ p.index + p.count ≤ unitCount p.rtype ∧ ((p.rtype = 1 → p.index / 8192 = (p.index + p.count - 1) / 8192)) ∧ ((∀ i, i < p.count → s.unusable p.rtype (p.index + i) = false ∧ s.ownerOf p.rtype (p.index + i) = h.target ∧ (p.rtype = 1 → p.index + i ∉ s.dram.clearing))) ∧ s.isActive h.target = false) ∧
  (let s : State := s0;
       let h : Hdr := h0;
       let p : AssignP := ⟨2, 0, 8, 0, 0⟩;
       let x : Batch := b1;
       s.admits h 0x0004 [] = true ∧ h.target ≠ 0 ∧ p.op = 2 ∧ p.weight ≠ 0 ∧ p.rtype = 0 ∧ p.count = 0 ∧ s.batch h.target = some x ∧ ((∀ q, q < 4 → s.holdsStack h.target q = true → ((s.at_ h.t).setBatch h.target { x with weight := p.weight }).sharesHold [q] = true))) :=
  by refine ⟨?_, ?_, ?_⟩ <;> decide +kernel

/-- States and operands that meet the hypotheses of PowerAndWakes_1, clause by clause. -/
theorem witness_PowerAndWakes_1 :
  (let s : State := { s0 with sliceOwner := [] };
       let h : Hdr := h0;
       let d : Nat := 46;
       s.admits h 0x0005 [] = true ∧ (within d 3 46 || within d 48 51) = true ∧ s.powered d = true ∧ s.parkBusy d = false ∧ s.required d = false) ∧
  (let s : State := { s0 with pwr := { s0.pwr with on := 3 } };
       let h : Hdr := h0;
       let d : Nat := 46;
       s.admits h 0x0005 [] = true ∧ (within d 3 46 || within d 48 51) = true ∧ s.powered d = false ∧ ((within d 43 46 = true → s.powered (d - 4) = false))) ∧
  (let s : State := s0;
       let h : Hdr := h0;
       let d : Nat := 3;
       s.admits h 0x0005 [] = true ∧ (within d 3 46 || within d 48 51) = true ∧ s.pwr.pwrfailLow = false ∧ s.pwr.wakeBlock ≤ h.t ∧ s.powered d = true) ∧
  (let s : State := { s0 with pwr := { s0.pwr with on := 3 } };
       let h : Hdr := h0;
       let d : Nat := 51;
       s.admits h 0x0005 [] = true ∧ (within d 3 46 || within d 48 51) = true ∧ s.pwr.pwrfailLow = false ∧ s.pwr.wakeBlock ≤ h.t ∧ s.powered d = false) ∧
  (let s : State := s0;
       let h : Hdr := h0;
       let n : Nat := 1000;
       s.admits h 0x0011 [] = true ∧ 1 ≤ n ∧ n ≤ 1000) :=
  by refine ⟨?_, ?_, ?_, ?_, ?_⟩ <;> decide +kernel

/-- States and operands that meet the hypotheses of PowerAndWakes_2, clause by clause. -/
theorem witness_PowerAndWakes_2 :
  (let s : State := { s0 with pwr := { s0.pwr with avail := 7 } };
       let t : Nat := 10000000000;
       t % 10000000000 = 0 ∧ s.boot.gasp.any (fun g => decide (g.tw + 10000000000 ≤ t)) = false) ∧
  (let s : State := { s0 with pwr := { s0.pwr with on := 3, ramps := [⟨3, 20, 20, true, 0⟩] }, waits := [⟨0, 5, 5, 0, 0, false, .power 3⟩] };
       let pd : Nat := 3;
       let t : Nat := 20000000000;
       let w : Wake := ⟨3, 20, 20, true, 0⟩;
       s.pwr.ramps.find? (fun w => w.pd == pd && w.ramp) = some w ∧ w.began + 20000000000 ≤ t) ∧
  (let s : State := { s0 with pwr := { s0.pwr with on := 3, ramps := [⟨3, 20, 20, true, 0⟩] }, waits := [⟨0, 5, 5, 0, 0, false, .power 3⟩] };
       let pd : Nat := 3;
       let t : Nat := 30000000000;
       s.pwr.ramps.any (fun w => w.pd == pd && w.ramp && decide (w.began + 30000000000 ≤ t)) = true) ∧
  (let s : State := { s0 with sliceOwner := [], pwr := { s0.pwr with idlepark := 8 } };
       let pd : Nat := 3;
       s.pwr.idlepark.testBit pd = true ∧ s.powered pd = true ∧ s.idle pd = true) :=
  by refine ⟨?_, ?_, ?_, ?_⟩ <;> decide +kernel

/-- States and operands that meet the hypotheses of Racking_1, clause by clause. -/
theorem witness_Racking_1 :
  (let s : State := s0;
       let h : Hdr := h0;
       let k : Nat := 1;
       let unit : Nat := 0;
       let arg : Nat := 0;
       s.admits h 0x0006 [] = true ∧ s.rackRange k unit arg = true ∧ s.gone k unit arg = false ∧ s.reserveLeft k unit arg = true ∧ s.rackBusy k unit arg = false) ∧
  (let s : State := { s0 with rep := { s0.rep with ops := [(0, 5, 6, ⟨5, 0, 0, 1, 3, 0⟩)] }, taps := [(0, { Tap.zero with asyncs := [⟨5, 6, 0⟩] })] };
       let tap : Nat := 0;
       let seq : Nat := 5;
       let e : MapE := ⟨5, 0, 0, 1, 3, 0⟩;
       let ops : List (Nat × Nat × Nat × MapE) := [];
       s.rep.ops = (tap, seq, 0x0006, e) :: ops ∧ tap ≠ 64 ∧ s.rackReady e = true) ∧
  (let s : State := s0;
       let h : Hdr := h0;
       let src : Nat := 0;
       let m : List MapE := [];
       s.admits h 0x0007 [] = true ∧ src ≤ 3 ∧ ((src ≠ 0 → s.rep.conflict = true)) ∧ s.rep.source src = some m ∧ s.differs m = false) ∧
  (let s : State := { s0 with rep := { s0.rep with ops := [(0, 5, 7, ⟨0, 0, 0, 0, 0, 0⟩)], heldOut := [(1, 0, 0)], conflict := true }, taps := [(0, { Tap.zero with asyncs := [⟨5, 7, 0⟩] })] };
       let tap : Nat := 0;
       let seq : Nat := 5;
       let e : MapE := ⟨0, 0, 0, 0, 0, 0⟩;
       let ops : List (Nat × Nat × Nat × MapE) := [];
       s.rep.ops = (tap, seq, 0x0007, e) :: ops ∧ tap ≠ 64) ∧
  (let s : State := { s0 with flt := { s0.flt with autorack := 15, srcs := [(0x100, { Src.zero with status := true, code := 0x200, level := some (0x200, 0) })] } };
       let src : Nat := 0x100;
       let t : Nat := 10000000000000;
       let k : Nat := 1;
       let unit : Nat := 0;
       srcUnit src = some (k, unit) ∧ s.flt.autorack.testBit (k - 1) = true ∧ (s.src src).hard t = true ∧ s.rackRange k unit 0 = true ∧ s.gone k unit 0 = false ∧ s.reserveLeft k unit 0 = true ∧ s.rackBusy k unit 0 = false) :=
  by refine ⟨?_, ?_, ?_, ?_, ?_⟩ <;> decide +kernel

/-- States and operands that meet the hypotheses of Racking_2, clause by clause. -/
theorem witness_Racking_2 :
  (let s : State := { s0 with rep := { s0.rep with seqWorn := 8 } };
       let q : Nat := 3;
       s.rep.seqRes.any (fun p => p.1 / 8 == q) = false) ∧
  (let s : State := s0;
       let q : Nat := 3;
       s.rep.seqRes.any (fun p => p.1 / 8 == q) = false) :=
  by refine ⟨?_, ?_⟩ <;> decide +kernel

/-- States and operands that meet the hypotheses of FaultCommands, clause by clause. -/
theorem witness_FaultCommands :
  (let s : State := { s0 with flt := { s0.flt with srcs := [(2, { Src.zero with status := true }), (4095, { Src.zero with status := true })] } };
       let h : Hdr := h0;
       let first : Nat := 3;
       let count : Nat := 2;
       let d : DRef := d0;
       s.admits h 0x0008 [(d, false)] = true ∧ first ≤ 4095 ∧ 1 ≤ count ∧ count ≤ 4096 ∧ 32 * count ≤ d.len) ∧
  (let s : State := { s0 with flt := { s0.flt with first := ⟨true, 2, 2, 1, true, false⟩, srcs := [(2, { Src.zero with status := true }), (4095, { Src.zero with status := true })] } };
       let h : Hdr := h0;
       let src : Nat := 2;
       s.admits h 0x0009 [] = true ∧ src ≤ 4095 ∧ Tab.wf Src.zero s.flt.srcs = true ∧ (s.src src).status = true ∧ (s.src src).shows (s.at_ h.t).now = false ∧ (s.src src).broken = false) ∧
  (let s : State := s0;
       let h : Hdr := h0;
       let checker : Nat := 0x1002;
       let count : Nat := 255;
       s.admits h 0x0010 [] = true ∧ hasChecker (checker / 16) (checker % 16) = true ∧ count ≠ 0) :=
  by refine ⟨?_, ?_, ?_⟩ <;> decide +kernel

/-- States and operands that meet the hypotheses of ReportsReachTheCollector, clause by clause. -/
theorem witness_ReportsReachTheCollector :
  (let src : Nat := 0x400;
       let code : Nat := 0x0302;
       canReport src code = true ∧ code < 32768 ∧ within src 0x700 0x7FF = false) ∧
  (let s : State := { s0 with batches := [(1, { b1 with state := 3 })] };
       let b : Nat := 1;
       let k : Nat := 12;
       let x : Batch := { b1 with state := 3 };
       1 ≤ b ∧ b ≤ 16 ∧ k ∈ [0, 1, 2, 3, 4, 5, 6, 7, 9, 11, 12] ∧ s.batch b = some x) ∧
  (let s : State := s0;
       let src : Nat := 0x360;
       srcAssigned src = true ∧ (s.src src).broken = false ∧ s.injected (16 * src) < 2) ∧
  (let s : State := { s0 with flt := { s0.flt with srcs := [(2, { Src.zero with status := true })] } };
       s.flt.drive = true ∧ s.boot.scan = 0) ∧
  (let s : State := { s0 with flt := { s0.flt with first := ⟨true, 2, 2, 1, false, false⟩, winEnd := 200 } };
       let t : Nat := 200;
       s.flt.first.valid = true ∧ s.flt.first.settled = false ∧ s.flt.winEnd ≤ t ∧ s.cellar.cdev = 0xFF) :=
  by refine ⟨?_, ?_, ?_, ?_, ?_⟩ <;> decide +kernel

/-- States and operands that meet the hypotheses of CellarFaultsAndPace_1, clause by clause. -/
theorem witness_CellarFaultsAndPace_1 :
  (let s : State := { s0 with cellar := { s0.cellar with cdev := 0 } };
       s.isRoot = true ∧ s.flt.cellarFirst = none) ∧
  (let s : State := { s0 with batches := [(1, { b1 with state := 2, dmask := 2 ^ 63 })] };
       let port : Nat := 1;
       let c : Nat := 63;
       let b : Nat := 1;
       let x : Batch := { b1 with state := 2, dmask := 2 ^ 63 };
       port < 2 ∧ s.batch b = some x ∧ (b, x) ∈ s.batches ∧ (s.batches.filter (fun p => p.1 == b)).length = 1 ∧ x.active = true ∧ 1 ≤ b ∧ b ≤ 16 ∧ c < 64 ∧ x.dmask.testBit c = true) ∧
  (let t : Nat := 1023999999;
       t % 1024000000 ≠ 0) ∧
  (let t : Nat := 1024000000;
       t % 1024000000 = 0) ∧
  (let s : State := { s0 with cellar := { s0.cellar with up := { Port.zero with up := true, audited := true }, dn := { Port.zero with up := true, audited := true } } };
       let c : Nat := 62;
       s.cellar.up.passes = true ∧ s.cellar.cdev = 0xFF ∧ s.cellar.tooLong = false ∧ c < 63) :=
  by refine ⟨?_, ?_, ?_, ?_, ?_⟩ <;> decide +kernel

/-- States and operands that meet the hypotheses of CellarFaultsAndPace_2, clause by clause. -/
theorem witness_CellarFaultsAndPace_2 :
  (let s : State := s0;
       s.cellar.cdev = 0xFF ∧ s.cellar.up.up = false ∧ s.cellar.tooLong = false ∧ s.boot.ready = true) ∧
  (let s : State := { s0 with cellar := { s0.cellar with up := { Port.zero with up := true, audited := true }, dn := { Port.zero with up := true, audited := true } } };
       let p : Nat := 1;
       p ≤ 1 ∧ (s.port p).passes = true) ∧
  (let s : State := { s0 with cellar := { s0.cellar with up := { Port.zero with up := true, audited := true, retrain := true } } };
       let p : Nat := 0;
       p ≤ 1 ∧ (s.port p).up = true ∧ (s.port p).retrain = true) ∧
  (let s : State := { s0 with cellar := { s0.cellar with up := { Port.zero with up := true } } };
       let p : Nat := 0;
       p ≤ 1 ∧ (s.port p).passes = true ∧ (s.port p).audited = false) ∧
  (let s : State := { s0 with cellar := { s0.cellar with up := { Port.zero with up := true, audited := true } } };
       let p : Nat := 0;
       p ≤ 1 ∧ (s.port p).up = true) :=
  by refine ⟨?_, ?_, ?_, ?_, ?_⟩ <;> decide +kernel

/-- States and operands that meet the hypotheses of CellarFaultsAndPace_3, clause by clause. -/
theorem witness_CellarFaultsAndPace_3 :
  (let s : State := s0;
       let p : Nat := 1;
       p ≤ 1 ∧ (s.port p).up = false ∧ ((p = 0 → s.cellar.tooLong = false)) ∧ ((∀ h ∈ s.rep.heldOut, h.1 ≠ 7))) :=
  by decide +kernel

/-- States and operands that meet the hypotheses of TimeBaseCommands_1, clause by clause. -/
theorem witness_TimeBaseCommands_1 :
  (let s : State := s0;
       let h : Hdr := h0;
       let time : TPair := ⟨1, 999999999999999⟩;
       s.admits h 0x000A [] = true ∧ time.f < second) ∧
  (let s : State := { s0 with tb := { s0.tb with todRaw := 4294967296 } };
       let h : Hdr := h0;
       let v : Int := -1;
       s.admits h 0x000A [] = true ∧ 0 ≤ ((s.at_ h.t).tb.todRaw : Int) + v * 4294967296) ∧
  (let s : State := s0;
       let h : Hdr := h0;
       let v : Int := -274877906944;
       s.admits h 0x000A [] = true ∧ (-274877906944 ≤ v) ∧ v ≤ 274877906944) ∧
  (let s : State := s0;
       let h : Hdr := h0;
       let time : TPair := ⟨1, 999999999999999⟩;
       s.admits h 0x000A [] = true ∧ time.f < second ∧ ((∀ p ∈ s.batches, p.2.active = false))) ∧
  (let s : State := { s0 with batches := [(1, { b1 with state := 2 })] };
       let r : Nat := 2;
       r < 3 ∧ r ≠ s.tb.refsel ∧ ((∃ p ∈ s.batches, p.2.active = true))) :=
  by refine ⟨?_, ?_, ?_, ?_, ?_⟩ <;> decide +kernel

/-- States and operands that meet the hypotheses of TimeBaseCommands_2, clause by clause. -/
theorem witness_TimeBaseCommands_2 :
  (let s : State := { s0 with tb := { s0.tb with refinOk := true, crystal := true } };
       let r : Nat := 1;
       r < 3 ∧ r ≠ s.tb.refsel ∧ ((∀ p ∈ s.batches, p.2.active = false))) ∧
  (let s : State := { s0 with tb := { s0.tb with refadj := 5, gscale := 7 } };
       s.tb.todfollow = false) ∧
  (let v : Int := 549755813;
       (-549755813 ≤ v) ∧ v ≤ 549755813) ∧
  (let v : Int := -549755814;
       (v < -549755813 ∨ 549755813 < v)) :=
  by refine ⟨?_, ?_, ?_, ?_⟩ <;> decide +kernel

/-- States and operands that meet the hypotheses of GridScaleSteps, clause by clause. -/
theorem witness_GridScaleSteps :
  (let s : State := { s0 with tb := { s0.tb with gsTarget := -13743896 } };
       let k : Nat := 1;
       let t : Nat := 20000000000;
       (s.at_ t).tb.gscale ≠ (s.at_ t).tb.gsTarget ∧ (
         let b := (s.at_ t).tb;
         b.gsTimeS * second + b.gsTimeF + k * 20000000000 = t ∧ b.now = t ∧ b.gsFrom ≤ t)) ∧
  (let s : State := s0;
       s.tb.gscale = s.tb.gsTarget) ∧
  (let s : State := s0;
       let k : Nat := 1;
       let t : Nat := 20000000001;
       s.tb.gsTimeS * second + s.tb.gsTimeF + k * 20000000000 ≠ t) :=
  by refine ⟨?_, ?_, ?_⟩ <;> decide +kernel

/-- States and operands that meet the hypotheses of ReferenceAndPll_1, clause by clause. -/
theorem witness_ReferenceAndPll_1 :
  (let s : State := { s0 with tb := { s0.tb with refinOk := true }, batches := [(1, { b1 with state := 3, edges := [⟨0, 0, 0, 0, 0, 0, 0, 0, 1, 1⟩] })] };
       let t : Nat := 250000;
       s.tb.refinOk = true ∧ s.tb.crystal = false ∧ s.tb.locked = true ∧ s.boot.scan = 0 ∧ (s.src 0x010).deaf (s.at_ t).now = false) ∧
  (let s : State := { s0 with tb := { s0.tb with refinOk := true, crystal := true }, batches := [(1, { b1 with state := 3, edges := [⟨0, 0, 0, 0, 0, 0, 0, 0, 1, 1⟩] })] };
       s.tb.refinOk = true ∧ s.tb.crystal = true ∧ s.boot.scan = 0) ∧
  (let s : State := { s0 with tb := { s0.tb with xtalOk := true, crystal := true }, batches := [(1, { b1 with state := 3, edges := [⟨0, 0, 0, 0, 0, 0, 0, 0, 1, 1⟩] })] };
       let t : Nat := 250000;
       s.tb.xtalOk = true ∧ s.tb.crystal = true ∧ s.tb.locked = true ∧ s.tb.refsel ≠ 2 ∧ (s.src 0x011).deaf (s.at_ t).now = false) ∧
  (let s : State := { s0 with tb := { s0.tb with xtalOk := true }, batches := [(1, { b1 with state := 3, edges := [⟨0, 0, 0, 0, 0, 0, 0, 0, 1, 1⟩] })] };
       s.tb.xtalOk = true ∧ s.tb.crystal = false) ∧
  (let s : State := { s0 with tb := { s0.tb with refinOk := false, refsel := 1, holdover := true } };
       s.tb.refinOk = false) :=
  by refine ⟨?_, ?_, ?_, ?_, ?_⟩ <;> decide +kernel

/-- States and operands that meet the hypotheses of ReferenceAndPll_2, clause by clause. -/
theorem witness_ReferenceAndPll_2 :
  (let s : State := { s0 with tb := { s0.tb with holdover := true, xtalOk := true } };
       let t : Nat := 10000000000;
       s.tb.holdover = true ∧ s.tb.buildOut = none ∧ ((s.tb.refsel = 0 ∧ s.tb.holdSince + 10000000000 ≤ (s.at_ t).now) ∨ s.tb.holdSince + 10 * second ≤ (s.at_ t).now) ∧ (if s.tb.crystal then s.tb.refinOk else s.tb.xtalOk) = true) ∧
  (let s : State := { s0 with tb := { s0.tb with refinOk := true, crystal := true } };
       let t : Nat := 1000000000000;
       s.tb.refsel = 0 ∧ s.tb.refinOk = true ∧ s.tb.refinSince + 1000000000000 ≤ (s.at_ t).now ∧ s.tb.crystal = true ∧ s.tb.locked = true ∧ s.tb.buildOut = none ∧ ((∀ p ∈ s.batches, p.2.active = false))) ∧
  (let s : State := { s0 with batches := [(1, { b1 with state := 3, edges := [⟨0, 0, 0, 0, 0, 0, 0, 0, 1, 1⟩] })] };
       let t : Nat := 0;
       ((∃ p ∈ s.batches, p.2.active = true) ∨ (s.at_ t).now < s.tb.refinSince + 1000000000000)) ∧
  (let s : State := { s0 with tb := { s0.tb with buildOut := some true, holdover := true } };
       let crystal : Bool := true;
       s.tb.buildOut = some crystal) ∧
  (let s : State := { s0 with batches := [(1, { b1 with state := 3, edges := [⟨0, 0, 0, 0, 0, 0, 0, 0, 1, 1⟩] })], clks := [(0, { Clk.zero with running := true })] };
       let t : Nat := 250000;
       s.tb.locked = true ∧ (s.src 0x012).deaf (s.at_ t).now = false) :=
  by refine ⟨?_, ?_, ?_, ?_, ?_⟩ <;> decide +kernel

/-- States and operands that meet the hypotheses of ReferenceAndPll_3, clause by clause. -/
theorem witness_ReferenceAndPll_3 :
  (let s : State := { s0 with tb := { s0.tb with locked := false, xtalOk := true } };
       s.tb.locked = false ∧ s.powered 50 = true) ∧
  (let s : State := { s0 with tb := { s0.tb with locked := false, xtalOk := true }, pwr := Power.zero };
       s.tb.locked = false ∧ s.powered 50 = false) ∧
  (let s : State := { s0 with tb := { s0.tb with locked := false, xtalOk := true } };
       s.tb.locked = false ∧ s.powered 50 = true ∧ ((s.tb.refsel ≠ 2 ∧ s.tb.refinOk = true ∨ s.tb.xtalOk = true))) :=
  by refine ⟨?_, ?_, ?_⟩ <;> decide +kernel

/-- States and operands that meet the hypotheses of SyncInAndLatches, clause by clause. -/
theorem witness_SyncInAndLatches :
  (let s : State := { s0 with tb := { s0.tb with epochArmed := some 125000000 }, acqs := [(0, { Acq.zero with armed := true })] };
       let g0 : Nat := 125000000;
       s.tb.epochArmed = some g0) ∧
  (let s : State := s0;
       s.tb.epochArmed = none) ∧
  (let s : State := s0;
       let fn : Nat := 16;
       s.pcie.up fn = true) :=
  by refine ⟨?_, ?_, ?_⟩ <;> decide +kernel

/-- States and operands that meet the hypotheses of OutputsAndTriggers_1, clause by clause. -/
theorem witness_OutputsAndTriggers_1 :
  (let s : State := s0;
       let h : Hdr := h0;
       let p : ClkP := ⟨0, 4, 1, 10485760000000, ⟨0, 2000000000⟩⟩;
       s.admits h 0x0113 [] = true ∧ p.output < 8 ∧ s.clkOwner.get 0 p.output = cmdBatch h ∧ p.format ≤ 4 ∧ p.action ≤ 2 ∧ 10485760000000 ≤ p.freq ∧ p.freq ≤ 6710886400000000 ∧ p.time.f < second ∧ (((s.clk p.output).running = true → p.format = (s.clk p.output).format)) ∧ ((p.time = ⟨0, 0⟩ ∨ h.t + 2000000000 ≤ p.time.s * second + p.time.f)) ∧ ((p.action = 1 → (s.clk p.output).disabled = false))) ∧
  (let s : State := { s0 with clks := [(7, { Clk.zero with acts := [⟨125000, 1, 10485760000000, 0⟩] })] };
       let o : Nat := 7;
       let t : Nat := 125000;
       let a : ClkAct := ⟨125000, 1, 10485760000000, 0⟩;
       (s.clk o).acts = [a] ∧ a.at_ ≤ (s.at_ t).now ∧ ((a.action = 1 → s.powered 51 = true))) ∧
  (let s : State := { s0 with clks := [(7, { Clk.zero with acts := [⟨125000, 1, 10485760000000, 0⟩] })] };
       let o : Nat := 7;
       let t : Nat := 124999;
       let a : ClkAct := ⟨125000, 1, 10485760000000, 0⟩;
       (s.clk o).acts = [a] ∧ (s.at_ t).now < a.at_) ∧
  (let s : State := s0;
       let h : Hdr := h0;
       let pin : Nat := 0;
       let width : Nat := 2;
       s.admits h 0x0114 [] = true ∧ pin < 8 ∧ s.trigOutOwner.get 0 pin = cmdBatch h ∧ 2 ≤ width ∧ s.isActive (cmdBatch h) = false) ∧
  (let s : State := s0;
       let h : Hdr := h0;
       let pin : Nat := 8;
       let flags : Nat := 3;
       s.admits h 0x0114 [] = true ∧ 8 ≤ pin ∧ pin < 16 ∧ flags < 4 ∧ s.trigInOwner.get 0 (pin - 8) = cmdBatch h ∧ s.isActive (cmdBatch h) = false) :=
  by refine ⟨?_, ?_, ?_, ?_, ?_⟩ <;> decide +kernel

/-- States and operands that meet the hypotheses of OutputsAndTriggers_2, clause by clause. -/
theorem witness_OutputsAndTriggers_2 :
  (let s : State := s0;
       let o : Nat := 7;
       o < 8 ∧ s.boot.scan = 0) ∧
  (let s : State := s0;
       let o : Nat := 7;
       o < 8 ∧ s.boot.scan = 0) ∧
  (let s : State := s0;
       let o : Nat := 0;
       o < 8 ∧ s.boot.scan = 0) ∧
  (let s : State := { s0 with boot := { s0.boot with scan := 3 } };
       s.boot.scan ≠ 0) ∧
  (let ins : Nat := 3;
       1 ≤ ins ∧ ins ≤ 3) :=
  by refine ⟨?_, ?_, ?_, ?_, ?_⟩ <;> decide +kernel

/-- States and operands that meet the hypotheses of OutputsAndTriggers_3, clause by clause. -/
theorem witness_OutputsAndTriggers_3 :
  (let ins : Nat := 3;
       1 ≤ ins ∧ ins ≤ 3) :=
  by decide +kernel

/-- States and operands that meet the hypotheses of PtpClocks_1, clause by clause. -/
theorem witness_PtpClocks_1 :
  (let s : State := s0;
       let h : Hdr := h0;
       let port : Nat := 1;
       let mode : Nat := 7;
       let transport : Nat := 2;
       s.admits h 0x000B [] = true ∧ port < 2 ∧ mode < 8 ∧ transport ≤ 2) ∧
  (let s : State := { s0 with ptp := { s0.ptp with ports := [(0, ⟨3, 0, 0, 5⟩), (1, ⟨7, 0, 0, 0⟩)], parent := some (0, 7), exch := some (10, 20, 65536) } };
       let m : PtpMsg := ⟨0, 7, 3, 0, false, 65536, 1000000, true, 0⟩;
       let t3 : Int := 10;
       let t4 : Int := 20;
       let cfr : Int := 65536;
       s.ptp.fromParent m = true ∧ m.twoStep = false ∧ s.ptp.exch = some (t3, t4, cfr)) ∧
  (let s : State := { s0 with ptp := { s0.ptp with ports := [(0, ⟨3, 0, 0, 5⟩), (1, ⟨7, 0, 0, 0⟩)], parent := some (0, 7) } };
       let m : PtpMsg := ⟨0, 7, 3, 0, true, 65536, 1000000, false, 0⟩;
       s.ptp.fromParent m = true ∧ m.twoStep = true) ∧
  (let s : State := { s0 with ptp := { s0.ptp with ports := [(0, ⟨3, 0, 0, 5⟩), (1, ⟨7, 0, 0, 0⟩)], parent := some (0, 7), exch := some (10, 20, 65536), sync := some (⟨0, 7, 3, 0, true, 65536, 1000000, false, 0⟩, 5) } };
       let y : PtpMsg := ⟨0, 7, 3, 0, true, 65536, 1000000, false, 0⟩;
       let m : PtpMsg := ⟨0, 7, 3, 0, false, 65536, 1000000, true, 0⟩;
       let t2 : Int := 5;
       let t3 : Int := 10;
       let t4 : Int := 20;
       let cfr : Int := 65536;
       s.ptp.sync = some (y, t2) ∧ s.ptp.fromParent m = true ∧ y.src = m.src ∧ y.seqId = m.seqId ∧ y.domain = m.domain ∧ s.ptp.exch = some (t3, t4, cfr)) ∧
  (let s : State := { s0 with ptp := { s0.ptp with ports := [(0, ⟨3, 0, 0, 5⟩), (1, ⟨7, 0, 0, 0⟩)], parent := some (0, 7), req := some (10, 3) } };
       let m : PtpMsg := ⟨0, 7, 3, 0, false, 65536, 1000000, true, 0⟩;
       let t3 : Int := 10;
       s.ptp.req = some (t3, m.seqId) ∧ m.own = true ∧ s.ptp.fromParent m = true) :=
  by refine ⟨?_, ?_, ?_, ?_, ?_⟩ <;> decide +kernel

/-- States and operands that meet the hypotheses of PtpClocks_2, clause by clause. -/
theorem witness_PtpClocks_2 :
  (let s : State := { s0 with ptp := { s0.ptp with ports := [(0, ⟨3, 0, 0, 5⟩), (1, ⟨7, 0, 0, 0⟩)], parent := some (0, 7), req := some (10, 4) } };
       let m : PtpMsg := ⟨0, 7, 3, 0, false, 65536, 1000000, true, 0⟩;
       let t3 : Int := 10;
       let seq : Nat := 4;
       s.ptp.req = some (t3, seq) ∧ (m.own = false ∨ m.seqId ≠ seq)) ∧
  (let s : State := { s0 with ptp := { s0.ptp with ports := [(0, ⟨3, 0, 0, 5⟩), (1, ⟨7, 0, 0, 0⟩)], parent := some (0, 7), masters := [⟨0, 7, 0, [1, 2, 3, 4, 5, 6, 7]⟩] } };
       let port : Nat := 1;
       let a : Announce := ⟨9, 0, 1, 2, 3, 4, 5, 6, 8, []⟩;
       let new : Master := ⟨port, a.src, a.domain, [a.prio1, a.clockClass, a.accuracy, a.variance, a.prio2, a.grandmaster, a.steps]⟩;
         s.ptp.hears new = true) ∧
  (let s : State := { s0 with ptp := { s0.ptp with ports := [(0, ⟨3, 0, 0, 5⟩), (1, ⟨7, 0, 0, 0⟩)], parent := some (0, 7) } };
       let port : Nat := 0;
       let addr : Nat := 7;
       s.ptp.parent = some (port, addr)) ∧
  (let on := fun (s : State) => (s.ptpPort 0).mode.testBit 1 = true ∧ (s.ptpPort 1).mode.testBit 1 = true;
       let s : State := { s0 with ptp := { s0.ptp with ports := [(0, ⟨3, 0, 0, 5⟩), (1, ⟨7, 1, 0, 0⟩)], parent := some (0, 7) } };
       let m : PtpMsg := ⟨1, 7, 3, 0, true, 65536, 1000000, false, 7⟩;
       let kind : Nat := 1;
       on s ∧ ((kind = 1 ∨ kind = 0 ∧ m.twoStep = false))) ∧
  (let on := fun (s : State) => (s.ptpPort 0).mode.testBit 1 = true ∧ (s.ptpPort 1).mode.testBit 1 = true;
       let s : State := { s0 with ptp := { s0.ptp with ports := [(0, ⟨3, 0, 0, 5⟩), (1, ⟨7, 1, 0, 0⟩)], parent := some (0, 7) } };
       let m : PtpMsg := ⟨1, 7, 3, 0, true, 65536, 1000000, false, 7⟩;
       on s ∧ m.twoStep = true ∧ (s.ptpPort m.port).mode.testBit 2 = true ∧ s.ptp.tc.length < 64) :=
  by refine ⟨?_, ?_, ?_, ?_, ?_⟩ <;> decide +kernel

/-- States and operands that meet the hypotheses of PtpClocks_3, clause by clause. -/
theorem witness_PtpClocks_3 :
  (let on := fun (s : State) => (s.ptpPort 0).mode.testBit 1 = true ∧ (s.ptpPort 1).mode.testBit 1 = true;
       let s : State := { s0 with ptp := { s0.ptp with ports := [(0, ⟨3, 0, 0, 5⟩), (1, ⟨7, 1, 0, 0⟩)], parent := some (0, 7), tc := [⟨7, 3, 0, 11, 5⟩] } };
       let m : PtpMsg := ⟨1, 7, 3, 0, true, 65536, 1000000, false, 7⟩;
       let x : TcEntry := ⟨7, 3, 0, 11, 5⟩;
       on s ∧ (s.ptpPort m.port).mode.testBit 2 = true ∧ s.ptp.tc = [x] ∧ x.src = m.src ∧ x.seqId = m.seqId ∧ x.domain = m.domain) ∧
  (let kind : Nat := 3;
       (kind = 2 ∨ kind = 3 ∨ kind = 10)) ∧
  (let s : State := { s0 with ptp := { s0.ptp with ports := [(0, ⟨3, 0, 0, 5⟩), (1, ⟨7, 1, 0, 0⟩)], parent := some (0, 7), tc := [⟨7, 3, 0, 11, 5⟩] } };
       let x : TcEntry := ⟨7, 3, 0, 11, 5⟩;
       let tod : Int := 1000000000000004;
       s.ptp.tc = [x] ∧ tod < x.egress + second) ∧
  (let s : State := { s0 with ptp := { s0.ptp with ports := [(0, ⟨3, 0, 0, 5⟩), (1, ⟨7, 1, 0, 0⟩)], parent := some (0, 7), tc := [⟨7, 3, 0, 11, 5⟩] } };
       let x : TcEntry := ⟨7, 3, 0, 11, 5⟩;
       let tod : Int := 1000000000000005;
       s.ptp.tc = [x] ∧ x.egress + second ≤ tod) :=
  by refine ⟨?_, ?_, ?_, ?_⟩ <;> decide +kernel

/-- States and operands that meet the hypotheses of CalibrationRuns_1, clause by clause. -/
theorem witness_CalibrationRuns_1 :
  (let s : State := s0;
       let h : Hdr := h0;
       let p : CalRunP := ⟨1, 1, 0, ⟨518, 409, 512⟩, ⟨0, 0⟩, ⟨0, 16, false, false⟩⟩;
       s.admits h 0x000C [(p.data, true)] = true ∧ (p.mode = 1 ∨ p.mode = 3) ∧ 1 ≤ p.n ∧ p.n ≤ 544 ∧ p.calint = 0 ∧ p.t0.f < second ∧ prefOk p.pref = true ∧ (
         let bs := (s.at_ h.t).dataIn h p.data;
         let cells := (cellEntries bs p.n).map (fun e => fld e 0 2);
         16 * p.n ≤ bs.length ∧ ((∀ e ∈ cellEntries bs p.n, zeros e 2 2 = true ∧ zeros e 12 4 = true)) ∧ ((∀ c ∈ cells, c < 544)) ∧ cells.eraseDups.length = cells.length ∧ ((∀ c ∈ cells, s.isActive (s.cellOwner c) = false)))) ∧
  (let s : State := s0;
       let h : Hdr := h0;
       let p : CalRunP := ⟨4, 0, 3600, ⟨0, 0, 0⟩, ⟨0, 0⟩, ⟨0, 72, false, false⟩⟩;
       s.admits h 0x000C [(p.data, true)] = true ∧ p.mode = 4 ∧ p.n = 0 ∧ p.calint ≤ 3600 ∧ p.t0 = ⟨0, 0⟩ ∧ p.pref = ⟨0, 0, 0⟩ ∧ (
         let bs := (s.at_ h.t).dataIn h p.data;
         72 ≤ bs.length ∧ zeros bs 68 4 = true)) ∧
  (let s : State := { s0 with cal := { s0.cal with runs := [⟨0, 5, 1, [], [], false, [⟨0, 0, 0⟩], ⟨1000000, 0, 1⟩, 0, ⟨0, 16, false, false⟩⟩] }, taps := [(0, { Tap.zero with asyncs := [⟨5, 0xC, 0⟩] })] };
       let r : CalRun := ⟨0, 5, 1, [], [], false, [⟨0, 0, 0⟩], ⟨1000000, 0, 1⟩, 0, ⟨0, 16, false, false⟩⟩;
       let rest : List CalRun := [];
       s.cal.runs = r :: rest ∧ r.left = [] ∧ r.failed = [] ∧ r.missed = false) ∧
  (let s : State := { s0 with dram := { s0.dram with mem := Memory.writes [] 0 [0, 16, 0, 64] } };
       let h : Hdr := h0;
       let n : Nat := 2;
       let d : DRef := ⟨0, 64, false, false⟩;
       s.admits h 0x000D [(d, true)] = true ∧ 1 ≤ n ∧ n ≤ 3809 ∧ 32 * n ≤ d.len ∧ (
         let ids := (List.range n).map (fun i => fld ((s.at_ h.t).dataIn h d) (2 * i) 2);
         ((∀ i ∈ ids, itemValid i = true)))) ∧
  (let s : State := { s0 with cal := { s0.cal with asyncMask := 1 }, tdcs := [(0, HT)] };
       let item : Nat := 0x2000;
       let r : CalRes := .hist;
       let ext : Bool := false;
       let v : CalVal := .dnl (List.replicate 128 0);
       s.calibrating item ext = true ∧ s.measured item r ext = some (some v, true) ∧ (s.item item).first = none) :=
  by refine ⟨?_, ?_, ?_, ?_, ?_⟩ <;> decide +kernel

/-- States and operands that meet the hypotheses of CalibrationRuns_2, clause by clause. -/
theorem witness_CalibrationRuns_2 :
  (let s : State := { s0 with cal := { s0.cal with asyncMask := 1, items := [(0x2000, { CalItem.zero with first := some (.dnl (List.replicate 128 206)), disagree := 2 })] }, tdcs := [(0, HT)] };
       let item : Nat := 0x2000;
       let r : CalRes := .hist;
       let ext : Bool := false;
       let a : CalVal := .dnl (List.replicate 128 206);
       let v : CalVal := .dnl (List.replicate 128 0);
       s.calibrating item ext = true ∧ s.measured item r ext = some (some v, true) ∧ (s.item item).first = some a ∧ tolerance (itemKind item) < (s.item item).differ a v) ∧
  (let s : State := { s0 with cal := { s0.cal with asyncMask := 1 }, tdcs := [(0, HU)] };
       let item : Nat := 0x2000;
       let r : CalRes := .hist;
       let ext : Bool := false;
       let v : Option CalVal := some (.dnl (dnlTable ((s.tdcs.get Tdc.zero 0).bins)));
       s.calibrating item ext = true ∧ s.measured item r ext = some (v, false) ∧ itemKind item = 2) ∧
  (let s : State := { s0 with cal := { s0.cal with started := [0x1000], items := TDCI, gather := [(0, ⟨0x1000, none, (GSUM.map (fun q => (q.1, { q.2 with y := q.2.y + 256 * 64 * 500000 * 128 })))⟩)] } };
       let item : Nat := 0x1000;
       let r : CalRes := .fit;
       let ext : Bool := false;
       let ds : Int := match (fitVal (GSUM.map (fun q => (q.1, { q.2 with y := q.2.y + 256 * 64 * 500000 * 128 })))).1 with | some (.model a _) => a | _ => 0;
       let os : List Int := match (fitVal (GSUM.map (fun q => (q.1, { q.2 with y := q.2.y + 256 * 64 * 500000 * 128 })))).1 with | some (.model _ a) => a | _ => [];
       s.calibrating item ext = true ∧ s.measured item r ext = some (some (.model ds os), false) ∧ itemKind item = 1) ∧
  (let s : State := { s0 with cal := { s0.cal with started := [0x1000], items := (0x1000, { CalItem.zero with tries := 3 }) :: TDCI, gather := [(0, ⟨0x1000, none, (GSUM.map (fun q => (q.1, { q.2 with y := q.2.y + 256 * 64 * 500000 * 128 })))⟩)] } };
       let item : Nat := 0x1000;
       let r : CalRes := .fit;
       let ext : Bool := false;
       let ds : Int := match (fitVal (GSUM.map (fun q => (q.1, { q.2 with y := q.2.y + 256 * 64 * 500000 * 128 })))).1 with | some (.model a _) => a | _ => 0;
       let os : List Int := match (fitVal (GSUM.map (fun q => (q.1, { q.2 with y := q.2.y + 256 * 64 * 500000 * 128 })))).1 with | some (.model _ a) => a | _ => [];
       s.calibrating item ext = true ∧ s.measured item r ext = some (some (.model ds os), false) ∧ itemKind item = 1 ∧ 3 ≤ (s.item item).tries) ∧
  (let s : State := { s0 with tdcs := [(0, HT)] };
       let item : Nat := 0x2000;
       itemKind item = 2 ∧ (
         let bins := (List.range 128).map ((s.tdcs.get Tdc.zero (item % 4096)).hist.get 0);
         bins.sum = 1048576)) :=
  by refine ⟨?_, ?_, ?_, ?_, ?_⟩ <;> decide +kernel

/-- States and operands that meet the hypotheses of CalibrationRuns_3, clause by clause. -/
theorem witness_CalibrationRuns_3 :
  (let s : State := { s0 with tdcs := [(0, { Tdc.zero with hist := [(0, 5)], since := some 0 })] };
       let item : Nat := 0x2000;
       let t : Nat := 10000000000000000;
       let f : Nat := 0;
       itemKind item = 2 ∧ itemValid item = true ∧ (s.tdcs.get Tdc.zero (item % 4096)).since = some f ∧ f + 10 * second ≤ t ∧ (s.tdcs.get Tdc.zero (item % 4096)).bins.sum < 1048576) :=
  by decide +kernel

/-- States and operands that meet the hypotheses of CalibrationRuns_at_1, clause by clause. -/
theorem witness_CalibrationRuns_at_1 :
  (let s : State := { s0 with cal := { s0.cal with runs := [⟨0, 5, 1, [], [0x2000], false, [⟨0, 0, 0⟩], ⟨1000000, 0, 1⟩, 0, ⟨0, 16, false, false⟩⟩] }, taps := [(0, { Tap.zero with asyncs := [⟨5, 0xC, 0⟩] })] };
       let r : CalRun := ⟨0, 5, 1, [], [0x2000], false, [⟨0, 0, 0⟩], ⟨1000000, 0, 1⟩, 0, ⟨0, 16, false, false⟩⟩;
       let rest : List CalRun := [];
       (s.cal.runs = r :: rest ∧ r.left = [] ∧ ((r.failed ≠ [] ∨ r.missed = true)) ∧ r.data.inl = false ∧ s.cleanBlock r.data.addr (2 * r.failed.length) = true) ∧ (((∀ q, (s.stack q).frozen = false)))) :=
  ⟨by decide +kernel, fun _ => rfl⟩

/-- States and operands that meet the hypotheses of CalibrationRuns_at_2, clause by clause. -/
theorem witness_CalibrationRuns_at_2 :
  (let s : State := { s0 with cal := { s0.cal with asyncMask := 1, items := [(0x2000, { CalItem.zero with first := some (.dnl (List.replicate 128 205)) })] }, tdcs := [(0, HT)] };
       let item : Nat := 0x2000;
       let r : CalRes := .hist;
       let ext : Bool := false;
       let a : CalVal := .dnl (List.replicate 128 205);
       let v : CalVal := .dnl (List.replicate 128 0);
       (s.calibrating item ext = true ∧ s.measured item r ext = some (some v, true) ∧ (s.item item).first = some a ∧ (s.item item).differ a v ≤ tolerance (itemKind item)) ∧ (((∀ e, a.mean v = .err e → (newDeskew item (s.item item).value e).natAbs ≤ 10000000)))) :=
  ⟨by decide +kernel, fun _ h => by cases h⟩

/-- States and operands that meet the hypotheses of CalibrationUpkeep_1, clause by clause. -/
theorem witness_CalibrationUpkeep_1 :
  (let s : State := s0;
       let sl : Nat := 0;
       let temp : Int := 17;
       s.powered (3 + sl) = true ∧ 16 < (temp - s.cal.calTemps.get 0 sl).natAbs ∧ s.observerLost sl = false) ∧
  (let s : State := s0;
       let sl : Nat := 0;
       let temp : Int := -16;
       s.powered (3 + sl) = true ∧ (temp - s.cal.calTemps.get 0 sl).natAbs ≤ 16) ∧
  (let s : State := s0;
       let sl : Nat := 0;
       let line : Nat := 1;
       line ≠ s.cal.slTurn.get 0 sl) ∧
  (let s : State := { s0 with cal := { s0.cal with items := TDCI } };
       let sl : Nat := 0;
       let line : Nat := 0;
       let t : Nat := 0;
       s.powered (3 + sl) = true ∧ s.observerLost sl = false ∧ s.tdcsOk (17 * sl + 16) = true ∧ line = s.cal.slTurn.get 0 sl ∧ (
         let cur := (s.delayItems sl).getD line 0;
         (s.watched sl = none ∧ s.lineDue cur t = true ∧ (s.item cur).state ≠ 2))) ∧
  (let s : State := { s0 with cal := { s0.cal with items := (0x1000, { CalItem.zero with state := 2 }) :: TDCI, started := [], interval := 60 } };
       let sl : Nat := 0;
       let line : Nat := 0;
       let t : Nat := 60000000000000000;
       s.powered (3 + sl) = true ∧ s.observerLost sl = false ∧ s.tdcsOk (17 * sl + 16) = true ∧ line = s.cal.slTurn.get 0 sl ∧ (
         let cur := (s.delayItems sl).getD line 0;
         (s.watched sl = none ∧ s.lineDue cur t = true ∧ (s.item cur).state = 2))) :=
  by refine ⟨?_, ?_, ?_, ?_, ?_⟩ <;> decide +kernel

/-- States and operands that meet the hypotheses of CalibrationUpkeep_2, clause by clause. -/
theorem witness_CalibrationUpkeep_2 :
  (let s : State := { s0 with cal := { s0.cal with items := (0x1000, { CalItem.zero with begun := some 1 }) :: TDCI, started := [], interval := 60 } };
       let sl : Nat := 0;
       let line : Nat := 0;
       let t : Nat := 60000000000000000;
       s.powered (3 + sl) = true ∧ s.observerLost sl = false ∧ s.tdcsOk (17 * sl + 16) = true ∧ line = s.cal.slTurn.get 0 sl ∧ (
         let cur := (s.delayItems sl).getD line 0;
         (s.watched sl = none ∧ s.lineDue cur t = false))) ∧
  (let s : State := { s0 with cal := { s0.cal with items := (0x1000, { CalItem.zero with begun := some 0 }) :: TDCI, started := [0x1000], interval := 60 } };
       let sl : Nat := 0;
       let line : Nat := 0;
       let t : Nat := 60000000000000000;
       s.powered (3 + sl) = true ∧ s.observerLost sl = false ∧ s.tdcsOk (17 * sl + 16) = true ∧ line = s.cal.slTurn.get 0 sl ∧ (s.watched sl = some 0x1000 ∧ s.lineDue 0x1000 t = true)) ∧
  (let s : State := { s0 with batches := [(1, { b1 with sets := [(0, ⟨1, 0, List.replicate 16 ⟨0, false, 0, 0, 0, 0, 0, 0, 0, 0⟩, false⟩)] })] };
       let lch : Nat := 15;
       let v : Int := 20000000;
       v.natAbs ≤ 20000000 ∧ ((∀ x, s.batch (s.sliceOwner.get 0 (lch / 16)) = some x → x.sets.all (fun p => p.2.legal x.periods x.factors) = true))) ∧
  (let v : Int := -20000001;
       20000000 < v.natAbs) ∧
  (let s : State := { s0 with batches := [(1, { b1 with sets := [(0, ⟨1, 0, List.replicate 16 ⟨0, false, 900000000, 0, 0, 0, 0, 0, 0, 0⟩, false⟩)], periods := [(0, ⟨500000, 0, 1⟩)] })] };
       let lch : Nat := 15;
       let v : Int := -20000000;
       let x : Batch := { b1 with sets := [(0, ⟨1, 0, List.replicate 16 ⟨0, false, 900000000, 0, 0, 0, 0, 0, 0, 0⟩, false⟩)], periods := [(0, ⟨500000, 0, 1⟩)] };
       v.natAbs ≤ 20000000 ∧ s.batch (s.sliceOwner.get 0 (lch / 16)) = some x ∧ x.sets.all (fun p => p.2.legal x.periods x.factors) = false) :=
  by refine ⟨?_, ?_, ?_, ?_, ?_⟩ <;> decide +kernel

/-- States and operands that meet the hypotheses of PeScripts, clause by clause. -/
theorem witness_PeScripts :
  (let performed := fun (s : State) (n : Nat) (r : PeRun) (x : Script) (e : PeEnd) =>
         x.perform n (r.chans.headD 0) (s.bus n).div (s.runCodes r) ((x.buses r.chans).head? == some n) (Config.freeValue s.free) e;
       let s : State := { s0 with buses := [(0, { Bus.zero with run := some ⟨3, 0, 1, 5, [0], [], (0, 5), 0⟩ })], scripts := [(3, ⟨1, 5, [[1, 0, 0, 0, 0, 0, 0, 0], [6, 0, 0, 0, 0, 0, 0, 0]]⟩)], batches := [(1, { b1 with state := 3 })] };
       let n : Nat := 0;
       let r : PeRun := ⟨3, 0, 1, 5, [0], [], (0, 5), 0⟩;
       let x : Script := ⟨1, 5, [[1, 0, 0, 0, 0, 0, 0, 0], [6, 0, 0, 0, 0, 0, 0, 0]]⟩;
       let e : PeEnd := ⟨[], some 0⟩;
       let y : Batch := { b1 with state := 3 };
       n < 16 ∧ (s.bus n).run = some r ∧ s.script r.script = some x ∧ (performed s n r x e).ok = false ∧ r.use_ = 0 ∧ 1 ≤ r.b ∧ r.b ≤ 16 ∧ s.batch r.b = some y ∧ y.active = true) ∧
  (let s : State := s0;
       let n : Nat := 0;
       (s.bus n).run = none) ∧
  (let s : State := { s0 with batches := [(1, { b1 with state := 3 })], busOwner := [(15, 1)] };
       let n : Nat := 15;
       n < 16 ∧ (s.bus n).run = none) ∧
  (let s : State := { s0 with buses := [(0, { Bus.zero with settling := [(⟨3, 1, 1, 5, [0], [], (0, 5), 0⟩, 125000)] })], waits := [⟨0, 5, 0x105, 1, 1, false, .levels 3 0 1 [(0, 5, 4)] 0⟩], taps := [(0, { Tap.zero with running := some 5 })] };
       let n : Nat := 0;
       let t : Nat := 125000;
       let at_ : Nat := 125000;
       let r : PeRun := ⟨3, 1, 1, 5, [0], [], (0, 5), 0⟩;
       let w : Waiter := ⟨0, 5, 0x105, 1, 1, false, .levels 3 0 1 [(0, 5, 4)] 0⟩;
       (s.bus n).settling = [(r, at_)] ∧ at_ ≤ t ∧ r.use_ = 1 ∧ s.levelsOf r = some w) :=
  by refine ⟨?_, ?_, ?_, ?_⟩ <;> decide +kernel

/-- States and operands that meet the hypotheses of PeScripts_at_1, clause by clause. -/
theorem witness_PeScripts_at_1 :
  (let s : State := { s0 with dram := { s0.dram with mem := Memory.writes [] 0 [6, 0, 0, 0, 0, 0, 0, 0] } };
       let h : Hdr := h0;
       let n : Nat := 1023;
       let busmask : Nat := 1;
       let d : DRef := ⟨0, 8, false, false⟩;
       (s.admits h 0x000F [(d, true)] = true ∧ n ≤ 1023 ∧ busmask ≠ 0 ∧ 0 < d.len ∧ d.len ≤ 4096 ∧ (
         let bs := (s.at_ h.t).dataIn h d;
         scriptOk busmask bs = true ∧ ((s.scripts.filter (fun p => p.1 != n)).map (fun p => 8 * p.2.ops.length)).sum + bs.length ≤ 262144)) ∧ (((∀ p ∈ s.batches, p.2.active = true → ∀ k, PInstr.peact k n ∉ p.2.prog)))) :=
  ⟨by decide +kernel, fun p hp ha => by cases List.mem_singleton.1 hp; exact absurd ha (by decide +kernel)⟩

/-- States and operands that meet the hypotheses of PeScripts_at_2, clause by clause. -/
theorem witness_PeScripts_at_2 :
  (let performed := fun (s : State) (n : Nat) (r : PeRun) (x : Script) (e : PeEnd) =>
         x.perform n (r.chans.headD 0) (s.bus n).div (s.runCodes r) ((x.buses r.chans).head? == some n) (Config.freeValue s.free) e;
       let last := fun (s : State) (n : Nat) (r : PeRun) => (s.bus n).run = some r ∧ (s.bus n).queue = [] ∧
         (∀ z : Bus, z.run = none → z.queue = [] → (s.setBus n z).onBus r = false) ∧ ∀ k, (s.acq k).ls = none;
       let s : State := { s0 with buses := [(0, { Bus.zero with run := some ⟨3, 0, 1, 5, [0], [], (0, 5), 0⟩ })], scripts := [(3, ⟨1, 5, [[1, 0, 0, 0, 0, 0, 0, 0], [6, 0, 0, 0, 0, 0, 0, 0]]⟩)], batches := [(1, { b1 with state := 3, seq := { Seq.zero with wait := some (.peact none) } })] };
       let n : Nat := 0;
       let r : PeRun := ⟨3, 0, 1, 5, [0], [], (0, 5), 0⟩;
       let x : Script := ⟨1, 5, [[1, 0, 0, 0, 0, 0, 0, 0], [6, 0, 0, 0, 0, 0, 0, 0]]⟩;
       let e : PeEnd := ⟨[], none⟩;
       let y : Batch := { b1 with state := 3, seq := { Seq.zero with wait := some (.peact none) } };
       let a : Option Acc := none;
       (s.script r.script = some x ∧ (performed s n r x e).ok = true ∧ x.setsLevels = false ∧ r.use_ = 0 ∧ r.left = [] ∧ s.batch r.b = some y ∧ y.seq.wait = some (.peact a)) ∧ (last s n r)) :=
  ⟨by decide +kernel, ⟨by decide +kernel, by decide +kernel, fun z h1 h2 => onBus_of_idle _ _ _ h1 h2 (by decide +kernel), fun _ => rfl⟩⟩

/-- States and operands that meet the hypotheses of PeScripts_at_3, clause by clause. -/
theorem witness_PeScripts_at_3 :
  (let performed := fun (s : State) (n : Nat) (r : PeRun) (x : Script) (e : PeEnd) =>
         x.perform n (r.chans.headD 0) (s.bus n).div (s.runCodes r) ((x.buses r.chans).head? == some n) (Config.freeValue s.free) e;
       let last := fun (s : State) (n : Nat) (r : PeRun) => (s.bus n).run = some r ∧ (s.bus n).queue = [] ∧
         (∀ z : Bus, z.run = none → z.queue = [] → (s.setBus n z).onBus r = false) ∧ ∀ k, (s.acq k).ls = none;
       let s : State := { s0 with buses := [(0, { Bus.zero with run := some ⟨3, 0, 1, 5, [0], [1], (0, 5), 0⟩ })], scripts := [(3, ⟨1, 5, [[1, 0, 0, 0, 0, 0, 0, 0], [6, 0, 0, 0, 0, 0, 0, 0]]⟩)] };
       let n : Nat := 0;
       let r : PeRun := ⟨3, 0, 1, 5, [0], [1], (0, 5), 0⟩;
       let x : Script := ⟨1, 5, [[1, 0, 0, 0, 0, 0, 0, 0], [6, 0, 0, 0, 0, 0, 0, 0]]⟩;
       let e : PeEnd := ⟨[], none⟩;
       let c : Nat := 1;
       let cs : List Nat := [];
       (s.script r.script = some x ∧ (performed s n r x e).ok = true ∧ x.setsLevels = false ∧ r.left = c :: cs ∧ x.buses [c] ≠ []) ∧ (last s n r)) :=
  ⟨by decide +kernel, ⟨by decide +kernel, by decide +kernel, fun z h1 h2 => onBus_of_idle _ _ _ h1 h2 (by decide +kernel), fun _ => rfl⟩⟩

/-- States and operands that meet the hypotheses of PeScripts_at_4, clause by clause. -/
theorem witness_PeScripts_at_4 :
  (let performed := fun (s : State) (n : Nat) (r : PeRun) (x : Script) (e : PeEnd) =>
         x.perform n (r.chans.headD 0) (s.bus n).div (s.runCodes r) ((x.buses r.chans).head? == some n) (Config.freeValue s.free) e;
       let last := fun (s : State) (n : Nat) (r : PeRun) => (s.bus n).run = some r ∧ (s.bus n).queue = [] ∧
         (∀ z : Bus, z.run = none → z.queue = [] → (s.setBus n z).onBus r = false) ∧ ∀ k, (s.acq k).ls = none;
       let s : State := { s0 with buses := [(0, { Bus.zero with run := some ⟨3, 2, 1, 5, [0], [], (0, 5), 0⟩ })], scripts := [(3, ⟨1, 5, [[6, 0, 0, 0, 0, 0, 0, 0]]⟩)] };
       let n : Nat := 0;
       let r : PeRun := ⟨3, 2, 1, 5, [0], [], (0, 5), 0⟩;
       let x : Script := ⟨1, 5, [[6, 0, 0, 0, 0, 0, 0, 0]]⟩;
       let e : PeEnd := ⟨[], none⟩;
       (s.script r.script = some x ∧ (performed s n r x e).ok = true ∧ r.use_ = 2 ∧ r.left = []) ∧ (last s n r)) :=
  ⟨by decide +kernel, ⟨by decide +kernel, by decide +kernel, fun z h1 h2 => onBus_of_idle _ _ _ h1 h2 (by decide +kernel), fun _ => rfl⟩⟩

/-- States and operands that meet the hypotheses of PeScripts_at_5, clause by clause. -/
theorem witness_PeScripts_at_5 :
  (let performed := fun (s : State) (n : Nat) (r : PeRun) (x : Script) (e : PeEnd) =>
         x.perform n (r.chans.headD 0) (s.bus n).div (s.runCodes r) ((x.buses r.chans).head? == some n) (Config.freeValue s.free) e;
       let last := fun (s : State) (n : Nat) (r : PeRun) => (s.bus n).run = some r ∧ (s.bus n).queue = [] ∧
         (∀ z : Bus, z.run = none → z.queue = [] → (s.setBus n z).onBus r = false) ∧ ∀ k, (s.acq k).ls = none;
       let s : State := { s0 with buses := [(0, { Bus.zero with run := some ⟨3, 1, 1, 5, [0], [], (0, 5), 0⟩ })], scripts := [(3, ⟨1, 5, [[6, 0, 0, 0, 0, 0, 0, 0]]⟩)], waits := [⟨0, 5, 0x105, 1, 1, false, .levels 3 0 1 [(0, 5, 4)] 0⟩] };
       let n : Nat := 0;
       let r : PeRun := ⟨3, 1, 1, 5, [0], [], (0, 5), 0⟩;
       let w : Waiter := ⟨0, 5, 0x105, 1, 1, false, .levels 3 0 1 [(0, 5, 4)] 0⟩;
       let x : Script := ⟨1, 5, [[6, 0, 0, 0, 0, 0, 0, 0]]⟩;
       let e : PeEnd := ⟨[], none⟩;
       let y : Batch := b1;
       let sc : Nat := 3;
       let k : Nat := 0;
       let vstep : Nat := 1;
       let voff : Int := 0;
       let v : Nat × Nat × Nat := (0, 5, 4);
       (s.script r.script = some x ∧ (performed s n r x e).ok = true ∧ r.use_ = 1 ∧ r.left = [] ∧ s.levelsOf r = some w ∧ w.what = .levels sc voff vstep [v] k ∧ s.batch w.b = some y) ∧ (last s n r)) :=
  ⟨by decide +kernel, ⟨by decide +kernel, by decide +kernel, fun z h1 h2 => onBus_of_idle _ _ _ h1 h2 (by decide +kernel), fun _ => rfl⟩⟩

/-- States and operands that meet the hypotheses of LevelsAndStackTemperature, clause by clause. -/
theorem witness_LevelsAndStackTemperature :
  (let s : State := { s0 with dram := { s0.dram with mem := Memory.writes [] 0 [0, 0, 5, 0, 4, 0] }, scripts := [(3, ⟨1, 5, [[6, 0, 0, 0, 0, 0, 0, 0]]⟩)] };
       let h : Hdr := h0;
       let vstep : Nat := 1;
       let n : Nat := 3;
       let d : DRef := ⟨0, 8, false, false⟩;
       let y : Batch := b1;
       let x : Script := ⟨1, 5, [[6, 0, 0, 0, 0, 0, 0, 0]]⟩;
       s.admits h 0x0105 [(d, true)] = true ∧ s.batch (cmdBatch h) = some y ∧ s.script n = some x ∧ s.ownsBuses (cmdBatch h) x = true ∧ vstep ≠ 0 ∧ d.len % 8 = 0 ∧ (
         let bs := s.dataIn h d;
         let es := levelEntries bs;
         ((∀ i, i < d.len / 8 → zeros bs (8 * i + 6) 2 = true)) ∧ es ≠ [] ∧ ((∀ e ∈ es, e.1 ≤ 511 ∧ s.sliceOwner.get 0 (e.1 / 16) = cmdBatch h ∧ s.powered (3 + e.1 / 16) = true ∧ e.2.2 ≤ e.2.1 ∧ x.codeFits 1 e.2.1 = true ∧ x.codeFits 2 e.2.2 = true)))) :=
  by decide +kernel

/-- States and operands that meet the hypotheses of TimingSets, clause by clause. -/
theorem witness_TimingSets :
  (let s : State := { s0 with dram := { s0.dram with mem := Memory.writes [] 0 [0, 0, 1] }, batches := [(1, { b1 with periods := [(0, ⟨500000, 0, 1⟩)] })] };
       let h : Hdr := h0;
       let d : DRef := ⟨0, 784, false, false⟩;
       let x : Batch := { b1 with periods := [(0, ⟨500000, 0, 1⟩)] };
       let p : Per := ⟨500000, 0, 1⟩;
       s.admits h 0x0100 [(d, true)] = true ∧ s.batch (cmdBatch h) = some x ∧ x.active = false ∧ (
         let img := (s.at_ h.t).dataIn h d;
         let n := (s.slices (cmdBatch h)).length;
         let set := fld img 0 1;
         d.len = imageLen n ∧ h.live = false ∧ x.holdsItem 1 set = false ∧ s.parkedSlice (cmdBatch h) = false ∧ imageRsv img n = false ∧ fld img 1 1 ≤ 63 ∧ fld img 2 1 = n ∧ ((∀ r ∈ imageRecs img n, r.unusedOk = true)) ∧ assoc x.periods (fld img 1 1) = some p ∧ recsLegal (imageRecs img n) p x.factors = true)) ∧
  (let s : State := { s0 with batches := [(1, { b1 with sets := [(255, ⟨1, 0, [], false⟩)] })] };
       let h : Hdr := h0;
       let set : Nat := 255;
       let x : Batch := { b1 with sets := [(255, ⟨1, 0, [], false⟩)] };
       s.admits h 0x0101 [] = true ∧ s.batch (cmdBatch h) = some x ∧ x.version set ≠ 0 ∧ x.active = false) ∧
  (let s : State := { s0 with batches := [(1, { b1 with state := 3, sets := [(255, ⟨1, 0, [], false⟩)] })] };
       let h : Hdr := h0;
       let set : Nat := 255;
       let x : Batch := { b1 with state := 3, sets := [(255, ⟨1, 0, [], false⟩)] };
       s.admits h 0x0101 [] = true ∧ s.batch (cmdBatch h) = some x ∧ x.version set ≠ 0 ∧ x.active = true) :=
  by refine ⟨?_, ?_, ?_⟩ <;> decide +kernel

/-- States and operands that meet the hypotheses of PeriodRecords, clause by clause. -/
theorem witness_PeriodRecords :
  (let p : Per := ⟨2 ^ 40 - 1, 0, 1⟩;
       p.n < p.d) ∧
  (let s : State := s0;
       let h : Hdr := h0;
       let p : Per := ⟨499999, 0, 1⟩;
       let x : Batch := b1;
       s.admits h 0x0116 [] = true ∧ s.batch (cmdBatch h) = some x ∧ p.legal = false) :=
  by refine ⟨?_, ?_⟩ <;> decide +kernel

/-- States and operands that meet the hypotheses of PeriodsAndOverride, clause by clause. -/
theorem witness_PeriodsAndOverride :
  (let s : State := s0;
       let h : Hdr := h0;
       let i : Nat := 63;
       let p : Per := ⟨500000, 0, 1⟩;
       let x : Batch := b1;
       s.admits h 0x0116 [] = true ∧ s.batch (cmdBatch h) = some x ∧ i ≤ 63 ∧ x.active = false ∧ x.holdsItem 2 i = false ∧ p.legal = true ∧ ((∀ c ∈ (s.at_ h.t).periodChecks (cmdBatch h) x i p, c.1 = false))) ∧
  (let s : State := s0;
       let h : Hdr := h0;
       let i : Nat := 255;
       let p : Per := ⟨2 ^ 40 - 1, 0, 1⟩;
       let x : Batch := b1;
       s.admits h 0x0116 [] = true ∧ s.batch (cmdBatch h) = some x ∧ (i ≤ 63 ∨ i = 255) ∧ ((∀ c ∈ (s.at_ h.t).overrideChecks (cmdBatch h) x ⟨p, i⟩, c.1 = false))) ∧
  (let s : State := { s0 with batches := [(1, { b1 with state := 3, periods := [(0, ⟨500000, 0, 1⟩)] })] };
       let h : Hdr := h0;
       let i : Nat := 255;
       let p : Per := ⟨2 ^ 40 - 1, 0, 1⟩;
       let x : Batch := { b1 with state := 3, periods := [(0, ⟨500000, 0, 1⟩)] };
       s.admits h 0x0116 [] = true ∧ s.batch (cmdBatch h) = some x ∧ (i ≤ 63 ∨ i = 255) ∧ ((∀ c ∈ (s.at_ h.t).overrideChecks (cmdBatch h) x ⟨p, i⟩, c.1 = false)) ∧ x.active = true) ∧
  (let s : State := s0;
       let h : Hdr := h0;
       let i : Nat := 255;
       let x : Batch := b1;
       s.admits h 0x0116 [] = true ∧ s.batch (cmdBatch h) = some x ∧ (i ≤ 63 ∨ i = 255)) ∧
  (let s : State := { s0 with batches := [(1, { b1 with state := 3, periods := [(0, ⟨500000, 0, 1⟩)] })] };
       let h : Hdr := h0;
       let i : Nat := 63;
       let x : Batch := { b1 with state := 3, periods := [(0, ⟨500000, 0, 1⟩)] };
       s.admits h 0x0116 [] = true ∧ s.batch (cmdBatch h) = some x ∧ (i ≤ 63 ∨ i = 255) ∧ x.active = true) :=
  by refine ⟨?_, ?_, ?_, ?_, ?_⟩ <;> decide +kernel

/-- States and operands that meet the hypotheses of ProgramsSegmentsSites, clause by clause. -/
theorem witness_ProgramsSegmentsSites :
  (let s : State := { s0 with dram := { s0.dram with mem := Memory.writes [] 0 [0, 0, 0, 0, 0, 0, 0, 63] } };
       let h : Hdr := h0;
       let d : DRef := ⟨0, 8, false, false⟩;
       let e : DRef := ⟨0, 0, false, false⟩;
       let x : Batch := b1;
       s.admits h 0x0102 [(d, true), (e, true)] = true ∧ s.batch (cmdBatch h) = some x ∧ d.len % 8 = 0 ∧ e.len % 40 = 0 ∧ (
         let ws := progWords ((s.at_ h.t).dataIn h d);
         let maps := pieces 40 (e.len / 40) ((s.at_ h.t).dataIn h e);
         ((∀ c ∈ (s.at_ h.t).progChecks (cmdBatch h) x ws maps, c.1 = false)))) ∧
  (let s : State := { s0 with dram := { s0.dram with mem := Memory.writes [] 64 ([16, 0, 0, 0, 0, 0, 0, 0] ++ List.replicate 32 0) } };
       let h : Hdr := h0;
       let p : SiteDefP := ⟨0, 65536, 1, 0, ⟨64, siteLen 16 0, false, false⟩⟩;
       let x : Batch := b1;
       s.admits h 0x0104 [(p.data, true)] = true ∧ s.batch (cmdBatch h) = some x ∧ (
         let bs := (s.at_ h.t).dataIn h p.data;
         let k := SiteBlock.ofBytes bs;
         8 ≤ p.data.len ∧ p.data.len = siteLen (fld bs 0 2) (fld bs 2 2) ∧ ((∀ c ∈ (s.at_ h.t).siteChecks (cmdBatch h) x p k, c.1 = false)))) :=
  by refine ⟨?_, ?_⟩ <;> decide +kernel

/-- States and operands that meet the hypotheses of ProgramsSegmentsSites_at, clause by clause. -/
theorem witness_ProgramsSegmentsSites_at :
  (let s : State := { s0 with dram := { s0.dram with mem := Memory.writes [] 0 (List.replicate 24 0) } };
       let h : Hdr := h0;
       let p : SegMapP := ⟨65535, 2, 0, 0, 64, 0, ⟨0, 24, false, false⟩⟩;
       let x : Batch := b1;
       (s.admits h 0x0103 [(p.data, true)] = true ∧ s.batch (cmdBatch h) = some x ∧ (
         let rs := (pieces 24 (p.data.len / 24) ((s.at_ h.t).dataIn h p.data)).map SegRec.ofBytes;
         p.mode < 64 ∧ x.active = false ∧ x.holdsItem 3 p.segid = false ∧ ((p.mode.testBit 0 = true → s.parkedSlice (cmdBatch h) = false)) ∧ p.data.len = 24 * (s.slices (cmdBatch h)).length ∧ ((∀ sl ∈ s.slices (cmdBatch h), ∃ r ∈ rs, r.sl = sl)) ∧ ((∀ c ∈ (s.at_ h.t).segChecks (cmdBatch h) x p rs, c.1 = false)))) ∧ (let rs := (pieces 24 (p.data.len / 24) ((s.at_ h.t).dataIn h p.data)).map SegRec.ofBytes;
         ((p.mode.testBit 0 = true → (∀ q, (s.stack q).frozen = false) ∧ ∀ r ∈ rs, s.inRegion (cmdBatch h) (stackAddr r.sl r.src) (segOf p rs).bytes = true ∧ s.cleanBlock (stackAddr r.sl r.src) (segOf p rs).bytes = true)))) :=
  ⟨by decide +kernel, fun h => absurd h (by decide +kernel)⟩

/-- States and operands that meet the hypotheses of StartArmsAndRuns, clause by clause. -/
theorem witness_StartArmsAndRuns :
  (let s : State := { s0 with batches := [(1, { b1 with state := 1, prog := [.halt ⟨false, 0⟩], periods := [(0, ⟨500000, 0, 1⟩)], site := { SiteCfg.zero with defined := true, siteOf := List.replicate 16 0, matchDelay := 4294967295 } })] };
       let h : Hdr := h0;
       let p : StartP := ⟨⟨0, 1000000000000⟩, 1, 0, 0, false⟩;
       let x : Batch := { b1 with state := 1, prog := [.halt ⟨false, 0⟩], periods := [(0, ⟨500000, 0, 1⟩)], site := { SiteCfg.zero with defined := true, siteOf := List.replicate 16 0, matchDelay := 4294967295 } };
       s.admits h 0x0106 [] = true ∧ s.batch (cmdBatch h) = some x ∧ ((∀ c ∈ (s.at_ h.t).startChecks (cmdBatch h) x p, c.1 = false))) ∧
  (let s : State := { s0 with batches := [(1, { b1 with state := 2, startT := 250000 })] };
       let b : Nat := 1;
       let x : Batch := { b1 with state := 2, startT := 250000 };
       s.batch b = some x ∧ x.state = 2 ∧ x.stopAt ≠ some 0) :=
  by refine ⟨?_, ?_⟩ <;> decide +kernel

/-- States and operands that meet the hypotheses of StopAtBoundary, clause by clause. -/
theorem witness_StopAtBoundary :
  (let s : State := { s0 with batches := [(1, { b1 with state := 2, startT := 1000000000 })] };
       let h : Hdr := h0;
       let x : Batch := { b1 with state := 2, startT := 1000000000 };
       s.admits h 0x0107 [] = true ∧ s.batch (cmdBatch h) = some x ∧ x.active = true) ∧
  (let s : State := { s0 with batches := [(1, { b1 with state := 3, causes := [(2, 3)], startKey := some (0, 5), seq := { Seq.zero with begun := 3, flight := [⟨3, ⟨0, 0, 1⟩, ⟨500000, 0, 1⟩, 1, [], 0, 0, 1, none, none, none, []⟩] } })], taps := [(0, { Tap.zero with asyncs := [⟨5, 0x106, 1⟩] })], waits := [⟨0, 6, 0x107, 1, 1, false, .stop⟩] };
       let b : Nat := 1;
       let r : Nat := 2;
       let v : Nat := 3;
       let x : Batch := { b1 with state := 3, causes := [(2, 3)], startKey := some (0, 5), seq := { Seq.zero with begun := 3, flight := [⟨3, ⟨0, 0, 1⟩, ⟨500000, 0, 1⟩, 1, [], 0, 0, 1, none, none, none, []⟩] } };
       s.batch b = some x ∧ x.active = true ∧ x.causes = [(r, v)] ∧ x.thr = [] ∧ v ≤ x.seq.begun) ∧
  (let s : State := s0;
       let b : Nat := 1;
       let x : Batch := b1;
       s.batch b = some x ∧ x.causes = []) :=
  by refine ⟨?_, ?_, ?_⟩ <;> decide +kernel

/-- States and operands that meet the hypotheses of StatusSnapshotFailRead_1, clause by clause. -/
theorem witness_StatusSnapshotFailRead_1 :
  (let s : State := s0;
       let h : Hdr := h0;
       let d : DRef := ⟨0, 0, false, false⟩;
       let x : Batch := b1;
       s.admits h 0x0108 [(d, false)] = true ∧ s.batch (cmdBatch h) = some x ∧ d.len = 0) ∧
  (let s : State := s0;
       let h : Hdr := h0;
       let d : DRef := d0;
       let x : Batch := b1;
       s.admits h 0x0108 [(d, false)] = true ∧ s.batch (cmdBatch h) = some x ∧ d.len ≠ 0 ∧ (statusData x).length ≤ d.len) ∧
  (let s : State := s0;
       let h : Hdr := h0;
       let p : SnapP := ⟨0, 1, 0, ⟨0, 0⟩, 0, d0⟩;
       let x : Batch := b1;
       s.admits h 0x0109 [(p.data, false)] = true ∧ s.batch (cmdBatch h) = some x ∧ p.when_ = 0 ∧ x.active = false ∧ ((∀ k ∈ ones p.cmask 256, (s.ctr k).owner = cmdBatch h)) ∧ (s.at_ h.t).snapLen (cmdBatch h) x p ≤ p.data.len ∧ x.judgedTo x.stopV = true) ∧
  (let s : State := { s0 with batches := [(1, { b1 with state := 3 })] };
       let h : Hdr := h0;
       let p : SnapP := ⟨1, 1, 1000000, ⟨0, 0⟩, 0, d0⟩;
       let x : Batch := { b1 with state := 3 };
       s.admits h 0x0109 [(p.data, false)] = true ∧ s.batch (cmdBatch h) = some x ∧ p.when_ = 1 ∧ x.active = true ∧ ((∀ k ∈ ones p.cmask 256, (s.ctr k).owner = cmdBatch h)) ∧ (s.at_ h.t).snapLen (cmdBatch h) x p ≤ p.data.len ∧ x.snapLate p (s.at_ h.t).now = false) ∧
  (let s : State := { s0 with waits := [⟨0, 9, 0x109, 1, 1, false, .snapshot ⟨0, 1, 0, ⟨0, 0⟩, 0, d0⟩ none (some 3) (some ⟨0, [], []⟩)⟩] };
       let h : Hdr := h0;
       let n : Nat := 1;
       let purge : Bool := false;
       let d : DRef := ⟨0, 64, false, false⟩;
       let x : Batch := b1;
       s.admits h 0x010A [(d, false)] = true ∧ s.batch (cmdBatch h) = some x ∧ n ≠ 0 ∧ (if purge then d.len = 0 else 32 * n ≤ d.len) ∧ (s.at_ h.t).capturing (cmdBatch h) = true) :=
  by refine ⟨?_, ?_, ?_, ?_, ?_⟩ <;> decide +kernel

/-- States and operands that meet the hypotheses of StatusSnapshotFailRead_2, clause by clause. -/
theorem witness_StatusSnapshotFailRead_2 :
  (let s : State := { s0 with batches := [(1, { b1 with held := [(⟨0, 1, 2, 3, 0, 1, 1, 0, 0, 0⟩, 0), (⟨0, 1, 2, 3, 0, 1, 1, 0, 0, 0⟩, 32)] })] };
       let h : Hdr := h0;
       let n : Nat := 1;
       let d : DRef := ⟨0, 64, false, false⟩;
       let x : Batch := { b1 with held := [(⟨0, 1, 2, 3, 0, 1, 1, 0, 0, 0⟩, 0), (⟨0, 1, 2, 3, 0, 1, 1, 0, 0, 0⟩, 32)] };
       s.admits h 0x010A [(d, false)] = true ∧ s.batch (cmdBatch h) = some x ∧ n ≠ 0 ∧ 32 * n ≤ d.len ∧ (s.at_ h.t).capturing (cmdBatch h) = false ∧ ((∀ r ∈ x.held.take n, s.inRegion (cmdBatch h) r.2 32 = true ∧ s.cleanBlock r.2 32 = true))) ∧
  (let s : State := { s0 with batches := [(1, { b1 with held := [(⟨0, 1, 2, 3, 0, 1, 1, 0, 0, 0⟩, 0), (⟨0, 1, 2, 3, 0, 1, 1, 0, 0, 0⟩, 32)] })] };
       let h : Hdr := h0;
       let n : Nat := 1;
       let d : DRef := ⟨0, 0, false, false⟩;
       let x : Batch := { b1 with held := [(⟨0, 1, 2, 3, 0, 1, 1, 0, 0, 0⟩, 0), (⟨0, 1, 2, 3, 0, 1, 1, 0, 0, 0⟩, 32)] };
       s.admits h 0x010A [(d, false)] = true ∧ s.batch (cmdBatch h) = some x ∧ n ≠ 0 ∧ d.len = 0 ∧ (s.at_ h.t).capturing (cmdBatch h) = false) :=
  by refine ⟨?_, ?_⟩ <;> decide +kernel

/-- States and operands that meet the hypotheses of AcquisitionCommands, clause by clause. -/
theorem witness_AcquisitionCommands :
  (let s : State := { s0 with acqs := [(0, { Acq.zero with cfg := some ⟨0, 0, 0, 0, 0, 0xFFFF, 0, 0, 1, 1, 0, 100000000, 1, 16, 4096, 0, 1⟩, recs := [⟨0, 0, 64⟩] })] };
       let h : Hdr := h0;
       let n : Nat := 0;
       let c : AcqCfg := ⟨0, 0, 0, 0, 0, 0xFFFF, 0, 0, 1, 1, 0, 100000000, 1, 16, 4096, 0, 1⟩;
       s.admits h 0x010C [] = true ∧ n < 12 ∧ s.acqOwner.get 0 n = cmdBatch h ∧ (s.acq n).cfg = some c ∧ s.acqPowered n = true ∧ (s.acq n).armed = false) ∧
  (let s : State := { s0 with acqs := [(0, { Acq.zero with cfg := some ⟨0, 0, 0, 0, 0, 0xFFFF, 0, 0, 1, 1, 0, 100000000, 1, 16, 4096, 0, 1⟩, recs := [⟨0, 0, 64⟩, ⟨1, 64, 64⟩] })] };
       let h : Hdr := h0;
       let n : Nat := 0;
       let k : Nat := 1;
       let d : DRef := ⟨0, 65536, false, false⟩;
       let c : AcqCfg := ⟨0, 0, 0, 0, 0, 0xFFFF, 0, 0, 1, 1, 0, 100000000, 1, 16, 4096, 0, 1⟩;
       s.admits h 0x010D [(d, false)] = true ∧ n < 12 ∧ s.acqOwner.get 0 n = cmdBatch h ∧ (s.acq n).cfg = some c ∧ k ≠ 0 ∧ k * slotBytes c ≤ d.len ∧ ((∀ r ∈ (s.acq n).recs.take k, s.inRegion (cmdBatch h) r.addr r.len = true ∧ s.cleanBlock r.addr r.len = true))) ∧
  (let s : State := { s0 with acqs := [(0, { Acq.zero with cfg := some ⟨0, 0, 0, 0, 0, 0xFFFF, 0, 0, 1, 1, 0, 100000000, 1, 16, 4096, 0, 1⟩, res := [⟨0, 1, false, false, false, 16, 5, 0, 0⟩] })] };
       let h : Hdr := h0;
       let n : Nat := 0;
       let k : Nat := 2;
       let d : DRef := ⟨0, 64, false, false⟩;
       s.admits h 0x010D [(d, false)] = true ∧ n < 12 ∧ s.acqOwner.get 0 n = cmdBatch h ∧ k ≠ 0 ∧ k * 32 ≤ d.len) :=
  by refine ⟨?_, ?_, ?_⟩ <;> decide +kernel

/-- States and operands that meet the hypotheses of AcquisitionCommands_at_1, clause by clause. -/
theorem witness_AcquisitionCommands_at_1 :
  (let s : State := s0;
       let h : Hdr := h0;
       let c : AcqCfg := ⟨0, 0, 0, 0, 0, 0xFFFF, 0, 0, 1, 1, 0, 100000000, 1, 16, 4096, 0, 1⟩;
       (s.admits h 0x010B [] = true ∧ c.acq < 12 ∧ s.acqOwner.get 0 c.acq = cmdBatch h ∧ (s.acq c.acq).armed = false ∧ acqRsv c = false ∧ acqBad c = false ∧ c.srcA < 512 ∧ s.sliceOwner.get 0 (c.srcA / 16) = cmdBatch h ∧ ((c.srcB = 0xFFFF ∨ (c.srcB < 512 ∧ s.sliceOwner.get 0 (c.srcB / 16) = cmdBatch h))) ∧ c.pre + c.post ≤ 100000000000000000 ∧ 100000000 ≤ c.recint ∧ ((c.measmask.testBit 8 = true → c.srcB ≠ 0xFFFF)) ∧ c.ringaddr % 64 = 0 ∧ s.inStack (cmdBatch h) (c.acq / 3) c.ringaddr (c.ringslots * slotBytes c) = true) ∧ (((∀ n, (s.acq n).ls = none)))) :=
  ⟨by decide +kernel, fun _ => rfl⟩

/-- States and operands that meet the hypotheses of AcquisitionCommands_at_2, clause by clause. -/
theorem witness_AcquisitionCommands_at_2 :
  (let s : State := { s0 with acqs := [(0, { Acq.zero with cfg := some ⟨0, 0, 0, 0, 0, 0xFFFF, 0, 0, 1, 1, 0, 100000000, 1, 16, 4096, 0, 1⟩, armed := true, recs := [⟨0, 0, 64⟩] })] };
       let h : Hdr := h0;
       let n : Nat := 0;
       (s.admits h 0x010C [] = true ∧ n < 12 ∧ s.acqOwner.get 0 n = cmdBatch h) ∧ (((∀ k, (s.acq k).ls = none)))) :=
  ⟨by decide +kernel, fun k => by change (Tab.get Acq.zero [(0, _)] k).ls = none; unfold Tab.get; split <;> rfl⟩

/-- States and operands that meet the hypotheses of FlowsStreamsCounters_1, clause by clause. -/
theorem witness_FlowsStreamsCounters_1 :
  (let s : State := { s0 with dram := { s0.dram with mem := Memory.writes [] 64 [0, 0, 1, 0, 0, 1, 0, 0, 0, 0, 0, 0, 0, 0, 0, 0, 16, 0] } };
       let h : Hdr := h0;
       let d : DRef := ⟨64, 128, false, false⟩;
       let x : Batch := b1;
       s.admits h 0x010E [(d, true)] = true ∧ s.batch (cmdBatch h) = some x ∧ (
         let bs := (s.at_ h.t).dataIn h d;
         fld bs 0 1 = 0 ∧ 64 + 64 * fld bs 2 2 ≤ d.len ∧ ((∀ c ∈ (s.at_ h.t).flowChecks (cmdBatch h) x bs, c.1 = false)))) ∧
  (let s : State := { s0 with dram := { s0.dram with mem := Memory.writes [] 64 [1] }, batches := [(1, { b1 with flow := { Flow.zero with loaded := true, steps := [⟨0, 0, 0, 0, 0, 0, 0, 0, false, false, 0, 0, 0, 0, 0⟩] } })] };
       let h : Hdr := h0;
       let d : DRef := ⟨64, 64, false, false⟩;
       let x : Batch := { b1 with flow := { Flow.zero with loaded := true, steps := [⟨0, 0, 0, 0, 0, 0, 0, 0, false, false, 0, 0, 0, 0, 0⟩] } };
       s.admits h 0x010E [(d, true)] = true ∧ s.batch (cmdBatch h) = some x ∧ (
         let bs := (s.at_ h.t).dataIn h d;
         fld bs 0 1 = 1 ∧ 64 ≤ d.len ∧ ((∀ c ∈ (s.at_ h.t).flowChecks (cmdBatch h) x bs, c.1 = false)))) ∧
  (let s : State := { s0 with dram := { s0.dram with mem := Memory.writes [] 64 [2] }, batches := [(1, { b1 with flow := { Flow.zero with loaded := true, steps := [⟨0, 0, 0, 0, 0, 0, 0, 0, false, false, 0, 0, 0, 0, 0⟩], active := true, phase := 1 } })] };
       let h : Hdr := h0;
       let d : DRef := ⟨64, 64, false, false⟩;
       let x : Batch := { b1 with flow := { Flow.zero with loaded := true, steps := [⟨0, 0, 0, 0, 0, 0, 0, 0, false, false, 0, 0, 0, 0, 0⟩], active := true, phase := 1 } };
       s.admits h 0x010E [(d, true)] = true ∧ s.batch (cmdBatch h) = some x ∧ (
         let bs := (s.at_ h.t).dataIn h d;
         fld bs 0 1 = 2 ∧ 64 ≤ d.len ∧ ((∀ c ∈ (s.at_ h.t).flowChecks (cmdBatch h) x bs, c.1 = false)) ∧ x.flow.phase ≠ 0 ∧ x.flow.phase ≠ 4)) ∧
  (let s : State := { s0 with ctrs := [(3, { Ctr.zero with value := 9, ovf := true })] };
       let h : Hdr := { h0 with target := 0 };
       let c : Nat := 3;
       let kind : Nat := 0;
       let source : Nat := 0x0700;
       let scope : Nat := 0;
       let k : SrcClass := .d;
       s.admits h 0x0110 [] = true ∧ (s.ctr c).owner = cmdBatch h ∧ kind ≤ 2 ∧ srcClass source = some k ∧ ((kind = 0 → scope = 0)) ∧ ((cmdBatch h ≠ 0 → k ≠ .d ∧ k ≠ .l)) ∧ k.allows (cmdBatch h != 0) kind = true ∧ s.ownsScope (cmdBatch h) k kind scope = true) ∧
  (let s : State := { s0 with batches := [(1, { b1 with flow := { Flow.zero with loaded := true, dlslots := 16, pinEn := true } })] };
       let pin : Nat := 0;
       let x : Batch := { b1 with flow := { Flow.zero with loaded := true, dlslots := 16, pinEn := true } };
       let b := s.trigInOwner.get 0 pin;
         s.batch b = some x ∧ x.flow.loaded = true ∧ x.flow.pinEn = true ∧ x.flow.pin = pin ∧ x.flow.active = false) :=
  by refine ⟨?_, ?_, ?_, ?_, ?_⟩ <;> decide +kernel

/-- States and operands that meet the hypotheses of FlowsStreamsCounters_2, clause by clause. -/
theorem witness_FlowsStreamsCounters_2 :
  (let s : State := { s0 with batches := [(1, { b1 with flow := { Flow.zero with loaded := true, dlslots := 16 } })], trigIn := [(0, ⟨true, true⟩)] };
       let pin : Nat := 0;
       let fall : Bool := true;
       let x : Batch := { b1 with flow := { Flow.zero with loaded := true, dlslots := 16 } };
       let b := s.trigInOwner.get 0 pin;
         s.batch b = some x ∧ x.flow.loaded = true ∧ (s.trigIn.get TrigIn.zero pin).post = true ∧ (s.trigIn.get TrigIn.zero pin).fall = fall ∧ s.queueFull b 0 = false) ∧
  (let s : State := { s0 with batches := [(1, { b1 with flow := { Flow.zero with loaded := true, dlslots := 16, active := true, phase := 2, timeoutAt := 125000, steps := [⟨2, 0, 0, 0, 0, 0, 0, 1, false, false, 0, 0, 1, 1, 0⟩] } })], acqs := [(0, { Acq.zero with cfg := some ⟨0, 0, 0, 0, 0, 0xFFFF, 0, 0, 1, 1, 0, 100000000, 1, 16, 4096, 0, 1⟩, armed := true })] };
       let b : Nat := 1;
       let t : Nat := 125000;
       (s.flow b).phase = 2 ∧ (s.flow b).timeoutAt ≤ t) ∧
  (let s : State := { s0 with batches := [(1, { b1 with flow := { Flow.zero with loaded := true, dlslots := 16, produced := 3 } })] };
       let b : Nat := 1;
       let v : Nat := 3;
       let x : Batch := { b1 with flow := { Flow.zero with loaded := true, dlslots := 16, produced := 3 } };
       s.batch b = some x ∧ x.flow.loaded = true ∧ x.flow.dlnet = false ∧ x.flow.consumed ≤ v ∧ v ≤ x.flow.produced) ∧
  (let s : State := { s0 with batches := [(1, { b1 with flow := { Flow.zero with loaded := true, dlslots := 16, dlnet := true, resolved := true, produced := 1, dldest := 0xFFFF00000006 } })], sched := { s0.sched with cores := [(7, ⟨1, 0x202, 3, 1, .frame, none⟩)] }, eths := [(0, { Eth.zero with link := true, addr := 5, plen := 24, en := true })] };
       let b : Nat := 1;
       let t : Nat := 10000000000;
       let x : Batch := { b1 with flow := { Flow.zero with loaded := true, dlslots := 16, dlnet := true, resolved := true, produced := 1, dldest := 0xFFFF00000006 } };
       let f := x.flow;
         let n := min 64 f.waitingRecords;
         s.batch b = some x ∧ s.canFrame f = true ∧ s.framing b = true ∧ n ≠ 0 ∧ ((n = 64 ∨ f.oldest + 10000000000 ≤ (s.at_ t).todNow)) ∧ (s.stack (aStack (s.ringBase b f + 64))).frozen = false) ∧
  (let s : State := { s0 with batches := [(1, { b1 with flow := { Flow.zero with loaded := true, dlslots := 16, dlnet := true, resolving := true, produced := 1 } })] };
       let b : Nat := 1;
       let x : Batch := { b1 with flow := { Flow.zero with loaded := true, dlslots := 16, dlnet := true, resolving := true, produced := 1 } };
       s.batch b = some x ∧ x.flow.resolving = true) :=
  by refine ⟨?_, ?_, ?_, ?_, ?_⟩ <;> decide +kernel

/-- States and operands that meet the hypotheses of FlowsStreamsCounters_at, clause by clause. -/
theorem witness_FlowsStreamsCounters_at :
  (let s : State := { s0 with batches := [(1, { b1 with segs := [(7, ⟨false, false, 0, true, true, 0, 0, 64, 4, [⟨0, 0, 0⟩]⟩)] })] };
       let h : Hdr := h0;
       let segid : Nat := 7;
       let cb : Nat := 64;
       let d : DRef := ⟨0, 8, false, false⟩;
       let x : Batch := { b1 with segs := [(7, ⟨false, false, 0, true, true, 0, 0, 64, 4, [⟨0, 0, 0⟩]⟩)] };
       let g : Seg := ⟨false, false, 0, true, true, 0, 0, 64, 4, [⟨0, 0, 0⟩]⟩;
       (s.admits h 0x010F [(d, true)] = true ∧ s.batch (cmdBatch h) = some x ∧ x.active = false ∧ assoc x.segs segid = some g ∧ g.sparge = true ∧ (
         let n := (s.slices (cmdBatch h)).length;
         let bs := (s.at_ h.t).dataIn h d;
         d.len = 8 * g.m * n ∧ cb % 64 = 0 ∧ s.inStack (cmdBatch h) (s.lowSlice (cmdBatch h) / 8) cb 64 = true ∧ State.keepBad bs = false ∧ badNibbles bs = false)) ∧ (((∀ q, (s.stack q).frozen = false)))) :=
  ⟨by decide +kernel, fun _ => rfl⟩

/-- States and operands that meet the hypotheses of EpochCommit_1, clause by clause. -/
theorem witness_EpochCommit_1 :
  (let s : State := { s0 with dram := { s0.dram with mem := Memory.writes [] 0 (le 5 500000 ++ le 2 0 ++ le 2 1 ++ le 3 0) }, batches := [(1, { b1 with periods := [(0, ⟨500000, 0, 1⟩)], ep := { Epoch.zero with group := 9 } })] };
       let h : Hdr := h0;
       let p : StageP := ⟨9, 2, false, false, 5, 63, ⟨0, 12, false, false⟩⟩;
       let x : Batch := { b1 with periods := [(0, ⟨500000, 0, 1⟩)], ep := { Epoch.zero with group := 9 } };
       s.admits h 0x0111 [(p.data, true)] = true ∧ s.batch (cmdBatch h) = some x ∧ p.discard = false ∧ p.fin = false ∧ stageBad p = false ∧ x.otherUnit p = false ∧ x.ep.staged = false ∧ (
         let bs := (s.at_ h.t).dataIn h p.data;
         ((p.kind = 1 → p.data.len = imageLen (s.slices (cmdBatch h)).length)) ∧ (x.stageItem p bs).ep.items.length ≤ 256 ∧ ((∀ c ∈ (s.at_ h.t).itemChecks (cmdBatch h) x p bs, c.1 = false)))) ∧
  (let s : State := { s0 with batches := [(1, { b1 with periods := [(0, ⟨500000, 0, 1⟩)], ep := { Epoch.zero with items := [⟨2, 0, le 5 500000 ++ le 2 0 ++ le 2 1 ++ le 3 0⟩], group := 9, epoch := 5 } })] };
       let h : Hdr := h0;
       let p : StageP := ⟨9, 0, true, false, 5, 0, ⟨0, 0, false, false⟩⟩;
       let x : Batch := { b1 with periods := [(0, ⟨500000, 0, 1⟩)], ep := { Epoch.zero with items := [⟨2, 0, le 5 500000 ++ le 2 0 ++ le 2 1 ++ le 3 0⟩], group := 9, epoch := 5 } };
       s.admits h 0x0111 [(p.data, true)] = true ∧ s.batch (cmdBatch h) = some x ∧ p.discard = false ∧ p.fin = true ∧ stageBad p = false ∧ x.otherUnit p = false ∧ x.ep.staged = false ∧ (s.tap h.tap).asyncs.length < 16 ∧ ((∀ c ∈ (s.at_ h.t).finalChecks (cmdBatch h) x, c.1 = false))) ∧
  (let s : State := { s0 with batches := [(1, { b1 with periods := [(0, ⟨500000, 0, 1⟩)], ep := { Epoch.zero with items := [⟨2, 0, le 5 500000 ++ le 2 0 ++ le 2 1 ++ le 3 0⟩], group := 9, epoch := 5 } })] };
       let h : Hdr := h0;
       let p : StageP := ⟨9, 0, false, true, 5, 0, ⟨0, 0, false, false⟩⟩;
       let x : Batch := { b1 with periods := [(0, ⟨500000, 0, 1⟩)], ep := { Epoch.zero with items := [⟨2, 0, le 5 500000 ++ le 2 0 ++ le 2 1 ++ le 3 0⟩], group := 9, epoch := 5 } };
       s.admits h 0x0111 [(p.data, true)] = true ∧ s.batch (cmdBatch h) = some x ∧ p.discard = true ∧ stageBad p = false ∧ x.otherUnit p = false ∧ x.ep.fin = none) ∧
  (let s : State := { s0 with batches := [(1, { b1 with periods := [(0, ⟨500000, 0, 1⟩)], ep := { Epoch.zero with items := [⟨2, 0, le 5 500000 ++ le 2 0 ++ le 2 1 ++ le 3 0⟩], group := 9, epoch := 5 } })] };
       let h : Hdr := h0;
       let p : CommitP := ⟨9, 1, 5, 1, ⟨0, 999999999999999⟩⟩;
       let x : Batch := { b1 with periods := [(0, ⟨500000, 0, 1⟩)], ep := { Epoch.zero with items := [⟨2, 0, le 5 500000 ++ le 2 0 ++ le 2 1 ++ le 3 0⟩], group := 9, epoch := 5 } };
       s.admits h 0x0112 [] = true ∧ s.batch (cmdBatch h) = some x ∧ ((∀ c ∈ (s.at_ h.t).commitChecks (cmdBatch h) x p, c.1 = false)) ∧ s.otherDevs p.dmask = []) ∧
  (let s : State := { s0 with batches := [(1, { b1 with periods := [(0, ⟨500000, 0, 1⟩)], ep := { Epoch.zero with items := [⟨2, 0, le 5 500000 ++ le 2 0 ++ le 2 1 ++ le 3 0⟩], group := 9, epoch := 5, staged := true } })], commits := [⟨9, 5, 1, 1, 1000000000000, 1000000000, 900000000000, none, 0, [], false, 0⟩] };
       let g : Nat := 9;
       let t : Nat := 1000000000;
       let c : CommitS := ⟨9, 5, 1, 1, 1000000000000, 1000000000, 900000000000, none, 0, [], false, 0⟩;
       s.commits = [c] ∧ c.group = g ∧ c.state = 0 ∧ c.fixed = false ∧ c.deadline ≤ t ∧ ones c.dmask 64 = [s.cdev] ∧ c.verdicts = [] ∧ ((∀ b ∈ c.units, s.inTime c b = true))) :=
  by refine ⟨?_, ?_, ?_, ?_, ?_⟩ <;> decide +kernel

/-- States and operands that meet the hypotheses of EpochCommit_2, clause by clause. -/
theorem witness_EpochCommit_2 :
  (let s : State := { s0 with batches := [(1, { b1 with periods := [(0, ⟨500000, 0, 1⟩)], ep := { Epoch.zero with items := [⟨2, 0, le 5 500000 ++ le 2 0 ++ le 2 1 ++ le 3 0⟩], group := 9, epoch := 5 } })], commits := [⟨9, 5, 1, 1, 1000000000000, 1000000000, 900000000000, none, 0, [], false, 0⟩] };
       let g : Nat := 9;
       let t : Nat := 1000000000;
       let b0 : Nat := 1;
       let c : CommitS := ⟨9, 5, 1, 1, 1000000000000, 1000000000, 900000000000, none, 0, [], false, 0⟩;
       let x : Batch := { b1 with periods := [(0, ⟨500000, 0, 1⟩)], ep := { Epoch.zero with items := [⟨2, 0, le 5 500000 ++ le 2 0 ++ le 2 1 ++ le 3 0⟩], group := 9, epoch := 5 } };
       s.commits = [c] ∧ c.group = g ∧ c.state = 0 ∧ c.fixed = false ∧ c.deadline ≤ t ∧ ones c.dmask 64 = [s.cdev] ∧ c.verdicts = [] ∧ b0 ∈ c.units ∧ s.inTime c b0 = false ∧ s.batch b0 = some x) ∧
  (let s : State := { s0 with batches := [(1, { b1 with periods := [(0, ⟨500000, 0, 1⟩)], ep := { Epoch.zero with items := [⟨2, 0, le 5 500000 ++ le 2 0 ++ le 2 1 ++ le 3 0⟩], group := 9, epoch := 5 } })], commits := [⟨9, 5, 1, 3, 1000000000000, 1000000000, 900000000000, none, 0, [], false, 0⟩] };
       let g : Nat := 9;
       let dev : Nat := 1;
       let c : CommitS := ⟨9, 5, 1, 3, 1000000000000, 1000000000, 900000000000, none, 0, [], false, 0⟩;
       s.commits = [c] ∧ c.group = g ∧ c.state = 0 ∧ c.dmask.testBit dev = true ∧ dev ≠ s.cdev ∧ dev < 64 ∧ ((∃ d ∈ ones c.dmask 64, d ≠ dev ∧ assoc c.verdicts d = none))) ∧
  (let s : State := { s0 with batches := [(1, { b1 with periods := [(0, ⟨500000, 0, 1⟩)], ep := { Epoch.zero with items := [⟨2, 0, le 5 500000 ++ le 2 0 ++ le 2 1 ++ le 3 0⟩], group := 9, epoch := 5 } })], commits := [⟨9, 5, 1, 3, 1000000000000, 1000000000, 900000000000, none, 0, [], false, 0⟩] };
       let g : Nat := 9;
       let t : Nat := 900000000000;
       let b0 : Nat := 1;
       let c : CommitS := ⟨9, 5, 1, 3, 1000000000000, 1000000000, 900000000000, none, 0, [], false, 0⟩;
       let x : Batch := { b1 with periods := [(0, ⟨500000, 0, 1⟩)], ep := { Epoch.zero with items := [⟨2, 0, le 5 500000 ++ le 2 0 ++ le 2 1 ++ le 3 0⟩], group := 9, epoch := 5 } };
       s.commits = [c] ∧ c.group = g ∧ c.state = 0 ∧ c.tc ≤ t ∧ b0 ∈ c.units ∧ s.batch b0 = some x) ∧
  (let s : State := { s0 with batches := [(1, { b1 with periods := [(0, ⟨500000, 0, 1⟩)], ep := { Epoch.zero with items := [⟨2, 0, le 5 500000 ++ le 2 0 ++ le 2 1 ++ le 3 0⟩], group := 9, epoch := 5, staged := true } })], commits := [⟨9, 5, 1, 1, 1000000000000, 1000000000, 900000000000, none, 0, [], false, 1⟩] };
       let g : Nat := 9;
       let t : Nat := 999999999999;
       let b0 : Nat := 1;
       let c : CommitS := ⟨9, 5, 1, 1, 1000000000000, 1000000000, 900000000000, none, 0, [], false, 1⟩;
       let x : Batch := { b1 with periods := [(0, ⟨500000, 0, 1⟩)], ep := { Epoch.zero with items := [⟨2, 0, le 5 500000 ++ le 2 0 ++ le 2 1 ++ le 3 0⟩], group := 9, epoch := 5, staged := true } };
       s.commits = [c] ∧ c.group = g ∧ t < c.t ∧ b0 ∈ c.units ∧ s.batch b0 = some x) ∧
  (let s : State := { s0 with batches := [(1, { b1 with periods := [(0, ⟨500000, 0, 1⟩)], ep := { Epoch.zero with items := [⟨2, 0, le 5 500000 ++ le 2 0 ++ le 2 1 ++ le 3 0⟩], group := 9, epoch := 5, staged := true, thr := some 1000000000000 } })], commits := [⟨9, 5, 1, 1, 1000000000000, 1000000000, 900000000000, none, 0, [], false, 1⟩] };
       let g : Nat := 9;
       let t : Nat := 1000000000000;
       let b : Nat := 1;
       let c : CommitS := ⟨9, 5, 1, 1, 1000000000000, 1000000000, 900000000000, none, 0, [], false, 1⟩;
       let x : Batch := { b1 with periods := [(0, ⟨500000, 0, 1⟩)], ep := { Epoch.zero with items := [⟨2, 0, le 5 500000 ++ le 2 0 ++ le 2 1 ++ le 3 0⟩], group := 9, epoch := 5, staged := true, thr := some 1000000000000 } };
       s.commits = [c] ∧ c.group = g ∧ c.state = 1 ∧ c.t ≤ t ∧ c.key = none ∧ c.units = [b] ∧ s.batch b = some x ∧ x.state ≠ 3 ∧ x.ep.thr = some c.t ∧ ((∀ i ∈ x.ep.items, i.kind ≠ 3)) ∧ x.ep.fin = none) :=
  by refine ⟨?_, ?_, ?_, ?_, ?_⟩ <;> decide +kernel

/-- States and operands that meet the hypotheses of PatternWordsRoundTrip, clause by clause. -/
theorem witness_PatternWordsRoundTrip :
  (let i : PInstr := .mtch 1 2 3;
       i.wf = true) :=
  by decide +kernel

/-- States and operands that meet the hypotheses of PatternFlow_1, clause by clause. -/
theorem witness_PatternFlow_1 :
  (let stands := fun (s : State) (b : Nat) (x : Batch) (i : PInstr) =>
         s.batch b = some x ∧ x.executes = true ∧ x.prog[x.seq.pc]? = some i;
       let s : State := { s0 with batches := [(1, { b1 with state := 3, prog := [.nop], seq := { Seq.zero with pc := 0 } })] };
       let b : Nat := 1;
       let x : Batch := { b1 with state := 3, prog := [.nop], seq := { Seq.zero with pc := 0 } };
       stands s b x .nop) ∧
  (let stands := fun (s : State) (b : Nat) (x : Batch) (i : PInstr) =>
         s.batch b = some x ∧ x.executes = true ∧ x.prog[x.seq.pc]? = some i;
       let s : State := { s0 with batches := [(1, { b1 with state := 3, prog := [.vec 7 65535], seq := { Seq.zero with pc := 0 }, segs := [(7, ⟨true, true, 0, false, false, 0, 0, 64, 0, [⟨0, 0, 0⟩]⟩)] })] };
       let b : Nat := 1;
       let seg : Nat := 7;
       let count : Nat := 65535;
       let x : Batch := { b1 with state := 3, prog := [.vec 7 65535], seq := { Seq.zero with pc := 0 }, segs := [(7, ⟨true, true, 0, false, false, 0, 0, 64, 0, [⟨0, 0, 0⟩]⟩)] };
       stands s b x (.vec seg count) ∧ count ≠ 0) ∧
  (let stands := fun (s : State) (b : Nat) (x : Batch) (i : PInstr) =>
         s.batch b = some x ∧ x.executes = true ∧ x.prog[x.seq.pc]? = some i;
       let s : State := { s0 with batches := [(1, { b1 with state := 3, prog := [.rpt 1], seq := { Seq.zero with last := some ⟨7, 0, 1, false, false, 0, 0, 0, 0, 0, false, 0⟩ }, segs := [(7, ⟨true, true, 0, false, false, 0, 0, 64, 0, [⟨0, 0, 0⟩]⟩)] })] };
       let b : Nat := 1;
       let count : Nat := 1;
       let x : Batch := { b1 with state := 3, prog := [.rpt 1], seq := { Seq.zero with last := some ⟨7, 0, 1, false, false, 0, 0, 0, 0, 0, false, 0⟩ }, segs := [(7, ⟨true, true, 0, false, false, 0, 0, 64, 0, [⟨0, 0, 0⟩]⟩)] };
       let r : Run := ⟨7, 0, 1, false, false, 0, 0, 0, 0, 0, false, 0⟩;
       stands s b x (.rpt count) ∧ count ≠ 0 ∧ x.seq.last = some r) ∧
  (let stands := fun (s : State) (b : Nat) (x : Batch) (i : PInstr) =>
         s.batch b = some x ∧ x.executes = true ∧ x.prog[x.seq.pc]? = some i;
       let s : State := { s0 with batches := [(1, { b1 with state := 3, prog := [.loop 5], seq := { Seq.zero with pc := 0 } })] };
       let b : Nat := 1;
       let count : Nat := 5;
       let x : Batch := { b1 with state := 3, prog := [.loop 5], seq := { Seq.zero with pc := 0 } };
       stands s b x (.loop count)) ∧
  (let stands := fun (s : State) (b : Nat) (x : Batch) (i : PInstr) =>
         s.batch b = some x ∧ x.executes = true ∧ x.prog[x.seq.pc]? = some i;
       let s : State := { s0 with batches := [(1, { b1 with state := 3, prog := [.endl], seq := { Seq.zero with loops := [⟨0, 5, 2⟩] } })] };
       let b : Nat := 1;
       let x : Batch := { b1 with state := 3, prog := [.endl], seq := { Seq.zero with loops := [⟨0, 5, 2⟩] } };
       let l : LoopE := ⟨0, 5, 2⟩;
       let ls : List LoopE := [];
       stands s b x .endl ∧ x.seq.loops = l :: ls) :=
  by refine ⟨?_, ?_, ?_, ?_, ?_⟩ <;> decide +kernel

/-- States and operands that meet the hypotheses of PatternFlow_2, clause by clause. -/
theorem witness_PatternFlow_2 :
  (let stands := fun (s : State) (b : Nat) (x : Batch) (i : PInstr) =>
         s.batch b = some x ∧ x.executes = true ∧ x.prog[x.seq.pc]? = some i;
       let s : State := { s0 with batches := [(1, { b1 with state := 3, prog := [.jmp ⟨true, 0x20⟩ 0], seq := { Seq.zero with matchOk := true } })] };
       let b : Nat := 1;
       let target : Nat := 0;
       let c : Cond := ⟨true, 0x20⟩;
       let x : Batch := { b1 with state := 3, prog := [.jmp ⟨true, 0x20⟩ 0], seq := { Seq.zero with matchOk := true } };
       let v : Bool := true;
       stands s b x (.jmp c target) ∧ x.condition c.cond = some v) ∧
  (let stands := fun (s : State) (b : Nat) (x : Batch) (i : PInstr) =>
         s.batch b = some x ∧ x.executes = true ∧ x.prog[x.seq.pc]? = some i;
       let s : State := { s0 with batches := [(1, { b1 with state := 3, prog := [.jmp ⟨false, 0x38⟩ 0], seq := { Seq.zero with emitted := 100 }, site := { SiteCfg.zero with matchDelay := 50 } })] };
       let b : Nat := 1;
       let target : Nat := 0;
       let c : Cond := ⟨false, 0x38⟩;
       let x : Batch := { b1 with state := 3, prog := [.jmp ⟨false, 0x38⟩ 0], seq := { Seq.zero with emitted := 100 }, site := { SiteCfg.zero with matchDelay := 50 } };
       stands s b x (.jmp c target) ∧ x.condition c.cond = none) ∧
  (let stands := fun (s : State) (b : Nat) (x : Batch) (i : PInstr) =>
         s.batch b = some x ∧ x.executes = true ∧ x.prog[x.seq.pc]? = some i;
       let s : State := { s0 with batches := [(1, { b1 with state := 3, prog := [.call ⟨false, 0⟩ 0], seq := { Seq.zero with pc := 0 } })] };
       let b : Nat := 1;
       let target : Nat := 0;
       let c : Cond := ⟨false, 0⟩;
       let x : Batch := { b1 with state := 3, prog := [.call ⟨false, 0⟩ 0], seq := { Seq.zero with pc := 0 } };
       let v : Bool := true;
       stands s b x (.call c target) ∧ x.condition c.cond = some v) ∧
  (let stands := fun (s : State) (b : Nat) (x : Batch) (i : PInstr) =>
         s.batch b = some x ∧ x.executes = true ∧ x.prog[x.seq.pc]? = some i;
       let s : State := { s0 with batches := [(1, { b1 with state := 3, prog := [.ret ⟨false, 0⟩], seq := { Seq.zero with calls := [3, 4] } })] };
       let b : Nat := 1;
       let a : Nat := 3;
       let as : List Nat := [4];
       let c : Cond := ⟨false, 0⟩;
       let x : Batch := { b1 with state := 3, prog := [.ret ⟨false, 0⟩], seq := { Seq.zero with calls := [3, 4] } };
       let v : Bool := true;
       stands s b x (.ret c) ∧ x.condition c.cond = some v ∧ x.seq.calls = a :: as) ∧
  (let stands := fun (s : State) (b : Nat) (x : Batch) (i : PInstr) =>
         s.batch b = some x ∧ x.executes = true ∧ x.prog[x.seq.pc]? = some i;
       let s : State := { s0 with batches := [(1, { b1 with state := 3, prog := [.halt ⟨false, 0⟩], seq := { Seq.zero with emitted := 9 } })] };
       let b : Nat := 1;
       let c : Cond := ⟨false, 0⟩;
       let x : Batch := { b1 with state := 3, prog := [.halt ⟨false, 0⟩], seq := { Seq.zero with emitted := 9 } };
       let v : Bool := true;
       stands s b x (.halt c) ∧ x.condition c.cond = some v ∧ (v != c.inv) = true) :=
  by refine ⟨?_, ?_, ?_, ?_, ?_⟩ <;> decide +kernel

/-- States and operands that meet the hypotheses of PatternFlow_3, clause by clause. -/
theorem witness_PatternFlow_3 :
  (let stands := fun (s : State) (b : Nat) (x : Batch) (i : PInstr) =>
         s.batch b = some x ∧ x.executes = true ∧ x.prog[x.seq.pc]? = some i;
       let s : State := { s0 with batches := [(1, { b1 with state := 3, prog := [.halt ⟨true, 0x10⟩], seq := { Seq.zero with flags := 1 } })] };
       let b : Nat := 1;
       let c : Cond := ⟨true, 0x10⟩;
       let x : Batch := { b1 with state := 3, prog := [.halt ⟨true, 0x10⟩], seq := { Seq.zero with flags := 1 } };
       let v : Bool := true;
       stands s b x (.halt c) ∧ x.condition c.cond = some v ∧ (v != c.inv) = false) :=
  by decide +kernel

/-- States and operands that meet the hypotheses of UserFlags, clause by clause. -/
theorem witness_UserFlags :
  (let s : State := { s0 with batches := [(1, { b1 with state := 3, prog := [.flag 0x8001 0xFFFE], seq := { Seq.zero with flags := 0xFFFF } })] };
       let b : Nat := 1;
       let setm : Nat := 0x8001;
       let clrm : Nat := 0xFFFE;
       let x : Batch := { b1 with state := 3, prog := [.flag 0x8001 0xFFFE], seq := { Seq.zero with flags := 0xFFFF } };
       s.batch b = some x ∧ x.executes = true ∧ x.prog[x.seq.pc]? = some (.flag setm clrm) ∧ setm < 65536 ∧ clrm < 65536 ∧ x.seq.flags < 65536) ∧
  (let s : State := { s0 with batches := [(1, { b1 with state := 1, prog := [.halt ⟨false, 0⟩], periods := [(0, ⟨500000, 0, 1⟩)], site := { SiteCfg.zero with defined := true, siteOf := List.replicate 16 0, matchDelay := 4294967295 } })] };
       let h : Hdr := h0;
       let p : StartP := ⟨⟨0, 1000000000000⟩, 1, 0, 0, false⟩;
       let x : Batch := { b1 with state := 1, prog := [.halt ⟨false, 0⟩], periods := [(0, ⟨500000, 0, 1⟩)], site := { SiteCfg.zero with defined := true, siteOf := List.replicate 16 0, matchDelay := 4294967295 } };
       s.admits h 0x0106 [] = true ∧ s.batch (cmdBatch h) = some x ∧ ((∀ c ∈ (s.at_ h.t).startChecks (cmdBatch h) x p, c.1 = false))) ∧
  (let s : State := { s0 with batches := [(1, { b1 with state := 3, prog := [.nop], seq := { Seq.zero with flags := 0xFFFF } })] };
       let h : Hdr := h0;
       let d : DRef := ⟨0, 0, false, false⟩;
       let x : Batch := { b1 with state := 3, prog := [.nop], seq := { Seq.zero with flags := 0xFFFF } };
       s.admits h 0x0108 [(d, false)] = true ∧ s.batch (cmdBatch h) = some x ∧ x.seq.flags < 65536 ∧ ((d.len = 0 ∨ (statusData x).length ≤ d.len))) :=
  by refine ⟨?_, ?_, ?_⟩ <;> decide +kernel

/-- States and operands that meet the hypotheses of PatternEffects_1, clause by clause. -/
theorem witness_PatternEffects_1 :
  (let stands := fun (s : State) (b : Nat) (x : Batch) (i : PInstr) =>
         s.batch b = some x ∧ x.executes = true ∧ x.prog[x.seq.pc]? = some i;
       let s : State := { s0 with batches := [(1, { b1 with state := 3, prog := [.tset 255], seq := { Seq.zero with pc := 0 }, sets := [(255, ⟨1, 63, [], false⟩)] })] };
       let b : Nat := 1;
       let set : Nat := 255;
       let x : Batch := { b1 with state := 3, prog := [.tset 255], seq := { Seq.zero with pc := 0 }, sets := [(255, ⟨1, 63, [], false⟩)] };
       stands s b x (.tset set)) ∧
  (let stands := fun (s : State) (b : Nat) (x : Batch) (i : PInstr) =>
         s.batch b = some x ∧ x.executes = true ∧ x.prog[x.seq.pc]? = some i;
       let s : State := { s0 with batches := [(1, { b1 with state := 3, prog := [.per 63], seq := { Seq.zero with pc := 0 } })] };
       let b : Nat := 1;
       let idx : Nat := 63;
       let x : Batch := { b1 with state := 3, prog := [.per 63], seq := { Seq.zero with pc := 0 } };
       stands s b x (.per idx)) ∧
  (let stands := fun (s : State) (b : Nat) (x : Batch) (i : PInstr) =>
         s.batch b = some x ∧ x.executes = true ∧ x.prog[x.seq.pc]? = some i;
       let s : State := { s0 with batches := [(1, { b1 with state := 3, prog := [.waitt false 7], seq := { Seq.zero with last := some ⟨7, 0, 1, false, false, 0, 0, 0, 0, 0, false, 0⟩ }, segs := [(7, ⟨true, true, 0, false, false, 0, 0, 64, 0, [⟨0, 0, 0⟩]⟩)], periods := [(0, ⟨500000, 0, 1⟩)] })] };
       let b : Nat := 1;
       let time : Nat := 7;
       let x : Batch := { b1 with state := 3, prog := [.waitt false 7], seq := { Seq.zero with last := some ⟨7, 0, 1, false, false, 0, 0, 0, 0, 0, false, 0⟩ }, segs := [(7, ⟨true, true, 0, false, false, 0, 0, 64, 0, [⟨0, 0, 0⟩]⟩)], periods := [(0, ⟨500000, 0, 1⟩)] };
       let r : Run := ⟨7, 0, 1, false, false, 0, 0, 0, 0, 0, false, 0⟩;
       let p : Per := ⟨500000, 0, 1⟩;
       stands s b x (.waitt false time) ∧ x.seq.last = some r ∧ x.aw.2 = some p) ∧
  (let stands := fun (s : State) (b : Nat) (x : Batch) (i : PInstr) =>
         s.batch b = some x ∧ x.executes = true ∧ x.prog[x.seq.pc]? = some i;
       let s : State := { s0 with batches := [(1, { b1 with state := 3, prog := [.waitt true 7], seq := { Seq.zero with last := some ⟨7, 0, 1, false, false, 0, 0, 0, 0, 0, false, 0⟩ }, segs := [(7, ⟨true, true, 0, false, false, 0, 0, 64, 0, [⟨0, 0, 0⟩]⟩)], periods := [(0, ⟨500000, 0, 1⟩)] })] };
       let b : Nat := 1;
       let time : Nat := 7;
       let x : Batch := { b1 with state := 3, prog := [.waitt true 7], seq := { Seq.zero with last := some ⟨7, 0, 1, false, false, 0, 0, 0, 0, 0, false, 0⟩ }, segs := [(7, ⟨true, true, 0, false, false, 0, 0, 64, 0, [⟨0, 0, 0⟩]⟩)], periods := [(0, ⟨500000, 0, 1⟩)] };
       let r : Run := ⟨7, 0, 1, false, false, 0, 0, 0, 0, 0, false, 0⟩;
       let p : Per := ⟨500000, 0, 1⟩;
       stands s b x (.waitt true time) ∧ x.seq.last = some r ∧ x.aw.2 = some p) ∧
  (let stands := fun (s : State) (b : Nat) (x : Batch) (i : PInstr) =>
         s.batch b = some x ∧ x.executes = true ∧ x.prog[x.seq.pc]? = some i;
       let s : State := { s0 with batches := [(1, { b1 with state := 3, prog := [.sync 5 3], seq := { Seq.zero with pc := 0 } })] };
       let b : Nat := 1;
       let timeout : Nat := 5;
       let rdv : Nat := 3;
       let x : Batch := { b1 with state := 3, prog := [.sync 5 3], seq := { Seq.zero with pc := 0 } };
       stands s b x (.sync timeout rdv) ∧ x.syncgrp = 0) :=
  by refine ⟨?_, ?_, ?_, ?_, ?_⟩ <;> decide +kernel

/-- States and operands that meet the hypotheses of PatternEffects_2, clause by clause. -/
theorem witness_PatternEffects_2 :
  (let stands := fun (s : State) (b : Nat) (x : Batch) (i : PInstr) =>
         s.batch b = some x ∧ x.executes = true ∧ x.prog[x.seq.pc]? = some i;
       let s : State := { s0 with batches := [(1, { b1 with state := 3, prog := [.sync 5 3], seq := { Seq.zero with pc := 0 }, syncgrp := 2, dmask := 1 })] };
       let b : Nat := 1;
       let timeout : Nat := 5;
       let rdv : Nat := 3;
       let x : Batch := { b1 with state := 3, prog := [.sync 5 3], seq := { Seq.zero with pc := 0 }, syncgrp := 2, dmask := 1 };
       stands s b x (.sync timeout rdv) ∧ x.syncgrp ≠ 0) ∧
  (let stands := fun (s : State) (b : Nat) (x : Batch) (i : PInstr) =>
         s.batch b = some x ∧ x.executes = true ∧ x.prog[x.seq.pc]? = some i;
       let s : State := { s0 with batches := [(1, { b1 with state := 3, prog := [.trig 255], seq := { Seq.zero with pc := 0 } })] };
       let b : Nat := 1;
       let outs : Nat := 255;
       let x : Batch := { b1 with state := 3, prog := [.trig 255], seq := { Seq.zero with pc := 0 } };
       stands s b x (.trig outs)) ∧
  (let stands := fun (s : State) (b : Nat) (x : Batch) (i : PInstr) =>
         s.batch b = some x ∧ x.executes = true ∧ x.prog[x.seq.pc]? = some i;
       let s : State := { s0 with batches := [(1, { b1 with state := 3, prog := [.mark 65535], seq := { Seq.zero with pc := 0 } })] };
       let b : Nat := 1;
       let code : Nat := 65535;
       let x : Batch := { b1 with state := 3, prog := [.mark 65535], seq := { Seq.zero with pc := 0 } };
       stands s b x (.mark code) ∧ s.marksFull b x = false) ∧
  (let stands := fun (s : State) (b : Nat) (x : Batch) (i : PInstr) =>
         s.batch b = some x ∧ x.executes = true ∧ x.prog[x.seq.pc]? = some i;
       let s : State := { s0 with batches := [(1, { b1 with state := 3, prog := [.mark 65535], markBuf := List.replicate 16 (0, 1, 0), flow := { Flow.zero with loaded := true } })], sched := { s0.sched with ready := List.replicate 32 ⟨1, 0, 0, 0, .done, none⟩ } };
       let b : Nat := 1;
       let code : Nat := 65535;
       let x : Batch := { b1 with state := 3, prog := [.mark 65535], markBuf := List.replicate 16 (0, 1, 0), flow := { Flow.zero with loaded := true } };
       stands s b x (.mark code) ∧ s.marksFull b x = true ∧ (x.seq.emitted, 4, x.seq.pc) ∉ x.seq.acts) ∧
  (let stands := fun (s : State) (b : Nat) (x : Batch) (i : PInstr) =>
         s.batch b = some x ∧ x.executes = true ∧ x.prog[x.seq.pc]? = some i;
       let s : State := { s0 with batches := [(1, { b1 with state := 3, prog := [.sitemask 255], seq := { Seq.zero with pc := 0 } })] };
       let b : Nat := 1;
       let entry : Nat := 255;
       let x : Batch := { b1 with state := 3, prog := [.sitemask 255], seq := { Seq.zero with pc := 0 } };
       stands s b x (.sitemask entry)) :=
  by refine ⟨?_, ?_, ?_, ?_, ?_⟩ <;> decide +kernel

/-- States and operands that meet the hypotheses of PatternEffects_3, clause by clause. -/
theorem witness_PatternEffects_3 :
  (let stands := fun (s : State) (b : Nat) (x : Batch) (i : PInstr) =>
         s.batch b = some x ∧ x.executes = true ∧ x.prog[x.seq.pc]? = some i;
       let s : State := { s0 with batches := [(1, { b1 with state := 3, prog := [.peact 5 3], seq := { Seq.zero with pc := 0 } })] };
       let b : Nat := 1;
       let settle : Nat := 5;
       let script : Nat := 3;
       let x : Batch := { b1 with state := 3, prog := [.peact 5 3], seq := { Seq.zero with pc := 0 } };
       stands s b x (.peact settle script)) ∧
  (let stands := fun (s : State) (b : Nat) (x : Batch) (i : PInstr) =>
         s.batch b = some x ∧ x.executes = true ∧ x.prog[x.seq.pc]? = some i;
       let s : State := { s0 with batches := [(1, { b1 with state := 3, prog := [.mtch 7 9 1], seq := { Seq.zero with pc := 0 }, segs := [(7, ⟨true, true, 0, false, false, 0, 0, 64, 0, [⟨0, 0, 0⟩]⟩)] })] };
       let b : Nat := 1;
       let seg : Nat := 7;
       let timeout : Nat := 9;
       let group : Nat := 1;
       let x : Batch := { b1 with state := 3, prog := [.mtch 7 9 1], seq := { Seq.zero with pc := 0 }, segs := [(7, ⟨true, true, 0, false, false, 0, 0, 64, 0, [⟨0, 0, 0⟩]⟩)] };
       stands s b x (.mtch seg timeout group) ∧ timeout ≠ 0) ∧
  (let s : State := { s0 with batches := [(1, { b1 with state := 3, prog := [.halt ⟨false, 0⟩], seq := { Seq.zero with pc := 0 } })] };
       let b : Nat := 1;
       let x : Batch := { b1 with state := 3, prog := [.halt ⟨false, 0⟩], seq := { Seq.zero with pc := 0 } };
       s.batch b = some x ∧ x.seq.wait = none ∧ x.prog[x.seq.pc]? ≠ some .nop) ∧
  (let s : State := { s0 with batches := [] };
       let b : Nat := 1;
       s.batch b = none) ∧
  (let s : State := s0;
       let b : Nat := 1;
       let x : Batch := b1;
       s.batch b = some x ∧ x.active = false) :=
  by refine ⟨?_, ?_, ?_, ?_, ?_⟩ <;> decide +kernel

/-- States and operands that meet the hypotheses of VectorsAreHandedOver, clause by clause. -/
theorem witness_VectorsAreHandedOver :
  (let s : State := { s0 with batches := [(1, { b1 with state := 3, segs := [(7, ⟨true, true, 0, false, false, 0, 0, 64, 0, [⟨0, 0, 0⟩]⟩)], periods := [(0, ⟨500000, 0, 1⟩)], caches := (List.range 16).map (fun i => (i, [(⟨0, 1, false, ⟨0, false, 0, 0, 0, 0, 0, 0, 0, 0⟩⟩ : CacheE)])), seq := { Seq.zero with buf := [⟨7, 0, 5, false, false, 0, 0, 0, 0, 0, false, 0⟩], hAcc := ⟨100000000, 1, 3⟩ } })] };
       let b : Nat := 1;
       let x : Batch := { b1 with state := 3, segs := [(7, ⟨true, true, 0, false, false, 0, 0, 64, 0, [⟨0, 0, 0⟩]⟩)], periods := [(0, ⟨500000, 0, 1⟩)], caches := (List.range 16).map (fun i => (i, [(⟨0, 1, false, ⟨0, false, 0, 0, 0, 0, 0, 0, 0, 0⟩⟩ : CacheE)])), seq := { Seq.zero with buf := [⟨7, 0, 5, false, false, 0, 0, 0, 0, 0, false, 0⟩], hAcc := ⟨100000000, 1, 3⟩ } };
       let r : Run := ⟨7, 0, 5, false, false, 0, 0, 0, 0, 0, false, 0⟩;
       let rs : List Run := [];
       let g : Seg := ⟨true, true, 0, false, false, 0, 0, 64, 0, [⟨0, 0, 0⟩]⟩;
       let p : Per := ⟨500000, 0, 1⟩;
       let g0 : Seg := ⟨true, true, 0, false, false, 0, 0, 64, 0, [⟨0, 0, 0⟩]⟩;
       let ws : List SliceVec := [⟨0, List.replicate 16 0, 0⟩];
       s.batch b = some x ∧ x.active = true ∧ x.seq.wait = none ∧ x.seq.buf = r :: rs ∧ x.undecided r = false ∧ x.limitsOpen x.seq.hNext = false ∧ x.stopAt = none ∧ x.thr = [] ∧ x.ovrNext = [] ∧ x.staleNext = [] ∧ x.checks = [] ∧ x.ep.thr = none ∧ s.waits = [] ∧ ((∀ a ∈ x.seq.acts, a.2.1 ≠ 5)) ∧ ((r.opens = true → s.pendingItems b [1, 3] = [])) ∧ assoc x.segs r.seg = some g0 ∧ effPer x.periods x.ovr (x.runEntry r) = some p ∧ (
         let s1 := (s.at_ (x.seq.hAcc.fs - 60000000)).setBatch b x;
         let c := x.seq.hAcc.convert p.d;
         let took := s1.takeAll x ⟨x.seq.hNext, r, g, c.1, p, s.free⟩ ws (s.channels b);
         s1.fetchVec b g0 r (s.slices b) = (s1, true) ∧ s1.vecOf x r (s.slices b) = some (g, ws) ∧ x.setBreach g ws = none ∧ ((∀ q ∈ took, q.2.1.broken = false)))) ∧
  (let s : State := { s0 with batches := [(1, { b1 with state := 3 })] };
       let b : Nat := 1;
       let x : Batch := { b1 with state := 3 };
       1 ≤ b ∧ b ≤ 16 ∧ s.batch b = some x ∧ x.active = true ∧ x.seq.wait = none ∧ x.seq.buf = [] ∧ x.stopAt = none) :=
  by refine ⟨?_, ?_⟩ <;> decide +kernel

/-- States and operands that meet the hypotheses of VectorsBegin, clause by clause. -/
theorem witness_VectorsBegin :
  (let s : State := { s0 with batches := [(1, { b1 with markBuf := [(5, 65535, 0)] })], sched := { s0.sched with ready := List.replicate 32 ⟨1, 0, 0, 0, .done, none⟩ } };
       let b : Nat := 1;
       let m : Nat × Nat × Nat := (5, 65535, 0);
       let ms : List (Nat × Nat × Nat) := [];
       let x : Batch := { b1 with markBuf := [(5, 65535, 0)] };
       s.batch b = some x ∧ x.markBuf = m :: ms ∧ s.queueFull b 0 = true) ∧
  (let s : State := { s0 with batches := [(1, { b1 with markBuf := [(5, 65535, 2)], flow := { Flow.zero with loaded := true } })] };
       let b : Nat := 1;
       let v : Nat := 5;
       let code : Nat := 65535;
       let order : Nat := 2;
       let ms : List (Nat × Nat × Nat) := [];
       let x : Batch := { b1 with markBuf := [(5, 65535, 2)], flow := { Flow.zero with loaded := true } };
       s.batch b = some x ∧ x.markBuf = (v, code, order) :: ms ∧ s.queueFull b 0 = false ∧ x.flow.loaded = true) ∧
  (let s : State := { s0 with batches := [(1, { b1 with markBuf := [(5, 65535, 0)] })] };
       let b : Nat := 1;
       let v : Nat := 5;
       let code : Nat := 65535;
       let ms : List (Nat × Nat × Nat) := [];
       let x : Batch := { b1 with markBuf := [(5, 65535, 0)] };
       s.batch b = some x ∧ x.markBuf = (v, code, 0) :: ms ∧ b ≠ 0 ∧ s.queueFull b 0 = false ∧ x.flow.loaded = false) :=
  by refine ⟨?_, ?_, ?_⟩ <;> decide +kernel

/-- States and operands that meet the hypotheses of VectorsBegin_at_1, clause by clause. -/
theorem witness_VectorsBegin_at_1 :
  (let s : State := { s0 with batches := [(1, { b1 with state := 3, seq := { Seq.zero with begun := 3, hNext := 4, flight := [⟨3, ⟨1500000, 0, 1⟩, ⟨500000, 0, 1⟩, 1, [⟨0, 3, 0, 0, 0, false, 0, [⟨0, 4, false⟩], []⟩], 0, 1, 2, none, none, none, []⟩] } })] };
       let b : Nat := 1;
       let x : Batch := { b1 with state := 3, seq := { Seq.zero with begun := 3, hNext := 4, flight := [⟨3, ⟨1500000, 0, 1⟩, ⟨500000, 0, 1⟩, 1, [⟨0, 3, 0, 0, 0, false, 0, [⟨0, 4, false⟩], []⟩], 0, 1, 2, none, none, none, []⟩] } };
       let h : HVec := ⟨3, ⟨1500000, 0, 1⟩, ⟨500000, 0, 1⟩, 1, [⟨0, 3, 0, 0, 0, false, 0, [⟨0, 4, false⟩], []⟩], 0, 1, 2, none, none, none, []⟩;
       let rest : List HVec := [];
       (s.batch b = some x ∧ x.state = 3 ∧ x.seq.flight = h :: rest ∧ x.stopAt = none ∧ x.seq.acts = [] ∧ s.waits = [] ∧ x.ep.due = false ∧ x.site.pend = [] ∧ x.destroying = none ∧ h.granule = none ∧ h.idle = none ∧ h.final = none ∧ h.trigs = 0) ∧ (((∀ i, (x.site.site i).off = none)))) :=
  ⟨by decide +kernel, fun _ => rfl⟩

/-- States and operands that meet the hypotheses of VectorsBegin_at_2, clause by clause. -/
theorem witness_VectorsBegin_at_2 :
  (let s : State := { s0 with batches := [(1, { b1 with state := 3, edges := [⟨15, 1, 0, 800, 0, 0, 100000000, 0, 1, 3⟩] })] };
       let lch : Nat := 15;
       let line : Nat := 1;
       let x : Batch := { b1 with state := 3, edges := [⟨15, 1, 0, 800, 0, 0, 100000000, 0, 1, 3⟩] };
       let e : Edge := ⟨15, 1, 0, 800, 0, 0, 100000000, 0, 1, 3⟩;
       (s.batch (s.sliceOwner.get 0 (lch / 16)) = some x ∧ x.state = 3 ∧ x.destroying = none ∧ x.edges.find? (fun e => e.lch == lch && e.line == line) = some e) ∧ (((∀ i, (x.site.site i).off = none)))) :=
  ⟨by decide +kernel, fun _ => rfl⟩

/-- States and operands that meet the hypotheses of SpargeStreams_at_1, clause by clause. -/
theorem witness_SpargeStreams_at_1 :
  (let ready := fun (s : State) (b : Nat) (t : Stream) =>
         s.cbOffset b t % 64 = 0 ∧ s.inRegion b (s.cbOffset b t) 64 = true ∧ ∀ q, (s.stack q).frozen = false;
       let s : State := { s0 with batches := [(1, { b1 with state := 3, segs := [(7, ⟨false, true, 0, false, true, 0, 0, 128, 4, [⟨0, 0, 4096⟩]⟩)], streams := [(7, ⟨0, [], 0, 2, 0, 0, 0, false, false, false, 1, false, []⟩)], seq := { Seq.zero with buf := [⟨7, 0, 128, false, false, 0, 0, 0, 0, 0, false, 0⟩], emitted := 128 } })] };
       let b : Nat := 1;
       let x : Batch := { b1 with state := 3, segs := [(7, ⟨false, true, 0, false, true, 0, 0, 128, 4, [⟨0, 0, 4096⟩]⟩)], streams := [(7, ⟨0, [], 0, 2, 0, 0, 0, false, false, false, 1, false, []⟩)], seq := { Seq.zero with buf := [⟨7, 0, 128, false, false, 0, 0, 0, 0, 0, false, 0⟩], emitted := 128 } };
       let r : Run := ⟨7, 0, 128, false, false, 0, 0, 0, 0, 0, false, 0⟩;
       let g : Seg := ⟨false, true, 0, false, true, 0, 0, 128, 4, [⟨0, 0, 4096⟩]⟩;
       let t : Stream := ⟨0, [], 0, 2, 0, 0, 0, false, false, false, 1, false, []⟩;
       (s.batch b = some x ∧ x.active = true ∧ x.stopAt = none ∧ x.seq.buf = [r] ∧ assoc x.segs r.seg = some g ∧ g.sparge = true ∧ assoc x.streams r.seg = some t ∧ r.idle = false ∧ r.rpt = false ∧ r.pos ≤ 64 * t.decided ∧ 64 * t.decided < r.pos + r.left) ∧ (ready s b t)) :=
  ⟨by decide +kernel, ⟨by decide +kernel, by decide +kernel, fun _ => rfl⟩⟩

/-- States and operands that meet the hypotheses of SpargeStreams_at_2, clause by clause. -/
theorem witness_SpargeStreams_at_2 :
  (let ready := fun (s : State) (b : Nat) (t : Stream) =>
         s.cbOffset b t % 64 = 0 ∧ s.inRegion b (s.cbOffset b t) 64 = true ∧ ∀ q, (s.stack q).frozen = false;
       let s : State := { s0 with batches := [(1, { b1 with state := 3, segs := [(7, ⟨false, true, 0, false, true, 0, 0, 128, 4, [⟨0, 0, 4096⟩]⟩)], streams := [(7, ⟨0, [], 0, 2, 0, 0, 0, false, false, false, 1, false, []⟩)], seq := { Seq.zero with buf := [⟨7, 0, 128, false, false, 0, 0, 0, 0, 0, false, 0⟩], emitted := 128 } })] };
       let b : Nat := 1;
       let seg : Nat := 7;
       let x : Batch := { b1 with state := 3, segs := [(7, ⟨false, true, 0, false, true, 0, 0, 128, 4, [⟨0, 0, 4096⟩]⟩)], streams := [(7, ⟨0, [], 0, 2, 0, 0, 0, false, false, false, 1, false, []⟩)], seq := { Seq.zero with buf := [⟨7, 0, 128, false, false, 0, 0, 0, 0, 0, false, 0⟩], emitted := 128 } };
       let g : Seg := ⟨false, true, 0, false, true, 0, 0, 128, 4, [⟨0, 0, 4096⟩]⟩;
       let t : Stream := ⟨0, [], 0, 2, 0, 0, 0, false, false, false, 1, false, []⟩;
       (s.batch b = some x ∧ assoc x.streams seg = some t ∧ assoc x.segs seg = some g ∧ t.release < t.decided ∧ ((∀ sl ∈ s.slices b, s.noFetch sl = false ∧ s.inRegion b (g.ringAddr sl t.release) g.gbytes = true ∧ s.cleanBlock (g.ringAddr sl t.release) g.gbytes = true))) ∧ (ready s b t)) :=
  ⟨by decide +kernel, ⟨by decide +kernel, by decide +kernel, fun _ => rfl⟩⟩

/-- States and operands that meet the hypotheses of SpargeStreams_at_3, clause by clause. -/
theorem witness_SpargeStreams_at_3 :
  (let ready := fun (s : State) (b : Nat) (t : Stream) =>
         s.cbOffset b t % 64 = 0 ∧ s.inRegion b (s.cbOffset b t) 64 = true ∧ ∀ q, (s.stack q).frozen = false;
       let s : State := { s0 with batches := [(1, { b1 with state := 3, segs := [(7, ⟨false, true, 0, false, true, 0, 0, 128, 4, [⟨0, 0, 4096⟩]⟩)], streams := [(7, ⟨0, [], 0, 1, 0, 0, 0, false, false, false, 1, false, []⟩)], seq := { Seq.zero with buf := [⟨7, 0, 128, false, false, 0, 0, 0, 0, 0, false, 0⟩], emitted := 128 } })] };
       let b : Nat := 1;
       let seg : Nat := 7;
       let value : Nat := 3;
       let x : Batch := { b1 with state := 3, segs := [(7, ⟨false, true, 0, false, true, 0, 0, 128, 4, [⟨0, 0, 4096⟩]⟩)], streams := [(7, ⟨0, [], 0, 1, 0, 0, 0, false, false, false, 1, false, []⟩)], seq := { Seq.zero with buf := [⟨7, 0, 128, false, false, 0, 0, 0, 0, 0, false, 0⟩], emitted := 128 } };
       let g : Seg := ⟨false, true, 0, false, true, 0, 0, 128, 4, [⟨0, 0, 4096⟩]⟩;
       let t : Stream := ⟨0, [], 0, 1, 0, 0, 0, false, false, false, 1, false, []⟩;
       (s.batch b = some x ∧ assoc x.streams seg = some t ∧ assoc x.segs seg = some g ∧ t.fill ≤ min value (g.length / 64) ∧ min value (g.length / 64) ≤ t.release + g.ringgran) ∧ (ready s b t)) :=
  ⟨by decide +kernel, ⟨by decide +kernel, by decide +kernel, fun _ => rfl⟩⟩

/-- States and operands that meet the hypotheses of SpargeStreams_at_4, clause by clause. -/
theorem witness_SpargeStreams_at_4 :
  (let ready := fun (s : State) (b : Nat) (t : Stream) =>
         s.cbOffset b t % 64 = 0 ∧ s.inRegion b (s.cbOffset b t) 64 = true ∧ ∀ q, (s.stack q).frozen = false;
       let s : State := { s0 with batches := [(1, { b1 with state := 3, segs := [(7, ⟨false, true, 0, false, true, 0, 0, 128, 4, [⟨0, 0, 4096⟩]⟩)], streams := [(7, ⟨0, [], 0, 1, 0, 0, 0, false, false, false, 1, false, []⟩)], seq := { Seq.zero with buf := [⟨7, 0, 128, false, false, 0, 0, 0, 0, 0, false, 0⟩], emitted := 128 } })] };
       let b : Nat := 1;
       let seg : Nat := 7;
       let value : Nat := 0;
       let x : Batch := { b1 with state := 3, segs := [(7, ⟨false, true, 0, false, true, 0, 0, 128, 4, [⟨0, 0, 4096⟩]⟩)], streams := [(7, ⟨0, [], 0, 1, 0, 0, 0, false, false, false, 1, false, []⟩)], seq := { Seq.zero with buf := [⟨7, 0, 128, false, false, 0, 0, 0, 0, 0, false, 0⟩], emitted := 128 } };
       let g : Seg := ⟨false, true, 0, false, true, 0, 0, 128, 4, [⟨0, 0, 4096⟩]⟩;
       let t : Stream := ⟨0, [], 0, 1, 0, 0, 0, false, false, false, 1, false, []⟩;
       (s.batch b = some x ∧ assoc x.streams seg = some t ∧ assoc x.segs seg = some g ∧ ((min value (g.length / 64) < t.fill ∨ t.release + g.ringgran < min value (g.length / 64)))) ∧ (ready s b t)) :=
  ⟨by decide +kernel, ⟨by decide +kernel, by decide +kernel, fun _ => rfl⟩⟩

/-- States and operands that meet the hypotheses of ConsensusDecisions, clause by clause. -/
theorem witness_ConsensusDecisions :
  (let agree := fun (reports : List LockRep) => ∀ r ∈ reports, ∀ q ∈ reports, r.vnum = q.vnum ∧ r.addr = q.addr;
       let s : State := { s0 with batches := [(1, { b1 with state := 3, prog := [.jmp ⟨false, 0x38⟩ 0], seq := { Seq.zero with emitted := 100, begun := 51, wait := some (.late 50) }, site := { SiteCfg.zero with matchDelay := 50 } })] };
       let b : Nat := 1;
       let v : Nat := 50;
       let reports : List LockRep := [⟨0, 5, 0⟩, ⟨1, 5, 0⟩];
       let x : Batch := { b1 with state := 3, prog := [.jmp ⟨false, 0x38⟩ 0], seq := { Seq.zero with emitted := 100, begun := 51, wait := some (.late 50) }, site := { SiteCfg.zero with matchDelay := 50 } };
       let i : PInstr := .jmp ⟨false, 0x38⟩ 0;
       let c : Nat := 0x38;
       s.batch b = some x ∧ x.active = true ∧ x.seq.wait = some (.late v) ∧ agree reports ∧ x.prog[x.seq.pc]? = some i ∧ Sys2Proof.Machine.PInstr.cond? i = some c ∧ x.decidedTo (v + 1) = true) ∧
  (let agree := fun (reports : List LockRep) => ∀ r ∈ reports, ∀ q ∈ reports, r.vnum = q.vnum ∧ r.addr = q.addr;
       let s : State := { s0 with batches := [(1, { b1 with state := 3, prog := [.jmp ⟨false, 0x38⟩ 0], seq := { Seq.zero with emitted := 100, wait := some (.late 50) }, site := { SiteCfg.zero with matchDelay := 50 } })] };
       let b : Nat := 1;
       let v : Nat := 50;
       let reports : List LockRep := [⟨0, 5, 0⟩, ⟨1, 5, 0⟩];
       let x : Batch := { b1 with state := 3, prog := [.jmp ⟨false, 0x38⟩ 0], seq := { Seq.zero with emitted := 100, wait := some (.late 50) }, site := { SiteCfg.zero with matchDelay := 50 } };
       let i : PInstr := .jmp ⟨false, 0x38⟩ 0;
       let c : Nat := 0x38;
       s.batch b = some x ∧ x.active = true ∧ x.seq.wait = some (.late v) ∧ agree reports ∧ x.prog[x.seq.pc]? = some i ∧ Sys2Proof.Machine.PInstr.cond? i = some c ∧ x.decidedTo (v + 1) = false) ∧
  (let s : State := { s0 with batches := [(1, { b1 with state := 3, prog := [.jmp ⟨false, 0x38⟩ 0], seq := { Seq.zero with emitted := 100, wait := some (.late 50) }, site := { SiteCfg.zero with matchDelay := 50 } })] };
       let b : Nat := 1;
       let reports : List LockRep := [⟨0, 5, 0⟩, ⟨1, 6, 0⟩];
       let x : Batch := { b1 with state := 3, prog := [.jmp ⟨false, 0x38⟩ 0], seq := { Seq.zero with emitted := 100, wait := some (.late 50) }, site := { SiteCfg.zero with matchDelay := 50 } };
       let r : LockRep := ⟨0, 5, 0⟩;
       let q : LockRep := ⟨1, 6, 0⟩;
       1 ≤ b ∧ b ≤ 16 ∧ s.batch b = some x ∧ x.active = true ∧ r ∈ reports ∧ q ∈ reports ∧ ((r.vnum ≠ q.vnum ∨ r.addr ≠ q.addr))) :=
  by refine ⟨?_, ?_, ?_⟩ <;> decide +kernel

/-- States and operands that meet the hypotheses of ConsensusDecisions_at_1, clause by clause. -/
theorem witness_ConsensusDecisions_at_1 :
  (let agree := fun (reports : List LockRep) => ∀ r ∈ reports, ∀ q ∈ reports, r.vnum = q.vnum ∧ r.addr = q.addr;
       let waits := fun (s : State) (b g : Nat) (x : Batch) => s.batch b = some x ∧ x.active = true ∧ ∃ a l tm d r, x.seq.wait = some (.mtch a l tm g d r);
       let s : State := { s0 with batches := [(1, { b1 with state := 3, prog := [.mtch 7 9 1], seq := { Seq.zero with emitted := 64, wait := some (.mtch 0 64 9 1 0 none), buf := [⟨7, 0, 64, false, false, 0, 0, 0, 0, 0, false, 0⟩] }, segs := [(7, ⟨true, true, 0, false, false, 0, 0, 64, 0, [⟨0, 0, 0⟩]⟩)] })] };
       let b : Nat := 1;
       let g : Nat := 1;
       let reports : List LockRep := [⟨0, 5, 0⟩, ⟨1, 5, 0⟩];
       let x : Batch := { b1 with state := 3, prog := [.mtch 7 9 1], seq := { Seq.zero with emitted := 64, wait := some (.mtch 0 64 9 1 0 none), buf := [⟨7, 0, 64, false, false, 0, 0, 0, 0, 0, false, 0⟩] }, segs := [(7, ⟨true, true, 0, false, false, 0, 0, 64, 0, [⟨0, 0, 0⟩]⟩)] };
       (agree reports) ∧ (waits s b g x) ∧ (((∃ m ∈ s.matchMembers b g, ∃ y : Batch, s.batch m = some y ∧ (y.blockOf g).isNone)))) :=
  ⟨by decide +kernel, ⟨by decide +kernel, rfl, _, _, _, _, _, rfl⟩, ⟨1, by decide +kernel, _, rfl, rfl⟩⟩

/-- States and operands that meet the hypotheses of ConsensusDecisions_at_2, clause by clause. -/
theorem witness_ConsensusDecisions_at_2 :
  (let agree := fun (reports : List LockRep) => ∀ r ∈ reports, ∀ q ∈ reports, r.vnum = q.vnum ∧ r.addr = q.addr;
       let waits := fun (s : State) (b g : Nat) (x : Batch) => s.batch b = some x ∧ x.active = true ∧ ∃ a l tm d r, x.seq.wait = some (.mtch a l tm g d r);
       let group := fun (s : State) (g : Nat) (ms : List Nat) (X : Nat → Batch) (B : Nat → BlockRep) => ms.Nodup ∧
         ∀ m ∈ ms, 1 ≤ m ∧ m ≤ 16 ∧ s.batch m = some (X m) ∧ (X m).blockOf g = some (B m);
       let s : State := { s0 with batches := [(1, { b1 with state := 3, prog := [.mtch 7 9 1], seq := { Seq.zero with emitted := 64, wait := some (.mtch 0 64 9 1 0 (some ⟨0, 0, 1, ⟨500000, 0, 1⟩, 64, 9, 50⟩)), buf := [⟨7, 0, 64, false, false, 0, 0, 0, 0, 0, false, 0⟩] }, segs := [(7, ⟨true, true, 0, false, false, 0, 0, 64, 0, [⟨0, 0, 0⟩]⟩)] })] };
       let b : Nat := 1;
       let g : Nat := 1;
       let reports : List LockRep := [⟨0, 5, 0⟩, ⟨1, 5, 0⟩];
       let reps : List BlockRep := [{ (⟨0, 0, 1, ⟨500000, 0, 1⟩, 64, 9, 50⟩ : BlockRep) with l := 128 }];
       let x : Batch := { b1 with state := 3, prog := [.mtch 7 9 1], seq := { Seq.zero with emitted := 64, wait := some (.mtch 0 64 9 1 0 (some ⟨0, 0, 1, ⟨500000, 0, 1⟩, 64, 9, 50⟩)), buf := [⟨7, 0, 64, false, false, 0, 0, 0, 0, 0, false, 0⟩] }, segs := [(7, ⟨true, true, 0, false, false, 0, 0, 64, 0, [⟨0, 0, 0⟩]⟩)] };
       let X : Nat → Batch := fun _ => { b1 with state := 3, prog := [.mtch 7 9 1], seq := { Seq.zero with emitted := 64, wait := some (.mtch 0 64 9 1 0 (some ⟨0, 0, 1, ⟨500000, 0, 1⟩, 64, 9, 50⟩)), buf := [⟨7, 0, 64, false, false, 0, 0, 0, 0, 0, false, 0⟩] }, segs := [(7, ⟨true, true, 0, false, false, 0, 0, 64, 0, [⟨0, 0, 0⟩]⟩)] };
       let B : Nat → BlockRep := fun _ => ⟨0, 0, 1, ⟨500000, 0, 1⟩, 64, 9, 50⟩;
       let r : BlockRep := ⟨0, 0, 1, ⟨500000, 0, 1⟩, 64, 9, 50⟩;
       let q : BlockRep := { (⟨0, 0, 1, ⟨500000, 0, 1⟩, 64, 9, 50⟩ : BlockRep) with l := 128 };
       (agree reports ∧ (
         let ms := s.matchMembers b g;
         group s g ms X B ∧ r ∈ ms.map B ++ reps ∧ q ∈ ms.map B ++ reps ∧ r ≠ q)) ∧ (waits s b g x)) :=
  ⟨by decide +kernel, ⟨by decide +kernel, rfl, _, _, _, _, _, rfl⟩⟩

/-- States and operands that meet the hypotheses of ConsensusDecisions_at_3, clause by clause. -/
theorem witness_ConsensusDecisions_at_3 :
  (let agree := fun (reports : List LockRep) => ∀ r ∈ reports, ∀ q ∈ reports, r.vnum = q.vnum ∧ r.addr = q.addr;
       let waits := fun (s : State) (b g : Nat) (x : Batch) => s.batch b = some x ∧ x.active = true ∧ ∃ a l tm d r, x.seq.wait = some (.mtch a l tm g d r);
       let group := fun (s : State) (g : Nat) (ms : List Nat) (X : Nat → Batch) (B : Nat → BlockRep) => ms.Nodup ∧
         ∀ m ∈ ms, 1 ≤ m ∧ m ≤ 16 ∧ s.batch m = some (X m) ∧ (X m).blockOf g = some (B m);
       let s : State := { s0 with batches := [(1, { b1 with state := 3, prog := [.mtch 7 9 1], seq := { Seq.zero with emitted := 64, wait := some (.mtch 0 64 9 1 0 (some ⟨0, 0, 1, ⟨500000, 0, 1⟩, 64, 9, 50⟩)), buf := [⟨7, 0, 64, false, false, 0, 0, 0, 0, 0, false, 0⟩], begun := 64 }, segs := [(7, ⟨true, true, 0, false, false, 0, 0, 64, 0, [⟨0, 0, 0⟩]⟩)] })] };
       let b : Nat := 1;
       let g : Nat := 1;
       let reports : List LockRep := [⟨0, 5, 0⟩, ⟨1, 5, 0⟩];
       let reps : List BlockRep := [⟨0, 0, 1, ⟨500000, 0, 1⟩, 64, 9, 50⟩];
       let x : Batch := { b1 with state := 3, prog := [.mtch 7 9 1], seq := { Seq.zero with emitted := 64, wait := some (.mtch 0 64 9 1 0 (some ⟨0, 0, 1, ⟨500000, 0, 1⟩, 64, 9, 50⟩)), buf := [⟨7, 0, 64, false, false, 0, 0, 0, 0, 0, false, 0⟩], begun := 64 }, segs := [(7, ⟨true, true, 0, false, false, 0, 0, 64, 0, [⟨0, 0, 0⟩]⟩)] };
       let X : Nat → Batch := fun _ => { b1 with state := 3, prog := [.mtch 7 9 1], seq := { Seq.zero with emitted := 64, wait := some (.mtch 0 64 9 1 0 (some ⟨0, 0, 1, ⟨500000, 0, 1⟩, 64, 9, 50⟩)), buf := [⟨7, 0, 64, false, false, 0, 0, 0, 0, 0, false, 0⟩], begun := 64 }, segs := [(7, ⟨true, true, 0, false, false, 0, 0, 64, 0, [⟨0, 0, 0⟩]⟩)] };
       let B : Nat → BlockRep := fun _ => ⟨0, 0, 1, ⟨500000, 0, 1⟩, 64, 9, 50⟩;
       (agree reports ∧ (
         let ms := s.matchMembers b g;
         group s g ms X B ∧ ((∀ r ∈ ms.map B ++ reps, ∀ q ∈ ms.map B ++ reps, r = q)) ∧ (∀ m ∈ ms, (X m).repDone = true))) ∧ (waits s b g x)) :=
  ⟨by decide +kernel, ⟨by decide +kernel, rfl, _, _, _, _, _, rfl⟩⟩

/-- States and operands that meet the hypotheses of ConsensusDecisions_at_4, clause by clause. -/
theorem witness_ConsensusDecisions_at_4 :
  (let agree := fun (reports : List LockRep) => ∀ r ∈ reports, ∀ q ∈ reports, r.vnum = q.vnum ∧ r.addr = q.addr;
       let waits := fun (s : State) (b g : Nat) (x : Batch) => s.batch b = some x ∧ x.active = true ∧ ∃ a l tm d r, x.seq.wait = some (.mtch a l tm g d r);
       let group := fun (s : State) (g : Nat) (ms : List Nat) (X : Nat → Batch) (B : Nat → BlockRep) => ms.Nodup ∧
         ∀ m ∈ ms, 1 ≤ m ∧ m ≤ 16 ∧ s.batch m = some (X m) ∧ (X m).blockOf g = some (B m);
       let s : State := { s0 with batches := [(1, { b1 with state := 3, prog := [.mtch 7 9 1], seq := { Seq.zero with emitted := 64, wait := some (.mtch 0 64 9 1 0 (some ⟨0, 0, 1, ⟨500000, 0, 1⟩, 64, 9, 50⟩)), buf := [⟨7, 0, 64, false, false, 0, 0, 0, 0, 0, false, 0⟩] }, segs := [(7, ⟨true, true, 0, false, false, 0, 0, 64, 0, [⟨0, 0, 0⟩]⟩)] })] };
       let b : Nat := 1;
       let g : Nat := 1;
       let reports : List LockRep := [⟨0, 5, 0⟩, ⟨1, 5, 0⟩];
       let reps : List BlockRep := [];
       let x : Batch := { b1 with state := 3, prog := [.mtch 7 9 1], seq := { Seq.zero with emitted := 64, wait := some (.mtch 0 64 9 1 0 (some ⟨0, 0, 1, ⟨500000, 0, 1⟩, 64, 9, 50⟩)), buf := [⟨7, 0, 64, false, false, 0, 0, 0, 0, 0, false, 0⟩] }, segs := [(7, ⟨true, true, 0, false, false, 0, 0, 64, 0, [⟨0, 0, 0⟩]⟩)] };
       let X : Nat → Batch := fun _ => { b1 with state := 3, prog := [.mtch 7 9 1], seq := { Seq.zero with emitted := 64, wait := some (.mtch 0 64 9 1 0 (some ⟨0, 0, 1, ⟨500000, 0, 1⟩, 64, 9, 50⟩)), buf := [⟨7, 0, 64, false, false, 0, 0, 0, 0, 0, false, 0⟩] }, segs := [(7, ⟨true, true, 0, false, false, 0, 0, 64, 0, [⟨0, 0, 0⟩]⟩)] };
       let B : Nat → BlockRep := fun _ => ⟨0, 0, 1, ⟨500000, 0, 1⟩, 64, 9, 50⟩;
       (agree reports ∧ (
         let ms := s.matchMembers b g;
         group s g ms X B ∧ ((∀ r ∈ ms.map B ++ reps, ∀ q ∈ ms.map B ++ reps, r = q)) ∧ (∃ m ∈ ms, (X m).repDone = false))) ∧ (waits s b g x)) :=
  ⟨by decide +kernel, ⟨by decide +kernel, rfl, _, _, _, _, _, rfl⟩⟩

/-- States and operands that meet the hypotheses of ConsensusDecisions_at_5, clause by clause. -/
theorem witness_ConsensusDecisions_at_5 :
  (let agree := fun (reports : List LockRep) => ∀ r ∈ reports, ∀ q ∈ reports, r.vnum = q.vnum ∧ r.addr = q.addr;
       let waits := fun (s : State) (b g : Nat) (x : Batch) => s.batch b = some x ∧ x.active = true ∧ ∃ a l tm d r, x.seq.wait = some (.mtch a l tm g d r);
       let group := fun (s : State) (g : Nat) (ms : List Nat) (X : Nat → Batch) (B : Nat → BlockRep) => ms.Nodup ∧
         ∀ m ∈ ms, 1 ≤ m ∧ m ≤ 16 ∧ s.batch m = some (X m) ∧ (X m).blockOf g = some (B m);
       let s : State := { s0 with batches := [(1, { b1 with state := 3, prog := [.mtch 7 9 1], seq := { Seq.zero with emitted := 64, wait := some (.mtch 0 64 9 1 0 (some ⟨0, 0, 1, ⟨500000, 0, 1⟩, 64, 9, 50⟩)), buf := [⟨7, 0, 64, false, false, 0, 0, 0, 0, 0, false, 0⟩], begun := 64, missReps := [1] }, segs := [(7, ⟨true, true, 0, false, false, 0, 0, 64, 0, [⟨0, 0, 0⟩]⟩)] })] };
       let b : Nat := 1;
       let g : Nat := 1;
       let reports : List LockRep := [⟨0, 5, 0⟩, ⟨1, 5, 0⟩];
       let reps : List BlockRep := [];
       let x : Batch := { b1 with state := 3, prog := [.mtch 7 9 1], seq := { Seq.zero with emitted := 64, wait := some (.mtch 0 64 9 1 0 (some ⟨0, 0, 1, ⟨500000, 0, 1⟩, 64, 9, 50⟩)), buf := [⟨7, 0, 64, false, false, 0, 0, 0, 0, 0, false, 0⟩], begun := 64, missReps := [1] }, segs := [(7, ⟨true, true, 0, false, false, 0, 0, 64, 0, [⟨0, 0, 0⟩]⟩)] };
       let X : Nat → Batch := fun _ => { b1 with state := 3, prog := [.mtch 7 9 1], seq := { Seq.zero with emitted := 64, wait := some (.mtch 0 64 9 1 0 (some ⟨0, 0, 1, ⟨500000, 0, 1⟩, 64, 9, 50⟩)), buf := [⟨7, 0, 64, false, false, 0, 0, 0, 0, 0, false, 0⟩], begun := 64, missReps := [1] }, segs := [(7, ⟨true, true, 0, false, false, 0, 0, 64, 0, [⟨0, 0, 0⟩]⟩)] };
       let B : Nat → BlockRep := fun _ => ⟨0, 0, 1, ⟨500000, 0, 1⟩, 64, 9, 50⟩;
       (agree reports ∧ (
         let ms := s.matchMembers b g;
         group s g ms X B ∧ ((∀ r ∈ ms.map B ++ reps, ∀ q ∈ ms.map B ++ reps, r = q)) ∧ (∀ m ∈ ms, (X m).repDone = true))) ∧ (waits s b g x)) :=
  ⟨by decide +kernel, ⟨by decide +kernel, rfl, _, _, _, _, _, rfl⟩⟩

/-- States and operands that meet the hypotheses of ConsensusDecisions_at_6, clause by clause. -/
theorem witness_ConsensusDecisions_at_6 :
  (let agree := fun (reports : List LockRep) => ∀ r ∈ reports, ∀ q ∈ reports, r.vnum = q.vnum ∧ r.addr = q.addr;
       let waits := fun (s : State) (b g : Nat) (x : Batch) => s.batch b = some x ∧ x.active = true ∧ ∃ a l tm d r, x.seq.wait = some (.mtch a l tm g d r);
       let group := fun (s : State) (g : Nat) (ms : List Nat) (X : Nat → Batch) (B : Nat → BlockRep) => ms.Nodup ∧
         ∀ m ∈ ms, 1 ≤ m ∧ m ≤ 16 ∧ s.batch m = some (X m) ∧ (X m).blockOf g = some (B m);
       let s : State := { s0 with batches := [(1, { b1 with state := 3, prog := [.mtch 7 1 1], seq := { Seq.zero with emitted := 64, wait := some (.mtch 0 64 1 1 0 (some ⟨0, 0, 1, ⟨500000, 0, 1⟩, 64, 9, 50⟩)), buf := [⟨7, 0, 64, false, false, 0, 0, 0, 0, 0, false, 0⟩], begun := 64, missReps := [1] }, segs := [(7, ⟨true, true, 0, false, false, 0, 0, 64, 0, [⟨0, 0, 0⟩]⟩)] })] };
       let b : Nat := 1;
       let g : Nat := 1;
       let reports : List LockRep := [⟨0, 5, 0⟩, ⟨1, 5, 0⟩];
       let reps : List BlockRep := [];
       let x : Batch := { b1 with state := 3, prog := [.mtch 7 1 1], seq := { Seq.zero with emitted := 64, wait := some (.mtch 0 64 1 1 0 (some ⟨0, 0, 1, ⟨500000, 0, 1⟩, 64, 9, 50⟩)), buf := [⟨7, 0, 64, false, false, 0, 0, 0, 0, 0, false, 0⟩], begun := 64, missReps := [1] }, segs := [(7, ⟨true, true, 0, false, false, 0, 0, 64, 0, [⟨0, 0, 0⟩]⟩)] };
       let X : Nat → Batch := fun _ => { b1 with state := 3, prog := [.mtch 7 1 1], seq := { Seq.zero with emitted := 64, wait := some (.mtch 0 64 1 1 0 (some ⟨0, 0, 1, ⟨500000, 0, 1⟩, 64, 9, 50⟩)), buf := [⟨7, 0, 64, false, false, 0, 0, 0, 0, 0, false, 0⟩], begun := 64, missReps := [1] }, segs := [(7, ⟨true, true, 0, false, false, 0, 0, 64, 0, [⟨0, 0, 0⟩]⟩)] };
       let B : Nat → BlockRep := fun _ => ⟨0, 0, 1, ⟨500000, 0, 1⟩, 64, 9, 50⟩;
       (agree reports ∧ (
         let ms := s.matchMembers b g;
         group s g ms X B ∧ ((∀ r ∈ ms.map B ++ reps, ∀ q ∈ ms.map B ++ reps, r = q)) ∧ (∀ m ∈ ms, (X m).repDone = true))) ∧ (waits s b g x)) :=
  ⟨by decide +kernel, ⟨by decide +kernel, rfl, _, _, _, _, _, rfl⟩⟩

/-- States and operands that meet the hypotheses of ConsensusDecisions_at_7, clause by clause. -/
theorem witness_ConsensusDecisions_at_7 :
  (let agree := fun (reports : List LockRep) => ∀ r ∈ reports, ∀ q ∈ reports, r.vnum = q.vnum ∧ r.addr = q.addr;
       let waits := fun (s : State) (b g : Nat) (x : Batch) => s.batch b = some x ∧ x.active = true ∧ ∃ a l tm d r, x.seq.wait = some (.mtch a l tm g d r);
       let group := fun (s : State) (g : Nat) (ms : List Nat) (X : Nat → Batch) (B : Nat → BlockRep) => ms.Nodup ∧
         ∀ m ∈ ms, 1 ≤ m ∧ m ≤ 16 ∧ s.batch m = some (X m) ∧ (X m).blockOf g = some (B m);
       let s : State := { s0 with batches := [(1, { b1 with state := 3, prog := [.mtch 7 9 129], seq := { Seq.zero with emitted := 64, wait := some (.mtch 0 64 9 129 0 (some ⟨0, 0, 1, ⟨500000, 0, 1⟩, 64, 9, 50⟩)), buf := [⟨7, 0, 64, false, false, 0, 0, 0, 0, 0, false, 0⟩], begun := 64 }, segs := [(7, ⟨true, true, 0, false, false, 0, 0, 64, 0, [⟨0, 0, 0⟩]⟩)], cmgrp := 2 }), (2, { b1 with state := 3, prog := [.mtch 7 9 129], seq := { Seq.zero with emitted := 64, wait := some (.mtch 0 64 9 129 0 (some ⟨0, 0, 1, ⟨500000, 0, 1⟩, 64, 9, 50⟩)), buf := [⟨7, 0, 64, false, false, 0, 0, 0, 0, 0, false, 0⟩], begun := 64 }, segs := [(7, ⟨true, true, 0, false, false, 0, 0, 64, 0, [⟨0, 0, 0⟩]⟩)], cmgrp := 2 })] };
       let b : Nat := 1;
       let g : Nat := 129;
       let reports : List LockRep := [⟨0, 5, 0⟩, ⟨1, 5, 0⟩];
       let reps : List BlockRep := [⟨0, 0, 1, ⟨500000, 0, 1⟩, 64, 9, 50⟩];
       let x : Batch := { b1 with state := 3, prog := [.mtch 7 9 129], seq := { Seq.zero with emitted := 64, wait := some (.mtch 0 64 9 129 0 (some ⟨0, 0, 1, ⟨500000, 0, 1⟩, 64, 9, 50⟩)), buf := [⟨7, 0, 64, false, false, 0, 0, 0, 0, 0, false, 0⟩], begun := 64 }, segs := [(7, ⟨true, true, 0, false, false, 0, 0, 64, 0, [⟨0, 0, 0⟩]⟩)], cmgrp := 2 };
       let X : Nat → Batch := fun m => if m = 1 then { b1 with state := 3, prog := [.mtch 7 9 129], seq := { Seq.zero with emitted := 64, wait := some (.mtch 0 64 9 129 0 (some ⟨0, 0, 1, ⟨500000, 0, 1⟩, 64, 9, 50⟩)), buf := [⟨7, 0, 64, false, false, 0, 0, 0, 0, 0, false, 0⟩], begun := 64 }, segs := [(7, ⟨true, true, 0, false, false, 0, 0, 64, 0, [⟨0, 0, 0⟩]⟩)], cmgrp := 2 } else { b1 with state := 3, prog := [.mtch 7 9 129], seq := { Seq.zero with emitted := 64, wait := some (.mtch 0 64 9 129 0 (some ⟨0, 0, 1, ⟨500000, 0, 1⟩, 64, 9, 50⟩)), buf := [⟨7, 0, 64, false, false, 0, 0, 0, 0, 0, false, 0⟩], begun := 64 }, segs := [(7, ⟨true, true, 0, false, false, 0, 0, 64, 0, [⟨0, 0, 0⟩]⟩)], cmgrp := 2 };
       let B : Nat → BlockRep := fun _ => ⟨0, 0, 1, ⟨500000, 0, 1⟩, 64, 9, 50⟩;
       (agree reports ∧ (
         let ms := s.matchMembers b g;
         group s g ms X B ∧ ((∀ r ∈ ms.map B ++ reps, ∀ q ∈ ms.map B ++ reps, r = q)) ∧ (∀ m ∈ ms, (X m).repDone = true))) ∧ (waits s b g x)) :=
  ⟨by decide +kernel, ⟨by decide +kernel, rfl, _, _, _, _, _, rfl⟩⟩

/-- States and operands that meet the hypotheses of ConsensusDecisions_at_8, clause by clause. -/
theorem witness_ConsensusDecisions_at_8 :
  (let agree := fun (reports : List LockRep) => ∀ r ∈ reports, ∀ q ∈ reports, r.vnum = q.vnum ∧ r.addr = q.addr;
       let waits := fun (s : State) (b g : Nat) (x : Batch) => s.batch b = some x ∧ x.active = true ∧ ∃ a l tm d r, x.seq.wait = some (.mtch a l tm g d r);
       let group := fun (s : State) (g : Nat) (ms : List Nat) (X : Nat → Batch) (B : Nat → BlockRep) => ms.Nodup ∧
         ∀ m ∈ ms, 1 ≤ m ∧ m ≤ 16 ∧ s.batch m = some (X m) ∧ (X m).blockOf g = some (B m);
       let s : State := { s0 with batches := [(1, { b1 with state := 3, prog := [.mtch 7 9 129], seq := { Seq.zero with emitted := 64, wait := some (.mtch 0 64 9 129 0 (some ⟨0, 0, 1, ⟨500000, 0, 1⟩, 64, 9, 50⟩)), buf := [⟨7, 0, 64, false, false, 0, 0, 0, 0, 0, false, 0⟩], begun := 64 }, segs := [(7, ⟨true, true, 0, false, false, 0, 0, 64, 0, [⟨0, 0, 0⟩]⟩)], cmgrp := 2 }), (2, { b1 with state := 3, prog := [.mtch 7 9 129], seq := { Seq.zero with emitted := 64, wait := some (.mtch 0 64 9 129 0 (some ⟨0, 0, 1, ⟨500000, 0, 1⟩, 64, 9, 50⟩)), buf := [⟨7, 0, 64, false, false, 0, 0, 0, 0, 0, false, 0⟩], begun := 64, missReps := [1] }, segs := [(7, ⟨true, true, 0, false, false, 0, 0, 64, 0, [⟨0, 0, 0⟩]⟩)], cmgrp := 2 })] };
       let b : Nat := 1;
       let g : Nat := 129;
       let reports : List LockRep := [⟨0, 5, 0⟩, ⟨1, 5, 0⟩];
       let reps : List BlockRep := [⟨0, 0, 1, ⟨500000, 0, 1⟩, 64, 9, 50⟩];
       let x : Batch := { b1 with state := 3, prog := [.mtch 7 9 129], seq := { Seq.zero with emitted := 64, wait := some (.mtch 0 64 9 129 0 (some ⟨0, 0, 1, ⟨500000, 0, 1⟩, 64, 9, 50⟩)), buf := [⟨7, 0, 64, false, false, 0, 0, 0, 0, 0, false, 0⟩], begun := 64 }, segs := [(7, ⟨true, true, 0, false, false, 0, 0, 64, 0, [⟨0, 0, 0⟩]⟩)], cmgrp := 2 };
       let X : Nat → Batch := fun m => if m = 1 then { b1 with state := 3, prog := [.mtch 7 9 129], seq := { Seq.zero with emitted := 64, wait := some (.mtch 0 64 9 129 0 (some ⟨0, 0, 1, ⟨500000, 0, 1⟩, 64, 9, 50⟩)), buf := [⟨7, 0, 64, false, false, 0, 0, 0, 0, 0, false, 0⟩], begun := 64 }, segs := [(7, ⟨true, true, 0, false, false, 0, 0, 64, 0, [⟨0, 0, 0⟩]⟩)], cmgrp := 2 } else { b1 with state := 3, prog := [.mtch 7 9 129], seq := { Seq.zero with emitted := 64, wait := some (.mtch 0 64 9 129 0 (some ⟨0, 0, 1, ⟨500000, 0, 1⟩, 64, 9, 50⟩)), buf := [⟨7, 0, 64, false, false, 0, 0, 0, 0, 0, false, 0⟩], begun := 64, missReps := [1] }, segs := [(7, ⟨true, true, 0, false, false, 0, 0, 64, 0, [⟨0, 0, 0⟩]⟩)], cmgrp := 2 };
       let B : Nat → BlockRep := fun _ => ⟨0, 0, 1, ⟨500000, 0, 1⟩, 64, 9, 50⟩;
       (agree reports ∧ (
         let ms := s.matchMembers b g;
         group s g ms X B ∧ ((∀ r ∈ ms.map B ++ reps, ∀ q ∈ ms.map B ++ reps, r = q)) ∧ (∀ m ∈ ms, (X m).repDone = true))) ∧ (waits s b g x)) :=
  ⟨by decide +kernel, ⟨by decide +kernel, rfl, _, _, _, _, _, rfl⟩⟩

/-- States and operands that meet the hypotheses of ConsensusDecisions_at_9, clause by clause. -/
theorem witness_ConsensusDecisions_at_9 :
  (let agree := fun (reports : List LockRep) => ∀ r ∈ reports, ∀ q ∈ reports, r.vnum = q.vnum ∧ r.addr = q.addr;
       let waits := fun (s : State) (b g : Nat) (x : Batch) => s.batch b = some x ∧ x.active = true ∧ ∃ a l tm d r, x.seq.wait = some (.mtch a l tm g d r);
       let group := fun (s : State) (g : Nat) (ms : List Nat) (X : Nat → Batch) (B : Nat → BlockRep) => ms.Nodup ∧
         ∀ m ∈ ms, 1 ≤ m ∧ m ≤ 16 ∧ s.batch m = some (X m) ∧ (X m).blockOf g = some (B m);
       let s : State := { s0 with batches := [(1, { b1 with state := 3, prog := [.mtch 7 9 129], seq := { Seq.zero with emitted := 64, wait := some (.mtch 0 64 9 129 0 (some ⟨0, 0, 1, ⟨500000, 0, 1⟩, 64, 9, 50⟩)), buf := [⟨7, 0, 64, false, false, 0, 0, 0, 0, 0, false, 0⟩], begun := 64 }, segs := [(7, ⟨true, true, 0, false, false, 0, 0, 64, 0, [⟨0, 0, 0⟩]⟩)], cmgrp := 2 }), (2, { b1 with state := 3, prog := [.mtch 7 9 129], seq := { Seq.zero with emitted := 64, wait := some (.mtch 0 64 9 129 0 (some ⟨0, 0, 1, ⟨500000, 0, 1⟩, 64, 9, 50⟩)), buf := [⟨7, 0, 64, false, false, 0, 0, 0, 0, 0, false, 0⟩], begun := 64 }, segs := [(7, ⟨true, true, 0, false, false, 0, 0, 64, 0, [⟨0, 0, 0⟩]⟩)], cmgrp := 2 })] };
       let b : Nat := 1;
       let g : Nat := 129;
       let reports : List LockRep := [⟨0, 5, 0⟩, ⟨1, 5, 0⟩];
       let reps : List BlockRep := [⟨0, 0, 1, ⟨500000, 0, 1⟩, 64, 9, 50⟩];
       let x : Batch := { b1 with state := 3, prog := [.mtch 7 9 129], seq := { Seq.zero with emitted := 64, wait := some (.mtch 0 64 9 129 0 (some ⟨0, 0, 1, ⟨500000, 0, 1⟩, 64, 9, 50⟩)), buf := [⟨7, 0, 64, false, false, 0, 0, 0, 0, 0, false, 0⟩], begun := 64 }, segs := [(7, ⟨true, true, 0, false, false, 0, 0, 64, 0, [⟨0, 0, 0⟩]⟩)], cmgrp := 2 };
       let X : Nat → Batch := fun m => if m = 1 then { b1 with state := 3, prog := [.mtch 7 9 129], seq := { Seq.zero with emitted := 64, wait := some (.mtch 0 64 9 129 0 (some ⟨0, 0, 1, ⟨500000, 0, 1⟩, 64, 9, 50⟩)), buf := [⟨7, 0, 64, false, false, 0, 0, 0, 0, 0, false, 0⟩], begun := 64 }, segs := [(7, ⟨true, true, 0, false, false, 0, 0, 64, 0, [⟨0, 0, 0⟩]⟩)], cmgrp := 2 } else { b1 with state := 3, prog := [.mtch 7 9 129], seq := { Seq.zero with emitted := 64, wait := some (.mtch 0 64 9 129 0 (some ⟨0, 0, 1, ⟨500000, 0, 1⟩, 64, 9, 50⟩)), buf := [⟨7, 0, 64, false, false, 0, 0, 0, 0, 0, false, 0⟩], begun := 64 }, segs := [(7, ⟨true, true, 0, false, false, 0, 0, 64, 0, [⟨0, 0, 0⟩]⟩)], cmgrp := 2 };
       let B : Nat → BlockRep := fun _ => ⟨0, 0, 1, ⟨500000, 0, 1⟩, 64, 9, 50⟩;
       (agree reports ∧ (
         let ms := s.matchMembers b g;
         group s g ms X B ∧ ((∀ r ∈ ms.map B ++ reps, ∀ q ∈ ms.map B ++ reps, r = q)) ∧ (∀ m ∈ ms, (X m).repDone = true))) ∧ (waits s b g x)) :=
  ⟨by decide +kernel, ⟨by decide +kernel, rfl, _, _, _, _, _, rfl⟩⟩

/-- States and operands that meet the hypotheses of Rendezvous_1, clause by clause. -/
theorem witness_Rendezvous_1 :
  (let s : State := { s0 with batches := [(1, { b1 with state := 3, syncgrp := 2, dmask := 1, seq := { Seq.zero with wait := some (.sync ⟨100, 0, 1⟩ 5 7) } })], cellar := { s0.cellar with cdev := 1 } };
       let p : SyncRep := ⟨2, 0, 1, 7, 5, ⟨100, 0, 1⟩, 1⟩;
       s.decides p.group = false) ∧
  (let held := fun (s : State) (p : SyncRep) => s.syncs.filter (fun q => !(q.group == p.group && q.dev == p.dev && q.b == p.b)) ++ [p];
       let s : State := { s0 with batches := [(1, { b1 with state := 3, syncgrp := 2, dmask := 1, seq := { Seq.zero with wait := some (.sync ⟨100, 0, 1⟩ 5 7) } }), (2, { b1 with state := 3, syncgrp := 2, dmask := 1, seq := { Seq.zero with wait := some (.sync ⟨100, 0, 1⟩ 5 7) } })], cellar := { s0.cellar with cdev := 0 }, syncs := [⟨2, 0, 2, 7, 5, ⟨90, 0, 1⟩, 1⟩] };
       let p : SyncRep := ⟨2, 0, 1, 7, 5, ⟨100, 0, 1⟩, 1⟩;
       let t : Nat := 0;
       s.decides p.group = true ∧ (
         let v : State := { s.at_ t with syncs := held s p };
         let rs := (held s p).filter (fun q => q.group == p.group);
         ((∀ q ∈ rs, q.rdv = p.rdv) ∧ v.allReported p.group = true))) ∧
  (let held := fun (s : State) (p : SyncRep) => s.syncs.filter (fun q => !(q.group == p.group && q.dev == p.dev && q.b == p.b)) ++ [p];
       let s : State := { s0 with batches := [(1, { b1 with state := 3, syncgrp := 2, dmask := 1, seq := { Seq.zero with wait := some (.sync ⟨100, 0, 1⟩ 5 7) } }), (2, { b1 with state := 3, syncgrp := 2, dmask := 1, seq := { Seq.zero with wait := some (.sync ⟨100, 0, 1⟩ 5 7) } })], cellar := { s0.cellar with cdev := 0 }, syncs := [⟨2, 0, 2, 8, 5, ⟨90, 0, 1⟩, 1⟩] };
       let p : SyncRep := ⟨2, 0, 1, 7, 5, ⟨100, 0, 1⟩, 1⟩;
       s.decides p.group = true ∧ (
         let rs := (held s p).filter (fun q => q.group == p.group);
         (∃ q ∈ rs, q.rdv ≠ p.rdv))) ∧
  (let held := fun (s : State) (p : SyncRep) => s.syncs.filter (fun q => !(q.group == p.group && q.dev == p.dev && q.b == p.b)) ++ [p];
       let s : State := { s0 with batches := [(1, { b1 with state := 3, syncgrp := 2, dmask := 1, seq := { Seq.zero with wait := some (.sync ⟨100, 0, 1⟩ 5 7) } }), (2, { b1 with state := 3, syncgrp := 2, dmask := 1, seq := { Seq.zero with wait := some (.sync ⟨100, 0, 1⟩ 5 7) } })], cellar := { s0.cellar with cdev := 0 }, syncs := [] };
       let p : SyncRep := ⟨2, 0, 1, 7, 5, ⟨100, 0, 1⟩, 1⟩;
       let t : Nat := 5000000101;
       s.decides p.group = true ∧ (
         let v : State := { s.at_ t with syncs := held s p };
         let rs := (held s p).filter (fun q => q.group == p.group);
         let past := match syncDeadline rs with
           | some (aw, n) => n != 0 && !(Acc.start v.now 1).le (aw.plus (n * 1000000000))
           | none => false;
         ((∀ q ∈ rs, q.rdv = p.rdv) ∧ v.allReported p.group = false ∧ past = true))) ∧
  (let held := fun (s : State) (p : SyncRep) => s.syncs.filter (fun q => !(q.group == p.group && q.dev == p.dev && q.b == p.b)) ++ [p];
       let s : State := { s0 with batches := [(1, { b1 with state := 3, syncgrp := 2, dmask := 1, seq := { Seq.zero with wait := some (.sync ⟨100, 0, 1⟩ 5 7) } }), (2, { b1 with state := 3, syncgrp := 2, dmask := 1, seq := { Seq.zero with wait := some (.sync ⟨100, 0, 1⟩ 5 7) } })], cellar := { s0.cellar with cdev := 0 }, syncs := [] };
       let p : SyncRep := ⟨2, 0, 1, 7, 5, ⟨100, 0, 1⟩, 1⟩;
       let t : Nat := 0;
       s.decides p.group = true ∧ (
         let v : State := { s.at_ t with syncs := held s p };
         let rs := (held s p).filter (fun q => q.group == p.group);
         let past := match syncDeadline rs with
           | some (aw, n) => n != 0 && !(Acc.start v.now 1).le (aw.plus (n * 1000000000))
           | none => false;
         ((∀ q ∈ rs, q.rdv = p.rdv) ∧ v.allReported p.group = false ∧ past = false))) :=
  by refine ⟨?_, ?_, ?_, ?_, ?_⟩ <;> decide +kernel

/-- States and operands that meet the hypotheses of Rendezvous_2, clause by clause. -/
theorem witness_Rendezvous_2 :
  (let s : State := { s0 with batches := [(1, { b1 with state := 3, syncgrp := 2, dmask := 1, seq := { Seq.zero with wait := some (.sync ⟨100, 0, 1⟩ 5 7) } }), (2, { b1 with state := 3, syncgrp := 2, dmask := 1, seq := { Seq.zero with wait := some (.sync ⟨100, 0, 1⟩ 5 7) } })], cellar := { s0.cellar with cdev := 0 }, syncs := [⟨2, 0, 1, 7, 5, ⟨100, 1, 3⟩, 1⟩, ⟨2, 0, 2, 7, 5, ⟨100, 1, 2⟩, 1⟩] };
       let g : Nat := 2;
       s.syncReports g ≠ [] ∧ ((∀ q ∈ s.syncReports g, 0 < q.aw.d))) ∧
  (let rs : List SyncRep := [⟨2, 0, 1, 7, 5, ⟨100, 0, 1⟩, 1⟩, ⟨2, 0, 2, 7, 3, ⟨100, 0, 1⟩, 1⟩];
       let aw : Acc := ⟨100, 0, 1⟩;
       let n : Nat := 3;
       ((∀ q ∈ rs, 0 < q.aw.d)) ∧ syncDeadline rs = some (aw, n)) :=
  by refine ⟨?_, ?_⟩ <;> decide +kernel

/-- States and operands that meet the hypotheses of StrobesAndFailRecords, clause by clause. -/
theorem witness_StrobesAndFailRecords :
  (let s : State := { s0 with batches := [(1, { b1 with state := 3, awaiting := [⟨0, 3, 0, 0, 0, false, 1, [⟨0, 5, false⟩], []⟩], site := { SiteCfg.zero with defined := true, siteOf := List.replicate 16 0, fmcap := 2, rings := [(0, ⟨64, 0, 0, 0, 1⟩)] } })] };
       let b : Nat := 1;
       let sl : Nat := 0;
       let obs : List Obs := [⟨0, false, false, []⟩];
       let x : Batch := { b1 with state := 3, awaiting := [⟨0, 3, 0, 0, 0, false, 1, [⟨0, 5, false⟩], []⟩], site := { SiteCfg.zero with defined := true, siteOf := List.replicate 16 0, fmcap := 2, rings := [(0, ⟨64, 0, 0, 0, 1⟩)] } };
       let g : Group := ⟨0, 3, 0, 0, 0, false, 1, [⟨0, 5, false⟩], []⟩;
       s.batch b = some x ∧ x.awaiting.find? (fun g => g.sl == sl && !g.strobes.isEmpty) = some g ∧ g.rep ≠ 0 ∧ g.strobes.map (fun t => t.ch) = obs.map (fun o => o.ch) ∧ s.waits = [] ∧ ((∀ h ∈ x.awaiting, h.strobes ≠ [])) ∧ x.forming = []) ∧
  (let t : Strobe := ⟨0, 7, false⟩;
       t.window = false ∧ 4 ≤ t.act ∧ t.act ≤ 7) ∧
  (let t : Strobe := ⟨0, 7, true⟩;
       t.window = true ∧ 4 ≤ t.act ∧ t.act ≤ 7) ∧
  (let first := fun (f : Formed) (rest : List Formed) => f.fr.sl < 32 ∧ ∀ g ∈ rest, keyLt g.fr.key f.fr.key = false;
       let s : State := { s0 with batches := [(1, { b1 with state := 3, formed := [⟨⟨3, 0, 0, 0, 0, 1, 5, 1, 0, 0⟩, false, true⟩], site := { SiteCfg.zero with defined := true, siteOf := List.replicate 16 0, fmcap := 2, rings := [(0, ⟨64, 0, 0, 0, 1⟩)] } })] };
       let b : Nat := 1;
       let r : Nat := 2;
       let x : Batch := { b1 with state := 3, formed := [⟨⟨3, 0, 0, 0, 0, 1, 5, 1, 0, 0⟩, false, true⟩], site := { SiteCfg.zero with defined := true, siteOf := List.replicate 16 0, fmcap := 2, rings := [(0, ⟨64, 0, 0, 0, 1⟩)] } };
       let f : Formed := ⟨⟨3, 0, 0, 0, 0, 1, 5, 1, 0, 0⟩, false, true⟩;
       let rest : List Formed := [];
       s.batch b = some x ∧ x.formed = f :: rest ∧ first f rest ∧ s.waits = [] ∧ x.unlogged f = some r) ∧
  (let first := fun (f : Formed) (rest : List Formed) => f.fr.sl < 32 ∧ ∀ g ∈ rest, keyLt g.fr.key f.fr.key = false;
       let s : State := { s0 with batches := [(1, { b1 with state := 3, formed := [⟨⟨3, 0, 0, 0, 0, 1, 5, 1, 0, 0⟩, false, false⟩], site := { SiteCfg.zero with defined := true, siteOf := List.replicate 16 0, fmcap := 2, rings := [(0, ⟨64, 0, 0, 0, 1⟩)] } })] };
       let b : Nat := 1;
       let x : Batch := { b1 with state := 3, formed := [⟨⟨3, 0, 0, 0, 0, 1, 5, 1, 0, 0⟩, false, false⟩], site := { SiteCfg.zero with defined := true, siteOf := List.replicate 16 0, fmcap := 2, rings := [(0, ⟨64, 0, 0, 0, 1⟩)] } };
       let f : Formed := ⟨⟨3, 0, 0, 0, 0, 1, 5, 1, 0, 0⟩, false, false⟩;
       let rest : List Formed := [];
       s.batch b = some x ∧ x.formed = f :: rest ∧ first f rest ∧ s.waits = [] ∧ x.unlogged f = none ∧ s.noFetch f.fr.sl = false ∧ x.flow.loaded = false ∧ (
         let g := x.site.rings.get QRing.zero (f.fr.sl / 8);
         let a := x.freeSlot (f.fr.sl / 8) g;
         s.inRegion b a 32 = true ∧ a % 32 = 0 ∧ (s.stack (aStack a)).frozen = false)) :=
  by refine ⟨?_, ?_, ?_, ?_, ?_⟩ <;> decide +kernel

/-- States and operands that meet the hypotheses of StrobesAndFailRecords_at_1, clause by clause. -/
theorem witness_StrobesAndFailRecords_at_1 :
  (let s : State := { s0 with batches := [(1, { b1 with state := 3, awaiting := [⟨0, 3, 0, 0, 0, false, 0, [⟨0, 5, false⟩], []⟩], site := { SiteCfg.zero with defined := true, siteOf := List.replicate 16 0, fmcap := 2, rings := [(0, ⟨64, 0, 0, 0, 1⟩)] } })] };
       let b : Nat := 1;
       let sl : Nat := 0;
       let obs : List Obs := [⟨0, false, false, []⟩];
       let x : Batch := { b1 with state := 3, awaiting := [⟨0, 3, 0, 0, 0, false, 0, [⟨0, 5, false⟩], []⟩], site := { SiteCfg.zero with defined := true, siteOf := List.replicate 16 0, fmcap := 2, rings := [(0, ⟨64, 0, 0, 0, 1⟩)] } };
       let g : Group := ⟨0, 3, 0, 0, 0, false, 0, [⟨0, 5, false⟩], []⟩;
       (s.batch b = some x ∧ x.awaiting.find? (fun g => g.sl == sl && !g.strobes.isEmpty) = some g ∧ g.rep = 0 ∧ g.strobes.map (fun t => t.ch) = obs.map (fun o => o.ch) ∧ s.waits = [] ∧ x.site.blimit = 0) ∧ (((∀ i, (x.site.site i).slimit = 0)))) :=
  ⟨by decide +kernel, fun _ => rfl⟩

/-- States and operands that meet the hypotheses of StrobesAndFailRecords_at_2, clause by clause. -/
theorem witness_StrobesAndFailRecords_at_2 :
  (let s : State := { s0 with batches := [(1, { b1 with state := 3, awaiting := [⟨0, 3, 0, 0, 0, false, 0, [⟨0, 5, false⟩], []⟩], site := { SiteCfg.zero with defined := true, siteOf := List.replicate 16 0, fmcap := 2, rings := [(0, ⟨64, 0, 0, 0, 1⟩)] } })] };
       let u : State := outS (exec (.compareDecision 1 0 [⟨0, false, false, []⟩]) s);
       let b : Nat := 1;
       let sl : Nat := 0;
       let obs : List Obs := [⟨0, false, false, []⟩];
       let x : Batch := { b1 with state := 3, awaiting := [⟨0, 3, 0, 0, 0, false, 0, [⟨0, 5, false⟩], []⟩], site := { SiteCfg.zero with defined := true, siteOf := List.replicate 16 0, fmcap := 2, rings := [(0, ⟨64, 0, 0, 0, 1⟩)] } };
       let y : Batch := (u.batch 1).getD b1;
       (s.batch b = some x ∧ x.counts.balanced = true ∧ u.batch b = some y) ∧ (exec (.compareDecision b sl obs) s = .next u)) :=
  ⟨by decide +kernel, rfl⟩

/-- States and operands that meet the hypotheses of StrobesAndFailRecords_at_3, clause by clause. -/
theorem witness_StrobesAndFailRecords_at_3 :
  (let s : State := { s0 with batches := [(1, { b1 with state := 3, formed := [⟨⟨3, 0, 0, 0, 0, 1, 5, 1, 0, 0⟩, false, false⟩], site := { SiteCfg.zero with defined := true, siteOf := List.replicate 16 0, fmcap := 2, rings := [(0, ⟨64, 0, 0, 0, 1⟩)] } })] };
       let u : State := outS (exec (.failMemoryWrite 1) s);
       let b : Nat := 1;
       let x : Batch := { b1 with state := 3, formed := [⟨⟨3, 0, 0, 0, 0, 1, 5, 1, 0, 0⟩, false, false⟩], site := { SiteCfg.zero with defined := true, siteOf := List.replicate 16 0, fmcap := 2, rings := [(0, ⟨64, 0, 0, 0, 1⟩)] } };
       let y : Batch := (u.batch 1).getD b1;
       (s.batch b = some x ∧ x.counts.balanced = true ∧ u.batch b = some y) ∧ (exec (.failMemoryWrite b) s = .next u)) :=
  ⟨by decide +kernel, rfl⟩

/-- States and operands that meet the hypotheses of Acquisition_1, clause by clause. -/
theorem witness_Acquisition_1 :
  (let s : State := { s0 with acqs := [(0, { Acq.zero with cfg := some ⟨0, 0, 0, 0, 0, 0xFFFF, 0, 0, 1, 1, 0, 100000000, 1, 16, 4096, 0, 1⟩, armed := true, window := some ⟨140737488355328, 2199023255552000000, false, 0, 0, false, 0, false⟩ })] };
       let pcell : Nat := 0;
       let cml : Bool := true;
       let rise : Bool := true;
       let k := tdcKey pcell cml;
         (s.tdc k).blind = false ∧ (s.tdc k).level ≠ some rise ∧ s.powered (3 + pcell / 17) = true) ∧
  (let s : State := { s0 with tdcs := [(1, ⟨some true, false, [], none⟩)] };
       let pcell : Nat := 0;
       let cml : Bool := true;
       let rise : Bool := true;
       let k := tdcKey pcell cml;
         (((s.tdc k).blind = true ∨ (s.tdc k).level = some rise ∨ s.powered (3 + pcell / 17) = false))) ∧
  (let s : State := { s0 with tdcs := [(1, ⟨some true, true, [], none⟩)] };
       let pcell : Nat := 0;
       let cml : Bool := true;
       let level : Bool := true;
       let k := tdcKey pcell cml;
         (s.tdc k).blind = true ∧ (s.tdc k).level = some level) ∧
  (let s : State := { s0 with acqs := [(0, { Acq.zero with cfg := some ⟨0, 0, 0, 0, 0, 0xFFFF, 0, 0, 1, 1, 0, 100000000, 1, 16, 4096, 0, 1⟩, armed := true, window := some ⟨140737488355328, 2199023255552000000, false, 0, 0, false, 0, false⟩ })] , tdcs := [(1, ⟨some false, true, [], none⟩)] };
       let pcell : Nat := 0;
       let cml : Bool := true;
       let level : Bool := true;
       let k := tdcKey pcell cml;
         (s.tdc k).blind = true ∧ (s.tdc k).level ≠ some level) ∧
  (let s : State := { s0 with acqs := [(0, { Acq.zero with cfg := some ⟨0, 0, 0, 0, 0, 0xFFFF, 0, 0, 1, 1, 0, 100000000, 1, 16, 4096, 0, 1⟩, armed := true, events := [⟨140737488355328, 0, false, false, false, false⟩] })] };
       let n : Nat := 0;
       let t : Nat := 1000000000;
       let c : AcqCfg := ⟨0, 0, 0, 0, 0, 0xFFFF, 0, 0, 1, 1, 0, 100000000, 1, 16, 4096, 0, 1⟩;
       let evs : List Event := (judge c (scale16 t) [] (s.acq n).events).1;
       let before : List Event := ((judge c (scale16 t) [] (s.acq n).events).2.getD (⟨140737488355328, 0, false, false, false, false⟩, [])).2;
       let e : Event := ((judge c (scale16 t) [] (s.acq n).events).2.getD (⟨140737488355328, 0, false, false, false, false⟩, [])).1;
       (s.acq n).cfg = some c ∧ (s.acq n).armed = true ∧ (s.acq n).window = none ∧ judge c (scale16 t) [] (s.acq n).events = (evs, some (e, before)) ∧ (s.acq n).lastTrig = none ∧ c.flags.testBit 0 = false) :=
  by refine ⟨?_, ?_, ?_, ?_, ?_⟩ <;> decide +kernel

/-- States and operands that meet the hypotheses of Acquisition_2, clause by clause. -/
theorem witness_Acquisition_2 :
  (let s : State := { s0 with acqs := [(0, { Acq.zero with cfg := some ⟨0, 0, 0, 0, 0, 0xFFFF, 0, 0, 1, 1, 0, 100000000, 1, 16, 4096, 0, 1⟩, armed := true, events := [⟨140737488355328, 0, false, false, false, false⟩], lastTrig := some 2199023255552000000 })] };
       let n : Nat := 0;
       let t : Nat := 1000000000;
       let l : Nat := 2199023255552000000;
       let c : AcqCfg := ⟨0, 0, 0, 0, 0, 0xFFFF, 0, 0, 1, 1, 0, 100000000, 1, 16, 4096, 0, 1⟩;
       let evs : List Event := (judge c (scale16 t) [] (s.acq n).events).1;
       let before : List Event := ((judge c (scale16 t) [] (s.acq n).events).2.getD (⟨140737488355328, 0, false, false, false, false⟩, [])).2;
       let e : Event := ((judge c (scale16 t) [] (s.acq n).events).2.getD (⟨140737488355328, 0, false, false, false, false⟩, [])).1;
       (s.acq n).cfg = some c ∧ (s.acq n).armed = true ∧ judge c (scale16 t) [] (s.acq n).events = (evs, some (e, before)) ∧ (s.acq n).lastTrig = some l ∧ trigPoint c e < l + 16 * max c.post (max c.recint (if c.flags.testBit 0 then 0 else c.holdoff % 281474976710656))) ∧
  (let s : State := { s0 with acqs := [(0, { Acq.zero with cfg := some ⟨0, 0, 0, 0, 0, 0xFFFF, 0, 0, 1, 1, 0, 100000000, 1, 16, 4096, 0, 1⟩, armed := true })] };
       let n : Nat := 0;
       let t : Nat := 1000000000;
       let c : AcqCfg := ⟨0, 0, 0, 0, 0, 0xFFFF, 0, 0, 1, 1, 0, 100000000, 1, 16, 4096, 0, 1⟩;
       let evs : List Event := [];
       (s.acq n).cfg = some c ∧ (s.acq n).armed = true ∧ judge c (scale16 t) [] (s.acq n).events = (evs, none)) ∧
  (let s : State := { s0 with acqs := [(0, { Acq.zero with cfg := some ⟨0, 0, 0, 0, 0, 0xFFFF, 0, 0, 1, 1, 0, 100000000, 1, 16, 4096, 0, 1⟩, armed := true, window := some ⟨140737488355328, 2199023255552000000, false, 0, 0, false, 0, false⟩ })] };
       let n : Nat := 0;
       let t : Nat := 1000000000;
       let c : AcqCfg := ⟨0, 0, 0, 0, 0, 0xFFFF, 0, 0, 1, 1, 0, 100000000, 1, 16, 4096, 0, 1⟩;
       let w : Window := ⟨140737488355328, 2199023255552000000, false, 0, 0, false, 0, false⟩;
       (s.acq n).cfg = some c ∧ (s.acq n).window = some w ∧ w.trig + 16 * c.post ≤ scale16 t ∧ (s.acq n).recs.length < c.ringslots ∧ (s.acq n).nrec = 0 ∧ (s.acq n).ls = none ∧ (s.flow (s.acqOwner.get 0 n)).phase ≠ 2) ∧
  (let s : State := { s0 with acqs := [(0, { Acq.zero with cfg := some ⟨0, 0, 0, 0, 0, 0xFFFF, 0, 0, 1, 1, 0, 100000000, 1, 16, 4096, 0, 1⟩, armed := true, recs := [⟨0, 0, 32928⟩], window := some ⟨140737488355328, 2199023255552000000, false, 0, 0, false, 0, false⟩ })] };
       let n : Nat := 0;
       let t : Nat := 1000000000;
       let c : AcqCfg := ⟨0, 0, 0, 0, 0, 0xFFFF, 0, 0, 1, 1, 0, 100000000, 1, 16, 4096, 0, 1⟩;
       let w : Window := ⟨140737488355328, 2199023255552000000, false, 0, 0, false, 0, false⟩;
       (s.acq n).cfg = some c ∧ (s.acq n).window = some w ∧ w.trig + 16 * c.post ≤ scale16 t ∧ c.ringslots ≤ (s.acq n).recs.length ∧ (s.acq n).nrec = 0) ∧
  (let s : State := { s0 with acqs := [(0, { Acq.zero with cfg := some ⟨0, 0, 0, 0, 0, 0xFFFF, 0, 0, 1, 1, 0, 100000000, 1, 16, 4096, 0, 1⟩, armed := true, nrec := 1, window := some ⟨140737488355328, 2199023255552000000, false, 0, 0, false, 0, false⟩ })] };
       let n : Nat := 0;
       let t : Nat := 1000000000;
       let c : AcqCfg := ⟨0, 0, 0, 0, 0, 0xFFFF, 0, 0, 1, 1, 0, 100000000, 1, 16, 4096, 0, 1⟩;
       let w : Window := ⟨140737488355328, 2199023255552000000, false, 0, 0, false, 0, false⟩;
       (s.acq n).cfg = some c ∧ (s.acq n).window = some w ∧ w.trig + 16 * c.post ≤ scale16 t ∧ (s.acq n).nrec ≠ 0 ∧ (s.acq n).nrec ≤ (s.acq n).recno + 1 ∧ (s.flow (s.acqOwner.get 0 n)).phase ≠ 2) :=
  by refine ⟨?_, ?_, ?_, ?_, ?_⟩ <;> decide +kernel

/-- States and operands that meet the hypotheses of FlowEvents_1, clause by clause. -/
theorem witness_FlowEvents_1 :
  (let s : State := { s0 with batches := [(1, { b1 with flow := { Flow.zero with loaded := true, dlslots := 16, pinEn := true } })] };
       let pin : Nat := 0;
       let x : Batch := { b1 with flow := { Flow.zero with loaded := true, dlslots := 16, pinEn := true } };
       let b := s.trigInOwner.get 0 pin;
         s.batch b = some x ∧ x.flow.loaded = true ∧ x.flow.pinEn = true ∧ x.flow.pin = pin ∧ x.flow.active = false) ∧
  (let s : State := s0;
       let pin : Nat := 0;
       let f := s.flow (s.trigInOwner.get 0 pin);
         ((f.loaded = false ∨ f.pinEn = false ∨ f.pin ≠ pin ∨ f.active = true))) ∧
  (let s : State := { s0 with batches := [(1, { b1 with flow := { Flow.zero with loaded := true, dlslots := 16 } })], trigIn := [(0, ⟨true, true⟩)] };
       let pin : Nat := 0;
       let fall : Bool := true;
       let x : Batch := { b1 with flow := { Flow.zero with loaded := true, dlslots := 16 } };
       let b := s.trigInOwner.get 0 pin;
         let p := s.trigIn.get TrigIn.zero pin;
         s.batch b = some x ∧ p.post = true ∧ p.fall = fall ∧ x.flow.loaded = true ∧ s.queueFull b 0 = false) ∧
  (let s : State := { s0 with trigIn := [(0, ⟨true, true⟩)] };
       let pin : Nat := 0;
       let fall : Bool := true;
       let p := s.trigIn.get TrigIn.zero pin;
         p.post = true ∧ p.fall = fall) ∧
  (let s : State := { s0 with batches := [(1, { b1 with flow := { Flow.zero with loaded := true, dlslots := 16 } })], trigIn := [(0, ⟨true, true⟩)], sched := { s0.sched with ready := List.replicate 32 ⟨1, 0, 0, 0, .done, none⟩ } };
       let pin : Nat := 0;
       let fall : Bool := true;
       let b := s.trigInOwner.get 0 pin;
         let p := s.trigIn.get TrigIn.zero pin;
         p.post = true ∧ p.fall = fall ∧ ((s.flow b).loaded = true ∧ s.queueFull b 0 = true)) :=
  by refine ⟨?_, ?_, ?_, ?_, ?_⟩ <;> decide +kernel

/-- States and operands that meet the hypotheses of FlowEvents_2, clause by clause. -/
theorem witness_FlowEvents_2 :
  (let s : State := s0;
       let pin : Nat := 0;
       let fall : Bool := false;
       let p := s.trigIn.get TrigIn.zero pin;
         ((p.post = false ∨ p.fall ≠ fall))) ∧
  (let s : State := { s0 with batches := [(1, { b1 with flow := { Flow.zero with loaded := true, dlslots := 16, active := true, phase := 2, timeoutAt := 125000, steps := [⟨2, 0, 0, 0, 0, 0, 0, 1, false, false, 0, 0, 1, 1, 0⟩] } })], acqs := [(0, { Acq.zero with cfg := some ⟨0, 0, 0, 0, 0, 0xFFFF, 0, 0, 1, 1, 0, 100000000, 1, 16, 4096, 0, 1⟩, armed := true })] };
       let b : Nat := 1;
       let t : Nat := 125000;
       (s.flow b).phase = 2 ∧ (s.flow b).timeoutAt ≤ t) ∧
  (let s : State := { s0 with batches := [(1, { b1 with flow := { Flow.zero with loaded := true, dlslots := 16, phase := 2, timeoutAt := 125000 } })] };
       let b : Nat := 1;
       let t : Nat := 124999;
       t < (s.flow b).timeoutAt) :=
  by refine ⟨?_, ?_, ?_⟩ <;> decide +kernel

/-- States and operands that meet the hypotheses of JobsRun, clause by clause. -/
theorem witness_JobsRun :
  (let s : State := { s0 with batches := [(1, { b1 with flow := { Flow.zero with loaded := true, dlslots := 16 } })], sched := { s0.sched with ready := [⟨1, 1, 3, 2048, .eval 0, none⟩, ⟨1, 0, 1, 0, .write 4 0 [1], none⟩] } };
       let j : Job := ⟨1, 0, 1, 0, .write 4 0 [1], none⟩;
       s.nextJob = some j) ∧
  (let s : State := s0;
       let core : Nat := 9;
       ((s.coreFree core = false ∨ s.yields core = true ∨ s.nextJob = none))) ∧
  (let s : State := s0;
       let k : Nat := 1;
       let i : Nat := 0;
       s.coreFree i = true ∧ i ≤ 8 ∧ s.sched.freed.get 0 i = s.sched.freed.get 0 k ∧ s.logical i < s.logical k) ∧
  (let s : State := { s0 with batches := [(1, { b1 with flow := { Flow.zero with loaded := true, dlslots := 16, active := true, phase := 4, left := [0, 1], a := [0, 1], steps := [⟨1, 0, 0, 0, 0, 0, 0, 0, true, true, 0, 0, 0, 0, 0⟩] } })], sched := { s0.sched with cores := [(0, ⟨1, 1, 3, 1, .eval 0, none⟩)] } };
       let core : Nat := 0;
       let i : Nat := 0;
       let k : Nat := 1;
       let j : Job := ⟨1, 1, 3, 1, .eval 0, none⟩;
       let x : Batch := { b1 with flow := { Flow.zero with loaded := true, dlslots := 16, active := true, phase := 4, left := [0, 1], a := [0, 1], steps := [⟨1, 0, 0, 0, 0, 0, 0, 0, true, true, 0, 0, 0, 0, 0⟩] } };
       s.sched.cores.find? (fun p => p.1 == core) = some (core, j) ∧ j.work = .eval i ∧ s.batch j.b = some x ∧ x.flow.phase = 4 ∧ i ∈ x.flow.left ∧ k ∈ x.flow.left ∧ k ≠ i ∧ x.flow.cur.type = 1 ∧ (x.site.site i).off = none ∧ ((∀ p ∈ x.streams, p.2.invalid = false))) :=
  by refine ⟨?_, ?_, ?_, ?_⟩ <;> decide +kernel

/-- States and operands that meet the hypotheses of JobsRun_at_1, clause by clause. -/
theorem witness_JobsRun_at_1 :
  (let s : State := { s0 with batches := [(1, { b1 with flow := { Flow.zero with loaded := true, dlslots := 16 } })], sched := { s0.sched with ready := [⟨1, 0, 1, 0, .write 4 0 [1], none⟩], freed := (List.range 16).map (fun i => (i, if i == 7 then 0 else 5)) } };
       let core : Nat := 7;
       let j : Job := ⟨1, 0, 1, 0, .write 4 0 [1], none⟩;
       (s.coreFree core = true ∧ s.yields core = false ∧ s.nextJob = some j ∧ j.work ≠ .frame) ∧ (((∀ (m : Nat) (stopped : Bool), j.work ≠ .check m stopped)))) :=
  ⟨by decide +kernel, fun _ _ h => by cases h⟩

/-- States and operands that meet the hypotheses of JobsRun_at_2, clause by clause. -/
theorem witness_JobsRun_at_2 :
  (let s : State := { s0 with batches := [(1, { b1 with flow := { Flow.zero with loaded := true, dlslots := 16 } })], sched := { s0.sched with cores := [(7, ⟨1, 0, 1, 0, .write 4 0 [1], none⟩)] } };
       let core : Nat := 7;
       let b : Nat := 1;
       let fl : Nat := 0;
       let pr : Nat := 1;
       let q : Nat := 0;
       let type : Nat := 4;
       let flags : Nat := 0;
       let body : List Byte := [1];
       let x : Batch := { b1 with flow := { Flow.zero with loaded := true, dlslots := 16 } };
       (s.sched.cores.find? (fun p => p.1 == core) = some (core, ⟨b, fl, pr, q, .write type flags body, none⟩) ∧ type ≠ 8 ∧ s.batch b = some x ∧ x.flow.phase ≠ 5 ∧ (
         let base := s.ringBase b x.flow;
         let a := base + 64 + 128 * (x.flow.produced % max 1 x.flow.dlslots);
         s.inRegion b a 128 = true ∧ a % 32 = 0)) ∧ (((∀ q, (s.stack q).frozen = false)))) :=
  ⟨by decide +kernel, fun _ => rfl⟩

/-- States and operands that meet the hypotheses of DatalogAndEthernet_1, clause by clause. -/
theorem witness_DatalogAndEthernet_1 :
  (let s : State := { s0 with batches := [(1, { b1 with flow := { Flow.zero with loaded := true, dlslots := 16, produced := 3 } })] };
       let b : Nat := 1;
       let v : Nat := 3;
       let x : Batch := { b1 with flow := { Flow.zero with loaded := true, dlslots := 16, produced := 3 } };
       s.batch b = some x ∧ x.flow.loaded = true ∧ x.flow.dlnet = false ∧ b ≠ 0 ∧ x.flow.consumed ≤ v ∧ v ≤ x.flow.produced) ∧
  (let s : State := { s0 with batches := [(1, { b1 with flow := { Flow.zero with loaded := true, dlslots := 16, produced := 3 } })] };
       let b : Nat := 1;
       let v : Nat := 4;
       let x : Batch := { b1 with flow := { Flow.zero with loaded := true, dlslots := 16, produced := 3 } };
       s.batch b = some x ∧ x.flow.loaded = true ∧ x.flow.dlnet = false ∧ ((v < x.flow.consumed ∨ x.flow.produced < v))) ∧
  (let s : State := { s0 with batches := [(1, { b1 with flow := { Flow.zero with loaded := true, dlslots := 16, dlnet := true, resolved := true, produced := 1, dldest := 0xFFFF00000006 } })], sched := { s0.sched with cores := [(7, ⟨1, 0x202, 3, 1, .frame, none⟩)] }, eths := [(0, { Eth.zero with link := true, addr := 5, plen := 24, en := true })] };
       let b : Nat := 1;
       let t : Nat := 10000000000;
       let x : Batch := { b1 with flow := { Flow.zero with loaded := true, dlslots := 16, dlnet := true, resolved := true, produced := 1, dldest := 0xFFFF00000006 } };
       let f := x.flow;
         let n := min 64 f.waitingRecords;
         let base := s.ringBase b f;
         s.batch b = some x ∧ b ≠ 0 ∧ f.dlnet = true ∧ s.onLink f = true ∧ f.resolved = true ∧ s.framing b = true ∧ (s.eth f.dleth).link = true ∧ n ≠ 0 ∧ ((n = 64 ∨ f.oldest + 10000000000 ≤ (s.at_ t).todNow)) ∧ s.inRegion b base 64 = true ∧ (s.stack (aStack (base + 64))).frozen = false ∧ ((∀ i ∈ f.slots n, s.inRegion b (base + 64 + i) 128 = true ∧ s.cleanBlock (base + 64 + i) 128 = true))) ∧
  (let s : State := s0;
       let b : Nat := 1;
       s.canFrame (s.flow b) = false) ∧
  (let s : State := { s0 with batches := [(1, { b1 with flow := { Flow.zero with loaded := true, dlslots := 16, dlnet := true, resolving := true, dldest := 0xFFFF00000006 } })], eths := [(0, { Eth.zero with link := true, addr := 5, plen := 24, en := true })] };
       let b : Nat := 1;
       (s.flow b).resolving = true ∧ s.onLink (s.flow b) = true) :=
  by refine ⟨?_, ?_, ?_, ?_, ?_⟩ <;> decide +kernel

/-- States and operands that meet the hypotheses of DatalogAndEthernet_2, clause by clause. -/
theorem witness_DatalogAndEthernet_2 :
  (let s : State := s0;
       let b : Nat := 1;
       (s.flow b).resolving = false) ∧
  (let s : State := { s0 with batches := [(1, { b1 with flow := { Flow.zero with loaded := true, dlslots := 16, dlnet := true, resolving := true, produced := 1 } })] };
       let b : Nat := 1;
       let x : Batch := { b1 with flow := { Flow.zero with loaded := true, dlslots := 16, dlnet := true, resolving := true, produced := 1 } };
       s.batch b = some x ∧ x.flow.resolving = true) ∧
  (let mine := fun (s : State) (port : Nat) (r : EthReq) =>
         if r.v6 then r.target = linkLocal (Config.mac port % 281474976710656) else (s.eth port).en = true ∧ r.target = (s.eth port).addr;
       let s : State := { s0 with eths := [(1, { Eth.zero with link := true, addr := 5, plen := 24, en := true })] };
       let port : Nat := 1;
       let r : EthReq := ⟨5, false, 5⟩;
       (s.eth port).link = true ∧ mine s port r) ∧
  (let mine := fun (s : State) (port : Nat) (r : EthReq) =>
         if r.v6 then r.target = linkLocal (Config.mac port % 281474976710656) else (s.eth port).en = true ∧ r.target = (s.eth port).addr;
       let s : State := { s0 with eths := [(1, { Eth.zero with link := true, addr := 5, plen := 24, en := true })] };
       let port : Nat := 1;
       let r : EthReq := ⟨5, false, 6⟩;
       (s.eth port).link = true ∧ ¬ mine s port r) ∧
  (let s : State := s0;
       let port : Nat := 1;
       (s.eth port).link = false) :=
  by refine ⟨?_, ?_, ?_, ?_, ?_⟩ <;> decide +kernel

/-- States and operands that meet the hypotheses of Interrupts_1, clause by clause. -/
theorem witness_Interrupts_1 :
  (let s : State := s0;
       let n : Nat := 0xFFF;
       irqSource n = true ∧ n ∉ s.irq.again ∧ n ∉ s.irq.active ∧ n ∉ s.irq.pending) ∧
  (let s : State := { s0 with irq := { s0.irq with active := [2] } };
       let n : Nat := 2;
       irqSource n = true ∧ n ∉ s.irq.again ∧ n ∈ s.irq.active) ∧
  (let s : State := { s0 with irq := { s0.irq with pending := [2] } };
       let n : Nat := 2;
       ((irqSource n = false ∨ n ∈ s.irq.again ∨ (n ∉ s.irq.active ∧ n ∈ s.irq.pending)))) ∧
  (let s : State := s0;
       0xFFF ∉ s.irq.again ∧ 0xFFF ∉ s.irq.active ∧ 0xFFF ∉ s.irq.pending) ∧
  (let s : State := { s0 with irq := { s0.irq with pending := [5, 2] } };
       let core : Nat := 0;
       let n : Nat := 2;
       n ∈ s.irq.pending ∧ (s.irq.mask n).testBit core = true ∧ ((∀ m ∈ s.irq.pending, (s.irq.mask m).testBit core = true → n ≤ m))) :=
  by refine ⟨?_, ?_, ?_, ?_, ?_⟩ <;> decide +kernel

/-- States and operands that meet the hypotheses of Interrupts_2, clause by clause. -/
theorem witness_Interrupts_2 :
  (let s : State := s0;
       let core : Nat := 0;
       ((∀ m ∈ s.irq.pending, (s.irq.mask m).testBit core = false))) ∧
  (let s : State := { s0 with irq := { s0.irq with active := [2], again := [2] } };
       let n : Nat := 2;
       n ∈ s.irq.active) ∧
  (let s : State := s0;
       let n : Nat := 2;
       n ∉ s.irq.active) ∧
  (let s : State := { s0 with pcie := { Pcie.zero with vfEnable := false } };
       let fn : Nat := 16;
       s.pcie.up fn = false) ∧
  (let s : State := { s0 with irq := { s0.irq with msiPend := [67] } };
       let fn : Nat := 16;
       s.pcie.up fn = true) :=
  by refine ⟨?_, ?_, ?_, ?_, ?_⟩ <;> decide +kernel

/-- States and operands that meet the hypotheses of Doorbells, clause by clause. -/
theorem witness_Doorbells :
  (let s : State := s0;
       let tap : Nat := 0;
       let v : Nat := 64;
       s.pcie.up tap = true ∧ s.boot.ready = true ∧ (s.tap tap).netMode = false ∧ sub32 v (s.tap tap).cmdTail ≤ 64 - sub32 (s.tap tap).cmdTail (s.tap tap).cmdHead) ∧
  (let s : State := State.reset;
       let tap : Nat := 0;
       s.pcie.up tap = true ∧ s.boot.ready = false) ∧
  (let s : State := { s0 with ctrs := [(0, { Ctr.zero with source := 0x0500, owner := 16 })] };
       let tap : Nat := 16;
       let v : Nat := 65;
       s.pcie.up tap = true ∧ s.boot.ready = true ∧ (s.tap tap).netMode = false ∧ 64 - sub32 (s.tap tap).cmdTail (s.tap tap).cmdHead < sub32 v (s.tap tap).cmdTail) ∧
  (let s : State := { s0 with pcie := { Pcie.zero with vfEnable := false } };
       let tap : Nat := 1;
       s.pcie.up tap = false) ∧
  (let s : State := { s0 with taps := [(0, { Tap.zero with cplTail := 2 })] };
       let tap : Nat := 0;
       s.pcie.up tap = true) :=
  by refine ⟨?_, ?_, ?_, ?_, ?_⟩ <;> decide +kernel

/-- States and operands that meet the hypotheses of TapEvents_1, clause by clause. -/
theorem witness_TapEvents_1 :
  (let s : State := { s0 with taps := [(16, { Tap.zero with netMode := true })] };
       let tap : Nat := 16;
       s.pcie.up tap = true ∧ s.boot.ready = true ∧ (s.tap tap).netMode = true) ∧
  (let s : State := { s0 with taps := [(0, { Tap.zero with cmdTail := 1 })] };
       let tap : Nat := 0;
       let x := s.tap tap;
         let slot := x.slot x.cmdHead;
         s.takes tap = true ∧ x.netMode = false ∧ s.modePending tap = false ∧ x.cmdTail ≠ x.cmdHead ∧ slotNeed slot ≤ x.freeSlots ∧ fld slot 4 4 = x.expSeq ∧ fld slot 0 2 ≠ 0x0115) ∧
  (let s : State := s0;
       let tap : Nat := 0;
       let x := s.tap tap;
         ((s.takes tap = false ∨ x.netMode = true ∨ s.modePending tap = true ∨ x.cmdTail = x.cmdHead ∨ x.freeSlots < slotNeed (x.slot x.cmdHead)))) ∧
  (let s : State := { s0 with taps := [(0, { Tap.zero with dq := [⟨0, (le 2 0x0107 ++ le 2 0 ++ le 4 0 ++ List.replicate 120 0), [], none⟩] })] };
       let tap : Nat := 0;
       let q : QCmd := ⟨0, (le 2 0x0107 ++ le 2 0 ++ le 4 0 ++ List.replicate 120 0), [], none⟩;
       let qs : List QCmd := [];
       s.dispatches tap = true ∧ (s.tap tap).dq = q :: qs) ∧
  (let s : State := s0;
       let tap : Nat := 0;
       ((s.dispatches tap = false ∨ (s.tap tap).dq = []))) :=
  by refine ⟨?_, ?_, ?_, ?_, ?_⟩ <;> decide +kernel

/-- States and operands that meet the hypotheses of TapEvents_2, clause by clause. -/
theorem witness_TapEvents_2 :
  (let tap : Nat := 0;
       tap ≤ 16) ∧
  (let s : State := { s0 with netTaps := 1 };
       let tap : Nat := 0;
       s.modePending tap = true ∧ (s.tap tap).dq = [] ∧ (s.tap tap).running = none ∧ (s.tap tap).asyncs = []) ∧
  (let s : State := s0;
       let tap : Nat := 0;
       ((s.modePending tap = false ∨ (s.tap tap).dq ≠ [] ∨ (s.tap tap).running ≠ none ∨ (s.tap tap).asyncs ≠ []))) ∧
  (let s : State := { s0 with netTaps := 2 ^ 16, taps := [(16, { Tap.zero with netMode := true })] };
       let dport : Nat := 47290;
       let tap : Nat := 16;
       let slot : List Byte := (le 2 0x0107 ++ le 2 0 ++ le 4 0 ++ List.replicate 120 0);
       dport = s.udpPort ∧ tap ≤ 16 ∧ slot.length = 128 ∧ (s.tap tap).netMode = true ∧ s.takes tap = true ∧ s.modePending tap = false ∧ fld slot 4 4 = (s.tap tap).expSeq ∧ fld slot 0 2 ≠ 0x0115) ∧
  (let s : State := s0;
       let dport : Nat := 47290;
       let f : List Byte := List.replicate 15 0;
       ((dport ≠ s.udpPort ∨ f.length < 16 ∨ fld f 0 2 ≠ 0xA71C ∨ 16 < fld f 4 1 ∨ (s.tap (fld f 4 1)).netMode = false))) :=
  by refine ⟨?_, ?_, ?_, ?_, ?_⟩ <;> decide +kernel

/-- States and operands that meet the hypotheses of TapEvents_3, clause by clause. -/
theorem witness_TapEvents_3 :
  (let s : State := { s0 with netTaps := 2 ^ 16, taps := [(16, { Tap.zero with netMode := true })] };
       let dport : Nat := 47290;
       let tap : Nat := 16;
       dport = s.udpPort ∧ tap ≤ 16 ∧ (s.tap tap).netMode = true) ∧
  (let s : State := { s0 with taps := [(0, { Tap.zero with dq := [⟨3, (le 2 0x0107 ++ le 2 0 ++ le 4 0 ++ List.replicate 120 0), [], none⟩] })] };
       let h : Hdr := h0;
       let q : QCmd := ⟨3, (le 2 0x0107 ++ le 2 0 ++ le 4 0 ++ List.replicate 120 0), [], none⟩;
       s.admits h 0x0115 [] = true ∧ q.seq ≠ h.seq ∧ (s.tap h.tap).dq = [q]) ∧
  (let s : State := { s0 with taps := [(0, { Tap.zero with hist := [⟨3, 0, none, [], [], none⟩] })] };
       let h : Hdr := h0;
       let tseq : Nat := 3;
       let e : Hist := ⟨3, 0, none, [], [], none⟩;
       s.admits h 0x0115 [] = true ∧ tseq ≠ h.seq ∧ (s.tap h.tap).dq = [] ∧ (s.tap h.tap).histOf tseq = some e ∧ e.cpl.any (fun c => c.opcode == 0x0115) = false) :=
  by refine ⟨?_, ?_, ?_⟩ <;> decide +kernel

/-- States and operands that meet the hypotheses of FlitsAndReplay_1, clause by clause. -/
theorem witness_FlitsAndReplay_1 :
  (let clear := fun (s : State) (p : Nat) => assoc s.flt.inject (16 * (0x520 + p) + 2) = none;
       let s : State := { s0 with cellar := { s0.cellar with up := { Port.zero with up := true, audited := true } } };
       let p : Nat := 0;
       let f : Flit := ⟨1, 3, 0, false, 0, 3, 0, [5, 0, 1, 1]⟩;
       p ≤ 1 ∧ (s.port p).passes = true ∧ f.ftype = 1 ∧ f.seq = (s.port p).exp ∧ f.ackv = false ∧ f.vl < 4 ∧ (s.port p).txq = [] ∧ assoc (s.port p).rx f.vl = none ∧ destOf f ≠ s.cdev ∧ destOf f ≠ 0xFF ∧ ((destOf f = 0 → fld f.payload 2 1 = 4 → s.isRoot = false)) ∧ (s.port (1 - p)).up = false ∧ clear s p ∧ fld f.payload 3 1 = 1) ∧
  (let clear := fun (s : State) (p : Nat) => assoc s.flt.inject (16 * (0x520 + p) + 2) = none;
       let s : State := { s0 with cellar := { s0.cellar with up := { Port.zero with up := true, audited := true } } };
       let p : Nat := 0;
       let f : Flit := ⟨1, 3, 4095, false, 0, 3, 0, [5, 0, 1, 1]⟩;
       p ≤ 1 ∧ (s.port p).passes = true ∧ 1 ≤ f.ftype ∧ f.ftype ≤ 4 ∧ f.seq ≠ (s.port p).exp ∧ f.ackv = false ∧ (s.port p).txq = [] ∧ clear s p) ∧
  (let s : State := { s0 with cellar := { s0.cellar with up := { Port.zero with up := true, audited := true, replay := [⟨1, 3, 4095, false, 0, 3, 0, [5, 0, 1, 1]⟩, ⟨1, 3, 0, false, 0, 3, 0, [5, 0, 1, 1]⟩] } } };
       let p : Nat := 0;
       p ≤ 1 ∧ (s.port p).passes = true ∧ (s.port p).txq = []) ∧
  (let clear := fun (s : State) (p : Nat) => assoc s.flt.inject (16 * (0x520 + p) + 2) = none;
       let s : State := { s0 with cellar := { s0.cellar with up := { Port.zero with up := true, audited := true, txq := [⟨1, 3, 0, false, 0, 3, 0, [5, 0, 1, 1]⟩] } } };
       let p : Nat := 0;
       let rel : List Nat := [0, 0, 0, 0];
       let f : Flit := ⟨1, 3, 0, false, 0, 3, 0, [5, 0, 1, 1]⟩;
       p ≤ 1 ∧ (s.port p).passes = true ∧ (s.port p).txq = [f] ∧ f.vl < 4 ∧ (s.port p).audited = true ∧ (s.port p).replay = [] ∧ f.vl < rel.length ∧ rel.getD f.vl 0 < 65536 ∧ (s.port p).sent.getD f.vl 0 = rel.getD f.vl 0 ∧ (s.port p).sent.length = 4 ∧ clear s p) ∧
  (let clear := fun (s : State) (p : Nat) => assoc s.flt.inject (16 * (0x520 + p) + 2) = none;
       let s : State := { s0 with cellar := { s0.cellar with up := { Port.zero with up := true, audited := true, replay := [⟨1, 3, 4095, false, 0, 3, 0, [5, 0, 1, 1]⟩, ⟨1, 3, 0, false, 0, 3, 0, [5, 0, 1, 1]⟩] } } };
       let p : Nat := 0;
       p ≤ 1 ∧ (s.port p).passes = true ∧ clear s p) :=
  by refine ⟨?_, ?_, ?_, ?_, ?_⟩ <;> decide +kernel

/-- States and operands that meet the hypotheses of FlitsAndReplay_2, clause by clause. -/
theorem witness_FlitsAndReplay_2 :
  (let clear := fun (s : State) (p : Nat) => assoc s.flt.inject (16 * (0x520 + p) + 2) = none;
       let s : State := { s0 with cellar := { s0.cellar with up := { Port.zero with up := true, audited := true, replays := 4, replay := [⟨1, 3, 0, false, 0, 3, 0, [5, 0, 1, 1]⟩] } } };
       let p : Nat := 0;
       p ≤ 1 ∧ (s.port p).passes = true ∧ clear s p ∧ (s.port p).replay ≠ []) ∧
  (let clear := fun (s : State) (p : Nat) => assoc s.flt.inject (16 * (0x520 + p) + 2) = none;
       let s : State := { s0 with cellar := { s0.cellar with up := { Port.zero with up := true, audited := true, nak := true } } };
       let p : Nat := 0;
       (s.port p).passes = true ∧ (s.port p).nak = true ∧ clear s p) ∧
  (let clear := fun (s : State) (p : Nat) => assoc s.flt.inject (16 * (0x520 + p) + 2) = none;
       let s : State := { s0 with cellar := { s0.cellar with up := { Port.zero with up := true, audited := true } } };
       let p : Nat := 0;
       p ≤ 1 ∧ (s.port p).passes = true ∧ clear s p) ∧
  (let s : State := s0;
       let p : Nat := 1;
       (s.port p).passes = false) :=
  by refine ⟨?_, ?_, ?_, ?_⟩ <;> decide +kernel

/-- States and operands that meet the hypotheses of FlitsAndReplay_at, clause by clause. -/
theorem witness_FlitsAndReplay_at :
  (let s : State := { s0 with cellar := { s0.cellar with up := { Port.zero with up := true, audited := true, replay := [⟨1, 3, 4095, false, 0, 3, 0, [5, 0, 1, 1]⟩, ⟨1, 3, 0, false, 0, 3, 0, [5, 0, 1, 1]⟩] } } };
       let v : State := outS (exec (.flitRxAck 0 4095 []) s);
       let p : Nat := 0;
       let a : Nat := 4095;
       (exec (.flitRxAck p a []) s = .next v)) :=
  rfl

/-- States and operands that meet the hypotheses of LinkLife_1, clause by clause. -/
theorem witness_LinkLife_1 :
  (let clear := fun (s : State) (p : Nat) => assoc s.flt.inject (16 * (0x520 + p) + 2) = none;
       let s : State := { s0 with cellar := { s0.cellar with up := { Port.zero with up := true, audited := true } } };
       let p : Nat := 0;
       let t : Nat := 10000000000;
       (s.port p).passes = true ∧ (s.port p).syncs * 10000000000 ≤ (s.at_ t).now ∧ clear s p) ∧
  (let s : State := { s0 with cellar := { s0.cellar with up := { Port.zero with up := true, syncs := 1 } } };
       let p : Nat := 0;
       let t : Nat := 9999999999;
       (s.at_ t).now < (s.port p).syncs * 10000000000) ∧
  (let s : State := { s0 with cellar := { s0.cellar with up := { Port.zero with up := true, audited := true } } };
       let p : Nat := 0;
       let txT : Nat := 1000000;
       let stamp : Nat := 1500000;
       (s.port p).passes = true ∧ stamp ≤ txT + 500000 ∧ txT ≤ stamp + 500000) ∧
  (let s : State := { s0 with cellar := { s0.cellar with up := { Port.zero with up := true, audited := true } } };
       let p : Nat := 0;
       let txT : Nat := 1000000;
       let stamp : Nat := 1500001;
       (s.port p).passes = true ∧ ((stamp > txT + 500000 ∨ txT > stamp + 500000)) ∧ (s.src (0x520 + p)).status = false) ∧
  (let s : State := { s0 with batches := [(1, { b1 with state := 2, dmask := 2 })], cellar := { s0.cellar with up := { Port.zero with up := true, audited := true } } };
       let p : Nat := 0;
       let sender : Nat := 1;
       let txT : Nat := 0;
       let b : Nat := 1;
       let g : Int := 5;
       let x : Batch := { b1 with state := 2, dmask := 2 };
       (s.port p).passes = true ∧ g ≠ (s.tb.scaleAt txT).2 ∧ 1 ≤ b ∧ b ≤ 16 ∧ s.batchesNaming [sender] = [b] ∧ s.batch b = some x) :=
  by refine ⟨?_, ?_, ?_, ?_, ?_⟩ <;> decide +kernel

/-- States and operands that meet the hypotheses of LinkLife_2, clause by clause. -/
theorem witness_LinkLife_2 :
  (let s : State := { s0 with cellar := { s0.cellar with up := { Port.zero with up := true, audited := true }, dn := { Port.zero with up := true, audited := true } } };
       let c : Nat := 62;
       s.cellar.up.passes = true ∧ s.cellar.cdev = 0xFF ∧ s.cellar.tooLong = false ∧ c < 63) ∧
  (let s : State := { s0 with cellar := { s0.cellar with up := { Port.zero with up := true, audited := true } } };
       s.cellar.up.passes = true ∧ s.cellar.cdev = 0xFF ∧ s.cellar.tooLong = false) ∧
  (let s : State := { s0 with cellar := { s0.cellar with cdev := 0 } };
       ((s.cellar.cdev ≠ 0xFF ∨ s.cellar.up.passes = false))) ∧
  (let s : State := { s0 with cellar := { s0.cellar with cdev := 0 } };
       s.cellar.cdev ≠ 0xFF) ∧
  (let s : State := s0;
       s.cellar.cdev = 0xFF ∧ s.cellar.up.up = false ∧ s.cellar.tooLong = false ∧ s.boot.ready = true) :=
  by refine ⟨?_, ?_, ?_, ?_, ?_⟩ <;> decide +kernel

/-- States and operands that meet the hypotheses of LinkLife_3, clause by clause. -/
theorem witness_LinkLife_3 :
  (let s : State := { s0 with cellar := { s0.cellar with up := { Port.zero with up := true, audited := true }, dn := { Port.zero with up := true, audited := true } } };
       let p : Nat := 1;
       p ≤ 1 ∧ (s.port p).passes = true) ∧
  (let clear := fun (s : State) (p : Nat) => assoc s.flt.inject (16 * (0x520 + p) + 2) = none;
       let s : State := { s0 with cellar := { s0.cellar with up := { Port.zero with up := true, audited := true, retrain := true } } };
       let p : Nat := 0;
       let eyes : List (Nat × Nat) := [(3, 16)];
       p ≤ 1 ∧ (s.port p).up = true ∧ (s.port p).retrain = true ∧ clear s p ∧ ((∀ e ∈ eyes, 16 ≤ e.2))) ∧
  (let s : State := { s0 with cellar := { s0.cellar with up := { Port.zero with up := true, audited := true, retrain := true } } };
       let p : Nat := 0;
       let eye : Nat := 15;
       p ≤ 1 ∧ (s.port p).up = true ∧ (s.port p).retrain = true ∧ eye < 16) ∧
  (let s : State := { s0 with cellar := { s0.cellar with up := { Port.zero with up := true, audited := true, retrain := true } } };
       let p : Nat := 0;
       p ≤ 1 ∧ (s.port p).up = true ∧ (s.port p).retrain = true) ∧
  (let clear := fun (s : State) (p : Nat) => assoc s.flt.inject (16 * (0x520 + p) + 2) = none;
       let s : State := { s0 with cellar := { s0.cellar with up := { Port.zero with up := true } } };
       let p : Nat := 0;
       p ≤ 1 ∧ (s.port p).passes = true ∧ (s.port p).audited = false ∧ clear s p) :=
  by refine ⟨?_, ?_, ?_, ?_, ?_⟩ <;> decide +kernel

/-- States and operands that meet the hypotheses of LinkLife_4, clause by clause. -/
theorem witness_LinkLife_4 :
  (let s : State := { s0 with cellar := { s0.cellar with up := { Port.zero with up := true } } };
       let p : Nat := 0;
       let tx : Option Audit := some ⟨[0, 0, 0, 0], [0, 0, 0, 0], [0, 0, 0, 0], [0, 0, 0, 0], [0, 0, 0, 0]⟩;
       let rx : Audit := ⟨[0, 0, 0, 0], [0, 0, 0, 0], [0, 0, 0, 0], [0, 0, 0, 0], [0, 0, 0, 0]⟩;
       let sent : List Nat := [0, 0, 0, 0];
       p ≤ 1 ∧ (s.port p).passes = true ∧ (s.port p).audited = false ∧ (s.port p).txq = [] ∧ ((∀ a, tx = some a → sent = a.sent)) ∧ ((tx = none → (s.port p).gotTx = some sent)) ∧ ((∀ vl, vl < 4 → sent.getD vl 0 = (s.port p).accepted.getD vl 0 ∧ (s.port p).sent.getD vl 0 = rx.accepted.getD vl 0 ∧ occOk ((s.port p).accepted.getD vl 0) ((s.port p).released.getD vl 0) ((s.port p).occ.getD vl 0) = true ∧ occOk (rx.accepted.getD vl 0) (rx.released.getD vl 0) (rx.occ.getD vl 0) = true))) ∧
  (let s : State := { s0 with cellar := { s0.cellar with up := { Port.zero with up := true } } };
       let p : Nat := 0;
       let vl : Nat := 0;
       let tx : Option Audit := some ⟨[1, 0, 0, 0], [0, 0, 0, 0], [0, 0, 0, 0], [0, 0, 0, 0], [0, 0, 0, 0]⟩;
       let rx : Audit := ⟨[0, 0, 0, 0], [0, 0, 0, 0], [0, 0, 0, 0], [0, 0, 0, 0], [0, 0, 0, 0]⟩;
       let sent : List Nat := [1, 0, 0, 0];
       p ≤ 1 ∧ (s.port p).passes = true ∧ (s.port p).audited = false ∧ ((∀ a, tx = some a → sent = a.sent)) ∧ ((tx = none → (s.port p).gotTx = some sent)) ∧ vl < 4 ∧ ((sent.getD vl 0 ≠ (s.port p).accepted.getD vl 0 ∨ (s.port p).sent.getD vl 0 ≠ rx.accepted.getD vl 0))) ∧
  (let s : State := { s0 with cellar := { s0.cellar with up := { Port.zero with up := true, audited := true } } };
       let p : Nat := 0;
       p ≤ 1 ∧ (s.port p).up = true) ∧
  (let s : State := s0;
       let p : Nat := 1;
       p ≤ 1 ∧ (s.port p).up = false ∧ ((p = 0 → s.cellar.tooLong = false)) ∧ ((∀ h ∈ s.rep.heldOut, h.1 ≠ 7))) ∧
  (let s : State := { s0 with cellar := { s0.cellar with tooLong := true } };
       let p : Nat := 0;
       (((s.port p).up = true ∨ (p = 0 ∧ s.cellar.tooLong = true)))) :=
  by refine ⟨?_, ?_, ?_, ?_, ?_⟩ <;> decide +kernel

/-- States and operands that meet the hypotheses of ResetsAndPowerFailure_1, clause by clause. -/
theorem witness_ResetsAndPowerFailure_1 :
  (let s : State := { s0 with batches := [(1, { b1 with state := 3, edges := [⟨0, 0, 0, 0, 0, 0, 0, 0, 1, 1⟩] })] };
       s.pwr.pwrfailLow = false ∧ s.boot.ready = true) ∧
  (let s : State := { s0 with boot := { s0.boot with gasp := some ⟨255, 3, 7, []⟩, retWriting := true }, pwr := { s0.pwr with pwrfailLow := true } };
       let g : Gasp := ⟨255, 3, 7, []⟩;
       let t : Nat := 20000000000;
       s.boot.gasp = some g ∧ g.cause < 256 ∧ g.tw + 10000000000 ≤ t ∧ t % 10000000000 = 0) ∧
  (let s : State := { s0 with boot := Boot.zero };
       s.pwr.pwrfailLow = false ∧ s.boot.ready = false) ∧
  (let s : State := { s0 with pwr := { s0.pwr with pwrfailLow := true } };
       s.pwr.pwrfailLow = true) ∧
  (let s : State := { s0 with pwr := { s0.pwr with pwrfailLow := true } };
       s.pwr.pwrfailLow = true ∧ s.pwr.shut = false ∧ s.boot.ready = true ∧ s.boot.gasp = none) :=
  by refine ⟨?_, ?_, ?_, ?_, ?_⟩ <;> decide +kernel

/-- States and operands that meet the hypotheses of ResetsAndPowerFailure_2, clause by clause. -/
theorem witness_ResetsAndPowerFailure_2 :
  (let s : State := { s0 with boot := { s0.boot with gasp := some ⟨255, 3, 7, []⟩, retWriting := true }, pwr := { s0.pwr with pwrfailLow := true } };
       let g : Gasp := ⟨255, 3, 7, []⟩;
       s.pwr.pwrfailLow = true ∧ s.pwr.shut = false ∧ s.boot.ready = true ∧ s.boot.gasp = some g ∧ g.cause < 256) ∧
  (let s : State := { s0 with pwr := { s0.pwr with pwrfailLow := true }, boot := Boot.zero };
       s.pwr.pwrfailLow = true ∧ s.pwr.shut = false ∧ s.boot.ready = false) ∧
  (let s : State := s0;
       ((s.pwr.pwrfailLow = false ∨ s.pwr.shut = true))) ∧
  (let s : State := s0;
       s.pwr.pwrfailLow = false ∧ s.boot.ready = true) ∧
  (let s : State := { s0 with pwr := { s0.pwr with pwrfailLow := true } };
       s.pwr.pwrfailLow = true) :=
  by refine ⟨?_, ?_, ?_, ?_, ?_⟩ <;> decide +kernel

/-- States and operands that meet the hypotheses of ResetsAndPowerFailure_3, clause by clause. -/
theorem witness_ResetsAndPowerFailure_3 :
  (let s : State := { s0 with pcie := { Pcie.zero with vfEnable := false } };
       let fn : Nat := 16;
       fn ≠ 0 ∧ ((s.pcie.vfEnable = false ∨ s.pcie.numVfs < fn))) ∧
  (let s : State := { s0 with taps := [(16, { Tap.zero with ring := [(0, 1)], cmdTail := 5 })] };
       let fn : Nat := 16;
       ((fn = 0 ∨ (s.pcie.vfEnable = true ∧ fn ≤ s.pcie.numVfs)))) ∧
  (let s : State := { s0 with boot := Boot.zero };
       s.boot.ready = false ∧ s.pwr.pwrfailLow = false) ∧
  (let s : State := s0;
       let i : Image := img0;
       s.pwr.shut = false ∧ s.pwr.pwrfailLow = false ∧ s.boot.bwStrap = false ∧ s.boot.gasp = none ∧ verifyImage i = 0) ∧
  (let s : State := { s0 with boot := { s0.boot with bwOpen := true, bwLen := 8388608 } };
       s.boot.bwOpen = true ∧ s.boot.bwBusy = false ∧ 1 ≤ s.boot.bwLen ∧ s.boot.bwLen ≤ 8388608) :=
  by refine ⟨?_, ?_, ?_, ?_, ?_⟩ <;> decide +kernel

/-- States and operands that meet the hypotheses of ResetsAndPowerFailure_4, clause by clause. -/
theorem witness_ResetsAndPowerFailure_4 :
  (let s : State := { s0 with boot := { s0.boot with bwOpen := true, bwBusy := true, bootSafe := true }, pwr := Power.zero };
       let i : Image := img0;
       s.boot.bwBusy = true ∧ verifyImage i = 0) ∧
  (let s : State := s0;
       s.boot.retWriting = false) :=
  by refine ⟨?_, ?_⟩ <;> decide +kernel

/-- States and operands that meet the hypotheses of StartUpAndWarmReset_1, clause by clause. -/
theorem witness_StartUpAndWarmReset_1 :
  (let s : State := { s0 with boot := Boot.zero };
       let i : Image := img0;
       s.boot.ready = false ∧ s.pwr.pwrfailLow = false ∧ verifyImage i = 0) ∧
  (let s : State := { s0 with boot := Boot.zero };
       s.boot.ready = false ∧ s.pwr.pwrfailLow = false) ∧
  (let s : State := { s0 with boot := Boot.zero };
       let i : Image := { img0 with magic := 0 };
       s.boot.ready = false ∧ s.pwr.pwrfailLow = false ∧ verifyImage i ≠ 0) ∧
  (let s : State := s0;
       ((s.boot.ready = true ∨ s.pwr.pwrfailLow = true))) ∧
  (let s : State := s0;
       let i : Image := img0;
       s.pwr.shut = false ∧ s.pwr.pwrfailLow = false ∧ s.boot.bwStrap = false ∧ s.boot.gasp = none ∧ verifyImage i = 0) :=
  by refine ⟨?_, ?_, ?_, ?_, ?_⟩ <;> decide +kernel

/-- States and operands that meet the hypotheses of StartUpAndWarmReset_2, clause by clause. -/
theorem witness_StartUpAndWarmReset_2 :
  (let s : State := { s0 with pwr := { s0.pwr with shut := true } };
       s.pwr.shut = true) ∧
  (let s : State := { s0 with boot := { s0.boot with bwOpen := true, bwLen := 8388608 } };
       s.boot.bwOpen = true ∧ s.boot.bwBusy = false ∧ 1 ≤ s.boot.bwLen ∧ s.boot.bwLen ≤ 8388608) ∧
  (let s : State := s0;
       ((s.boot.bwOpen = false ∨ s.boot.bwBusy = true ∨ s.boot.bwLen = 0 ∨ 8388608 < s.boot.bwLen))) ∧
  (let s : State := { s0 with boot := { s0.boot with bwOpen := true, bwBusy := true, bootSafe := true }, pwr := Power.zero };
       let i : Image := img0;
       s.boot.bwBusy = true ∧ verifyImage i = 0) ∧
  (let s : State := { s0 with boot := { s0.boot with bwOpen := true, bwBusy := true, bootSafe := true }, pwr := Power.zero };
       let i : Image := { img0 with magic := 0 };
       s.boot.bwBusy = true ∧ verifyImage i ≠ 0) :=
  by refine ⟨?_, ?_, ?_, ?_, ?_⟩ <;> decide +kernel

/-- States and operands that meet the hypotheses of RegisterAccesses_1, clause by clause. -/
theorem witness_RegisterAccesses_1 :
  (let s : State := s0;
       let fn : Nat := 16;
       s.pcie.up fn = true) ∧
  (let s : State := { s0 with ctrs := [(63, { Ctr.zero with value := 2 ^ 40 + 5 })] };
       let fn : Nat := 0;
       s.pcie.up fn = true) ∧
  (let s : State := { s0 with pcie := { Pcie.zero with vfEnable := false } };
       let fn : Nat := 1;
       s.pcie.up fn = false) ∧
  (let s : State := s0;
       s.pcie.up 0 = true) ∧
  (let s : State := s0;
       let fn : Nat := 16;
       let k : Nat := 1023;
       let v : Nat := 2 ^ 64 - 1;
       s.pcie.up fn = true ∧ k < 1024 ∧ v < 18446744073709551616) :=
  by refine ⟨?_, ?_, ?_, ?_, ?_⟩ <;> decide +kernel

/-- States and operands that meet the hypotheses of RegisterAccesses_2, clause by clause. -/
theorem witness_RegisterAccesses_2 :
  (let s : State := s0;
       let fn : Nat := 16;
       let slot : Nat := 7;
       let v : Nat := 0x0102030405060708;
       s.pcie.up fn = true ∧ slot < 8 ∧ v < 18446744073709551616) ∧
  (let fn : Nat := 1;
       let off : Nat := 0x30;
       1 ≤ fn ∧ ((off < 0x28 ∨ (0x30 ≤ off ∧ off < 0x300) ∨ (0x340 ≤ off ∧ off < 0x1000) ∨ 0x3000 ≤ off))) ∧
  (let s : State := { s0 with pcie := { Pcie.zero with vfEnable := false } };
       let fn : Nat := 1;
       let off : Nat := 0x1000;
       let size : Nat := 8;
       (((size ≠ 4 ∧ size ≠ 8) ∨ off % 4 ≠ 0 ∨ s.pcie.up fn = false))) :=
  by refine ⟨?_, ?_, ?_⟩ <;> decide +kernel

/-- States and operands that meet the hypotheses of HostAccesses, clause by clause. -/
theorem witness_HostAccesses :
  (let here := fun (s : State) (fn off n : Nat) => s.pcie.up fn = true ∧ off + n ≤ s.pcie.bar2Size fn;
       let served := fun (s : State) (off n : Nat) => (s.stack (aStack off)).frozen = false ∧ s.stackOffline (aStack off) = false ∧
         (s.stack (aStack off)).otherTraining off n = false;
       let s : State := s0;
       let fn : Nat := 1;
       let off : Nat := 2097120;
       let len : Nat := 32;
       1 ≤ len ∧ here s fn off len ∧ s.boot.bwOpen = false ∧ s.inRegion fn off len = true ∧ served s off len ∧ (s.stack (aStack off)).retraining = false ∧ s.cleanBlock off len = true) ∧
  (let here := fun (s : State) (fn off n : Nat) => s.pcie.up fn = true ∧ off + n ≤ s.pcie.bar2Size fn;
       let s : State := { s0 with boot := { s0.boot with bwOpen := true } };
       let off : Nat := 8388604;
       let len : Nat := 4;
       s.boot.bwOpen = true ∧ here s 0 off len ∧ off + max 1 len ≤ 8388608) :=
  by refine ⟨?_, ?_⟩ <;> decide +kernel

/-- States and operands that meet the hypotheses of HostAccesses_at_1, clause by clause. -/
theorem witness_HostAccesses_at_1 :
  (let quiet := fun (s : State) => ∀ p ∈ s.batches, p.2.streams = [] ∧ p.2.flow.loaded = false;
       let here := fun (s : State) (fn off n : Nat) => s.pcie.up fn = true ∧ off + n ≤ s.pcie.bar2Size fn;
       let served := fun (s : State) (off n : Nat) => (s.stack (aStack off)).frozen = false ∧ s.stackOffline (aStack off) = false ∧
         (s.stack (aStack off)).otherTraining off n = false;
       let s : State := s0;
       let fn : Nat := 1;
       let off : Nat := 2097150;
       let data : List Byte := [1, 2];
       (data ≠ [] ∧ here s fn off data.length ∧ s.boot.bwOpen = false ∧ s.inRegion fn off data.length = true ∧ served s off data.length ∧ (s.stack (aStack off)).retraining = false ∧ s.cleanBlock off data.length = true) ∧ (quiet s) ∧ (((∀ a, off ≤ a → a < off + data.length → (s.stack (aStack a)).frozen = false)))) :=
  ⟨by decide +kernel, fun p hp => by cases List.mem_singleton.1 hp; exact ⟨rfl, rfl⟩, fun _ _ _ => rfl⟩

/-- States and operands that meet the hypotheses of HostAccesses_at_2, clause by clause. -/
theorem witness_HostAccesses_at_2 :
  (let quiet := fun (s : State) => ∀ p ∈ s.batches, p.2.streams = [] ∧ p.2.flow.loaded = false;
       let here := fun (s : State) (fn off n : Nat) => s.pcie.up fn = true ∧ off + n ≤ s.pcie.bar2Size fn;
       let served := fun (s : State) (off n : Nat) => (s.stack (aStack off)).frozen = false ∧ s.stackOffline (aStack off) = false ∧
         (s.stack (aStack off)).otherTraining off n = false;
       let s : State := { s0 with dram := { s0.dram with stackTab := [(0, { Stack.zero with retraining := true, tempTrain := true })] } };
       let fn : Nat := 1;
       let off : Nat := 0;
       let len : Nat := 32;
       let write : Bool := false;
       let data : List Byte := [];
       (let n := if write then data.length else len;
         here s fn off n ∧ s.boot.bwOpen = false ∧ s.inRegion fn off (max 1 n) = true ∧ served s off n ∧ (s.stack (aStack off)).retraining = true) ∧ (quiet s)) :=
  ⟨by decide +kernel, fun p hp => by cases List.mem_singleton.1 hp; exact ⟨rfl, rfl⟩⟩

/-- States and operands that meet the hypotheses of HostAccesses_at_3, clause by clause. -/
theorem witness_HostAccesses_at_3 :
  (let quiet := fun (s : State) => ∀ p ∈ s.batches, p.2.streams = [] ∧ p.2.flow.loaded = false;
       let here := fun (s : State) (fn off n : Nat) => s.pcie.up fn = true ∧ off + n ≤ s.pcie.bar2Size fn;
       let s : State := s0;
       let fn : Nat := 2;
       let off : Nat := 0;
       let len : Nat := 32;
       let write : Bool := false;
       let data : List Byte := [];
       (let n := if write then data.length else len;
         here s fn off n ∧ s.boot.bwOpen = false ∧ ((s.inRegion fn off (max 1 n) = false ∨ (s.stack (aStack off)).frozen = true ∨ s.stackOffline (aStack off) = true ∨ (s.stack (aStack off)).otherTraining off n = true))) ∧ (quiet s)) :=
  ⟨by decide +kernel, fun p hp => by cases List.mem_singleton.1 hp; exact ⟨rfl, rfl⟩⟩

/-- States and operands that meet the hypotheses of HostAccesses_at_4, clause by clause. -/
theorem witness_HostAccesses_at_4 :
  (let quiet := fun (s : State) => ∀ p ∈ s.batches, p.2.streams = [] ∧ p.2.flow.loaded = false;
       let s : State := s0;
       let fn : Nat := 1;
       let off : Nat := 2 ^ 36 - 1;
       let len : Nat := 2;
       let write : Bool := false;
       let data : List Byte := [];
       (((s.pcie.up fn = false ∨ s.pcie.bar2Size fn < off + (if write then data.length else len)))) ∧ (quiet s)) :=
  ⟨by decide +kernel, fun p hp => by cases List.mem_singleton.1 hp; exact ⟨rfl, rfl⟩⟩

/-- States and operands that meet the hypotheses of HostAccesses_at_5, clause by clause. -/
theorem witness_HostAccesses_at_5 :
  (let quiet := fun (s : State) => ∀ p ∈ s.batches, p.2.streams = [] ∧ p.2.flow.loaded = false;
       let here := fun (s : State) (fn off n : Nat) => s.pcie.up fn = true ∧ off + n ≤ s.pcie.bar2Size fn;
       let s : State := { s0 with boot := { s0.boot with bwOpen := true } };
       let off : Nat := 8388606;
       let data : List Byte := [1, 2];
       (s.boot.bwOpen = true ∧ s.boot.bwBusy = false ∧ here s 0 off data.length ∧ off + max 1 data.length ≤ 8388608) ∧ (quiet s)) :=
  ⟨by decide +kernel, fun p hp => by cases List.mem_singleton.1 hp; exact ⟨rfl, rfl⟩⟩

/-- States and operands that meet the hypotheses of HostAccesses_at_6, clause by clause. -/
theorem witness_HostAccesses_at_6 :
  (let quiet := fun (s : State) => ∀ p ∈ s.batches, p.2.streams = [] ∧ p.2.flow.loaded = false;
       let s : State := { s0 with boot := { s0.boot with bwOpen := true } };
       let fn : Nat := 1;
       (s.boot.bwOpen = true ∧ fn ≠ 0) ∧ (quiet s)) :=
  ⟨by decide +kernel, fun p hp => by cases List.mem_singleton.1 hp; exact ⟨rfl, rfl⟩⟩

/-- States and operands that meet the hypotheses of MemoryTrafficAndUpkeep_1, clause by clause. -/
theorem witness_MemoryTrafficAndUpkeep_1 :
  (let s : State := s0;
       let cls : Nat := 1;
       let a : Nat := 32;
       let br : Nat := 2;
       let op : DramOp := .write (List.replicate 96 7);
       let q := aStack a;
         let k := s.stack q;
         let n := opSize op a;
         let r := opReq op 0 cls a br;
         blockOk a n = true ∧ s.inRegion 0 a n = true ∧ s.stackOffline q = false ∧ k.frozen = false ∧ k.retraining = false ∧ k.reqs = [] ∧ k.room r = true ∧ ((s.cleanBlock a n = true ∨ (a % 32 = 0 ∧ n % 32 = 0)))) ∧
  (let s : State := { s0 with dram := { s0.dram with stackTab := [(0, { Stack.zero with flight := [⟨1, 1, 4096, 1, 0, false⟩] })] } };
       let b : Nat := 1;
       let cls : Nat := 3;
       let a : Nat := 0;
       let br : Nat := 1;
       let w : Nat := 4;
       let x : Batch := b1;
       let q := aStack a;
         let k := s.stack q;
         let r := opReq (.read w) b cls a br;
         b ≠ 0 ∧ s.batch b = some x ∧ blockOk a (opSize (.read w) a) = true ∧ s.inRegion b a (opSize (.read w) a) = true ∧ s.stackOffline q = false ∧ k.frozen = false ∧ k.retraining = false ∧ k.reqs = [] ∧ k.room r = true) ∧
  (let s : State := { s0 with dram := { s0.dram with stackTab := [(0, { Stack.zero with frozen := true })] } };
       let b : Nat := 0;
       let cls : Nat := 0;
       let a : Nat := 0;
       let br : Nat := 0;
       let op : DramOp := .read 1;
       let q := aStack a;
         let r := opReq op b cls a br;
         ((b = 0 ∨ (s.batch b).isSome)) ∧ blockOk a (opSize op a) = true ∧ s.inRegion b a (opSize op a) = true ∧ ((s.stackOffline q = true ∨ (s.stack q).frozen = true ∨ (s.stack q).retraining = true ∨ ((s.stack q).asks r).choose = none))) ∧
  (let s : State := s0;
       let b : Nat := 1;
       let a : Nat := 100;
       let op : DramOp := .read 3;
       ((blockOk a (opSize op a) = false ∨ (b = 0 ∧ s.inRegion 0 a (opSize op a) = false) ∨ (b ≠ 0 ∧ s.batch b = none)))) ∧
  (let s : State := { s0 with batches := [(1, { b1 with state := 3 })] };
       let b : Nat := 1;
       let a : Nat := 2097152;
       let op : DramOp := .read 1;
       let x : Batch := { b1 with state := 3 };
       b ≠ 0 ∧ s.batch b = some x ∧ x.active = true ∧ blockOk a (opSize op a) = true ∧ s.inRegion b a (opSize op a) = false) :=
  by refine ⟨?_, ?_, ?_, ?_, ?_⟩ <;> decide +kernel

/-- States and operands that meet the hypotheses of MemoryTrafficAndUpkeep_2, clause by clause. -/
theorem witness_MemoryTrafficAndUpkeep_2 :
  (let k : Stack := { Stack.zero with reqs := [⟨⟨2, 3, 0, 1, 0, false⟩, []⟩, ⟨⟨1, 3, 32, 1, 0, false⟩, []⟩], vf := [(1, 5), (2, 5)] };
       let r : Req := ⟨⟨2, 3, 0, 1, 0, false⟩, []⟩;
       let m : Req := ⟨⟨1, 3, 32, 1, 0, false⟩, []⟩;
       k.reqs = [r, m] ∧ k.room r = true ∧ k.room m = true ∧ (
         let last := k.turn.get 0 (4 * m.tr.b + m.tr.cls);
         (((r.tr.b ≠ 0 ∧ m.tr.b = 0) ∨ (r.tr.b ≠ 0 ∧ m.tr.b = r.tr.b ∧ m.tr.cls < r.tr.cls) ∨ (r.tr.b ≠ 0 ∧ m.tr.b = r.tr.b ∧ m.tr.cls = r.tr.cls ∧ last ≤ m.tr.branch ∧ (r.tr.branch < last ∨ m.tr.branch < r.tr.branch)) ∨ (r.tr.b ≠ 0 ∧ m.tr.b ≠ 0 ∧ m.tr.b ≠ r.tr.b ∧ (vfBefore (k.vf.get 0 m.tr.b) (k.vf.get 0 r.tr.b) = true ∨ (k.vf.get 0 m.tr.b = k.vf.get 0 r.tr.b ∧ m.tr.b < r.tr.b))))))) ∧
  (let s : State := { s0 with dram := { s0.dram with stackTab := [(0, { Stack.zero with flight := [⟨0, 0, 4096, 1, 0, false⟩, ⟨0, 0, 32, 1, 0, false⟩] })] } };
       let a : Nat := 32;
       let x : Trans := ((takeTrans 32 (s.stack 0).flight).getD (⟨0, 0, 0, 1, 0, false⟩, [])).1;
       let left : List Trans := ((takeTrans 32 (s.stack 0).flight).getD (⟨0, 0, 0, 1, 0, false⟩, [])).2;
       let q := aStack a;
         let k := s.stack q;
         takeTrans a k.flight = some (x, left) ∧ k.frozen = false ∧ ((k.inOrder a = false ∨ k.flight.find? (fun y => bankKey y.addr == bankKey a) = some x))) ∧
  (let s : State := s0;
       let a : Nat := 64;
       takeTrans a (s.stack (aStack a)).flight = none) ∧
  (let s : State := { s0 with dram := { s0.dram with stackTab := [(0, { Stack.zero with retry := [(0, [(3, ⟨0, 0, 64, 1, 0, false⟩), (4, ⟨0, 0, 96, 1, 0, false⟩)])] })] } };
       let q : Nat := 0;
       let pc : Nat := 0;
       let n : Nat := 3;
       let m : Nat := 3;
       let x : Trans := ⟨0, 0, 64, 1, 0, false⟩;
       let k := s.stack q;
         s.injected (16 * (0x480 + q) + 2) = 0 ∧ k.frozen = false ∧ s.stackOffline q = false ∧ (k.retry.get [] pc).find? (fun p => p.1 == n) = some (m, x)) ∧
  (let s : State := s0;
       let q : Nat := 0;
       let pc : Nat := 0;
       let n : Nat := 3;
       ((s.stack q).retry.get [] pc).find? (fun p => p.1 == n) = none) :=
  by refine ⟨?_, ?_, ?_, ?_, ?_⟩ <;> decide +kernel

/-- States and operands that meet the hypotheses of MemoryTrafficAndUpkeep_3, clause by clause. -/
theorem witness_MemoryTrafficAndUpkeep_3 :
  (let s : State := s0;
       let a : Nat := 64;
       let q := aStack a;
         s.stackOffline q = false ∧ (s.stack q).frozen = false ∧ (s.stack q).retraining = false ∧ aPc a ∉ (s.stack q).pcTrain) ∧
  (let s : State := { s0 with dram := { s0.dram with stackTab := [(0, { Stack.zero with retraining := true })] } };
       let q : Nat := 0;
       (s.stack q).retraining = true ∧ (s.stack q).reqs = [] ∧ (s.stack q).held = []) ∧
  (let s : State := { s0 with dram := { s0.dram with stackTab := [(0, { Stack.zero with retraining := true, tempTrain := true, held := [⟨1, 0, true, [5], 0⟩] })] } };
       let q : Nat := 0;
       let h : HostAcc := ⟨1, 0, true, [5], 0⟩;
       let k := s.stack q;
         k.retraining = true ∧ k.reqs = [] ∧ k.held = [h]) ∧
  (let s : State := { s0 with dram := { s0.dram with stackTab := [(0, { Stack.zero with pcTrain := [3] })] } };
       let q : Nat := 0;
       let k := s.stack q;
         k.retraining = false ∧ k.reqs = []) ∧
  (let s : State := { s0 with dram := { s0.dram with mem := [(5, 1), (17179869184, 2)], poison := [3, 536870912], stackTab := [(0, { Stack.zero with offline := true })] } };
       let q : Nat := 0;
       q < 4 ∧ (s.stack q).offline = true ∧ (s.stack q).reqs = [] ∧ s.powered (39 + q) = true ∧ s.powered (43 + q) = true) :=
  by refine ⟨?_, ?_, ?_, ?_, ?_⟩ <;> decide +kernel

/-- States and operands that meet the hypotheses of MemoryTrafficAndUpkeep_4, clause by clause. -/
theorem witness_MemoryTrafficAndUpkeep_4 :
  (let s : State := s0;
       let e : StackEnd := ⟨3, []⟩;
       (s.stack e.stack).offline = false) :=
  by decide +kernel

/-- States and operands that meet the hypotheses of MemoryStaysCanonical, clause by clause. -/
theorem witness_MemoryStaysCanonical :
  (let s : State := { s0 with pending := [.fillWrite 1 0 0] };
       let t : State := outS (step s);
       (Memory.wf s.dram.mem = true) ∧ (step s = .next t)) :=
  ⟨by decide +kernel, rfl⟩

end Sys2Proof.Tests
end

section
/-! PROOFS. PERIOD_LOAD and the legality of period records (02_time_arithmetic.md R36, 05_timing_sets.md R149, 11_commands.md R321): the
two forms of the test of R36, the answer of PERIOD_LOAD for each of its forms, and what follows for an illegal record. -/

namespace Sys2Proof

/-! ## Legal records (R36) -/

/-- The last condition of R36 in its two forms: I + N/D ≤ 2^40 − 1 over the denominator D, and the comparison of I and N alone. -/
theorem Per.num_le_iff (p : Per) (hn : p.n < p.d) :
    p.num ≤ (2 ^ 40 - 1) * p.d ↔ p.i < 2 ^ 40 - 1 ∨ (p.i = 2 ^ 40 - 1 ∧ p.n = 0) := by
  unfold Per.num
  rcases Nat.lt_trichotomy p.i (2 ^ 40 - 1) with hi | hi | hi
  · have hle : (p.i + 1) * p.d ≤ (2 ^ 40 - 1) * p.d := Nat.mul_le_mul_right _ hi
    rw [Nat.succ_mul] at hle
    omega
  · rw [hi]
    omega
  · have hle : (2 ^ 40 - 1 + 1) * p.d ≤ p.i * p.d := Nat.mul_le_mul_right _ hi
    rw [Nat.succ_mul] at hle
    omega

theorem Per.legal_iff (p : Per) :
    p.legal = true ↔ (1 ≤ p.d ∧ p.d ≤ 65535) ∧ p.n < p.d ∧ 500000 ≤ p.i ∧ p.num ≤ (2 ^ 40 - 1) * p.d := by
  have hlast := p.num_le_iff
  unfold Per.legal
  simp only [Bool.and_eq_true, Bool.or_eq_true, decide_eq_true_eq, beq_iff_eq]
  omega

end Sys2Proof

namespace Sys2Proof.Machine
open Sys2Proof

/-! ## Checks in order (R290) -/

theorem checked_of_firstErr {cs : List (Bool × Nat)} {st : Nat} (s : State) (r : Res) (h : firstErr cs = some st) :
    checked s cs r = Res.err s st := by
  simp [checked, h]

/-- A list of checks that holds a failing one answers an error, if only that of an earlier check. -/
theorem exists_firstErr_of_mem {cs : List (Bool × Nat)} {st : Nat} (h : (true, st) ∈ cs) : ∃ st', firstErr cs = some st' := by
  induction cs with
  | nil => cases h
  | cons c cs ih =>
    match c with
    | (true, st') => exact ⟨st', rfl⟩
    | (false, _) => exact ih (by simpa using h)

/-! ## PERIOD_LOAD -/

theorem State.batch_at (s : State) (t b : Nat) : (s.at_ t).batch b = s.batch b := by
  simp [State.batch]

theorem exec_periodLoad (h : Hdr) (i flags : Nat) (p : Per) (s : State) :
    exec (.periodLoad h i flags p) s = .next (cmdPeriodLoad h i flags p s) := rfl

section
variable {s : State} {h : Hdr} {x : Batch} (i : Nat) (p : Per)
variable (ha : s.admits h 0x0116 [] = true) (hb : s.batch (cmdBatch h) = some x)
include ha hb

/-- Without OVERRIDE: the checks of R321 on the entry, then the entry. -/
theorem exec_periodLoad_entry (hi : i ≤ 63) :
    exec (.periodLoad h i 0 p) s = .next (State.settle h 0x0116 (checked (s.at_ h.t)
      ([(x.active || x.holdsItem 2 i, eBusy), (!p.legal, eRange)] ++ (s.at_ h.t).periodChecks (cmdBatch h) x i p)
      (Res.ok ((s.at_ h.t).setBatch (cmdBatch h) { x with periods := put x.periods i p }) [] [])) none) := by
  rw [exec_periodLoad, cmdPeriodLoad, State.runCmd_admits _ _ _ _ _ _ ha]
  simp [State.batch_at, hb, bit, Nat.not_lt.2 hi]

/-- With OVERRIDE: the checks of R149 on the override, then the override. -/
theorem exec_periodLoad_override (hi : i ≤ 63 ∨ i = 255) :
    exec (.periodLoad h i 1 p) s = .next (State.settle h 0x0116 (checked (s.at_ h.t)
      ((s.at_ h.t).overrideChecks (cmdBatch h) x ⟨p, i⟩) (setOverride (s.at_ h.t) (cmdBatch h) x (some ⟨p, i⟩))) none) := by
  have hidx : ¬(63 < i ∧ i ≠ 255) := by omega
  have ov : bit 1 0 = true := rfl
  have rm : bit 1 1 = false := rfl
  rw [exec_periodLoad, cmdPeriodLoad, State.runCmd_admits _ _ _ _ _ _ ha]
  simp [State.batch_at, hb, ov, rm, hidx]

/-- An index past the table is out of range, except that OVERRIDE takes 255 for every entry. -/
theorem exec_periodLoad_index (flags : Nat) (hi : 63 < i) (hidx : bit flags 0 = false ∨ i ≠ 255) :
    exec (.periodLoad h i flags p) s = .next (State.settle h 0x0116 (Res.err (s.at_ h.t) eRange) none) := by
  rw [exec_periodLoad, cmdPeriodLoad, State.runCmd_admits _ _ _ _ _ _ ha]
  simp [State.batch_at, hb, hi, hidx]

variable {p} (hp : p.legal = false)
include hp

theorem exec_periodLoad_entry_illegal (hi : i ≤ 63) (hact : x.active = false) (hitem : x.holdsItem 2 i = false) :
    exec (.periodLoad h i 0 p) s = .next (State.settle h 0x0116 (Res.err (s.at_ h.t) eRange) none) := by
  rw [exec_periodLoad_entry i p ha hb hi, checked_of_firstErr]
  simp [hact, hitem, hp, firstErr]

theorem exec_periodLoad_override_illegal :
    exec (.periodLoad h i 1 p) s = .next (State.settle h 0x0116 (Res.err (s.at_ h.t) eRange) none) := by
  by_cases hi : i ≤ 63 ∨ i = 255
  · rw [exec_periodLoad_override i p ha hb hi, checked_of_firstErr]
    simp [State.overrideChecks, hp, firstErr]
  · exact exec_periodLoad_index i p ha hb 1 (by omega) (.inr (by omega))

/-- Without OVERRIDE and REMOVE an illegal record always meets an error, be it that of an earlier check. -/
theorem exec_periodLoad_entry_illegal_errs :
    ∃ st : Nat, exec (.periodLoad h i 0 p) s = .next (State.settle h 0x0116 (Res.err (s.at_ h.t) st) none) := by
  by_cases hi : i ≤ 63
  · obtain ⟨st, hst⟩ := exists_firstErr_of_mem (st := eRange)
      (cs := [(x.active || x.holdsItem 2 i, eBusy), (!p.legal, eRange)] ++ (s.at_ h.t).periodChecks (cmdBatch h) x i p) (by simp [hp])
    exact ⟨st, by rw [exec_periodLoad_entry i p ha hb hi, checked_of_firstErr _ _ hst]⟩
  · exact ⟨eRange, exec_periodLoad_index i p ha hb 0 (by omega) (.inl rfl)⟩

end

/-- Settles O25: the two forms of R36's last condition agree, and PERIOD_LOAD of an illegal record stops at one of its checks. -/
theorem periodRecords : Obligations.PeriodRecords := by
  unfold Obligations.PeriodRecords
  refine ⟨Per.legal_iff, Per.num_le_iff, fun s h i p x ha hb hp => ⟨?entry, ?override, ?either⟩⟩
  case entry => exact exec_periodLoad_entry_illegal i ha hb hp
  case override => exact exec_periodLoad_override_illegal i ha hb hp
  case either =>
    intro flags hf
    obtain rfl | rfl : flags = 0 ∨ flags = 1 := by omega
    · exact exec_periodLoad_entry_illegal_errs i ha hb hp
    · exact ⟨eRange, exec_periodLoad_override_illegal i ha hb hp⟩

end Sys2Proof.Machine
end

section
/-! PROOFS. The user flags (04_sequencer.md R101): what an instruction that the program counter holds does to its batch, FLAG's bits, START's
cleared flags, and the FLAGS field in the RESULT of STATUS (11_commands.md R311, R313). -/

namespace Sys2Proof

/-! ## Little-endian fields (R5) -/

@[simp] theorem length_le (n v : Nat) : (le n v).length = n := by
  induction n generalizing v with
  | zero => rfl
  | succ n ih => simp [le, ih]

@[simp] theorem unle_le (n v : Nat) : unle (le n v) = v % 256 ^ n := by
  induction n generalizing v with
  | zero => simp [le, unle, Nat.mod_one]
  | succ n ih => rw [le, unle, ih, BitVec.toNat_ofNat, Nat.pow_succ' (m := 256), Nat.mod_mul (a := 256)]

/-- The first field of a record. -/
theorem fld_le_append_zero (n v : Nat) (bs : List Byte) : fld (le n v ++ bs) 0 n = v % 256 ^ n := by
  simp [fld]

/-- A field past the first one of a record. -/
theorem fld_le_append_of_le {k off : Nat} (v n : Nat) (bs : List Byte) (h : k ≤ off) :
    fld (le k v ++ bs) off n = fld bs (off - k) n := by
  have hdrop : (le k v).drop off = [] := List.drop_eq_nil_of_le (by simpa using h)
  simp [fld, List.drop_append, hdrop]

end Sys2Proof

namespace Sys2Proof.Machine
open Sys2Proof

/-! ## A batch written twice -/

theorem put_put {α : Type} (m : List (Nat × α)) (k : Nat) (x y : α) : put (put m k x) k y = put m k y := by
  unfold put
  induction m with
  | nil => simp [Tab.ins]
  | cons p m ih =>
    obtain ⟨j, v⟩ := p
    rcases Nat.lt_trichotomy k j with h | rfl | h
    · simp [Tab.ins, h]
    · simp [Tab.ins]
    · simp [Tab.ins, Nat.not_lt.2 (Nat.le_of_lt h), Nat.ne_of_lt h, ih]

@[simp] theorem State.setBatch_setBatch (s : State) (b : Nat) (x y : Batch) : (s.setBatch b x).setBatch b y = s.setBatch b y := by
  simp [State.setBatch, put_put]

/-! ## An instruction that the program counter holds -/

/-- Sequencers that execute wait for nothing. -/
theorem Batch.wait_of_executes {x : Batch} (h : x.executes = true) : x.seq.wait = none := by
  simp only [Batch.executes, Bool.and_eq_true, Option.isNone_iff_eq_none] at h
  obtain ⟨⟨⟨⟨_, hwait⟩, _⟩, _⟩, _⟩ := h
  exact hwait

theorem Batch.resumed_of_executes {x : Batch} (h : x.executes = true) : x.resumed = x := by
  simp [Batch.resumed, Batch.wait_of_executes h]

section
variable {s : State} {b : Nat} {x : Batch} {i : PInstr}
variable (hb : s.batch b = some x) (he : x.executes = true) (hi : x.prog[x.seq.pc]? = some i)
include hb he hi

theorem State.execute_of_executes (f : Batch → State → State) : s.execute b i f = f x (s.setBatch b x) := by
  simp [State.execute, hb, Batch.resumed_of_executes he, he, hi]

theorem State.seqStep_of_executes (f : Seq → Seq) : s.seqStep b i f = s.setBatch b { x with seq := (f x.seq).next } := by
  simp [State.seqStep, State.execute_of_executes hb he hi]

end

/-! ## FLAG -/

/-- The user flags after FLAG: the bits of CLRMASK cleared, then those of SETMASK set. -/
def flagsAfter (flags setm clrm : Nat) : Nat := (flags &&& (65535 - clrm % 65536)) ||| setm

theorem exec_flag (b setm clrm : Nat) (s : State) :
    exec (.flag b setm clrm) s = .next (s.seqStep b (.flag setm clrm) (fun q => { q with flags := flagsAfter q.flags setm clrm })) := rfl

theorem exec_flag_of_executes {s : State} {b setm clrm : Nat} {x : Batch} (hb : s.batch b = some x) (he : x.executes = true)
    (hi : x.prog[x.seq.pc]? = some (.flag setm clrm)) :
    exec (.flag b setm clrm) s = .next (s.setBatch b
      { x with seq := { x.seq with flags := flagsAfter x.seq.flags setm clrm, pc := x.seq.pc + 1 } }) := by
  rw [exec_flag, State.seqStep_of_executes hb he hi, Seq.next]

/-- The bits that a mask of 16 bits leaves are those that it does not hold. -/
theorem testBit_clearMask {i : Nat} (clrm : Nat) (h : i < 16) : (65535 - clrm % 65536).testBit i = !clrm.testBit i := by
  have hm : 65535 - clrm % 65536 = 2 ^ 16 - (clrm % 2 ^ 16 + 1) := by omega
  rw [hm, Nat.testBit_two_pow_sub_succ (Nat.mod_lt _ (by decide)), Nat.testBit_mod_two_pow]
  simp [h]

/-- SETMASK wins over CLRMASK. -/
theorem testBit_flagsAfter {i : Nat} (flags setm clrm : Nat) (h : i < 16) :
    (flagsAfter flags setm clrm).testBit i = (setm.testBit i || (flags.testBit i && !clrm.testBit i)) := by
  rw [flagsAfter, Nat.testBit_or, Nat.testBit_and, testBit_clearMask clrm h, Bool.or_comm]

theorem flagsAfter_lt {flags setm : Nat} (clrm : Nat) (hf : flags < 65536) (hs : setm < 65536) : flagsAfter flags setm clrm < 65536 :=
  Nat.or_lt_two_pow (n := 16) (Nat.lt_of_le_of_lt Nat.and_le_left hf) hs

/-! ## START -/

theorem firstErr_eq_none {cs : List (Bool × Nat)} (h : ∀ c ∈ cs, c.1 = false) : firstErr cs = none := by
  induction cs with
  | nil => rfl
  | cons c cs ih =>
    obtain ⟨hc, hcs⟩ := List.forall_mem_cons.1 h
    match c, hc with
    | (false, _), _ => exact ih hcs

theorem checked_of_pass {cs : List (Bool × Nat)} (s : State) (r : Res) (h : ∀ c ∈ cs, c.1 = false) : checked s cs r = r := by
  simp [checked, firstErr_eq_none h]

theorem exec_start (h : Hdr) (p : StartP) (s : State) : exec (.start h p) s = .next (cmdStart h p s) := rfl

/-- START past its checks (R311): accepted, and its effect at its grid time. -/
theorem exec_start_of_pass {s : State} {h : Hdr} {p : StartP} {x : Batch} (ha : s.admits h 0x0106 [] = true)
    (hb : s.batch (cmdBatch h) = some x) (hc : ∀ c ∈ (s.at_ h.t).startChecks (cmdBatch h) x p, c.1 = false) :
    exec (.start h p) s =
      .next (State.settle h 0x0106 (Res.acc ((s.at_ h.t).startNow (cmdBatch h) x p (some (h.tap, h.seq)) false)) none) := by
  rw [exec_start, cmdStart, State.runCmd_admits _ _ _ _ _ _ ha]
  simp [State.batch_at, hb, checked_of_pass _ _ hc]

/-- Neither the lines made safe nor the disarmed epoch touch the batch that START has set. -/
theorem State.startNow_batch (s : State) (b : Nat) (x : Batch) (p : StartP) (key : Option (Nat × Nat)) (byFlow : Bool) :
    (s.startNow b x p key byFlow).batch b = some (x.started (p.t.time.getD 0) p key byFlow) :=
  State.setBatch_batch s b _

@[simp] theorem Batch.started_flags (x : Batch) (t : Nat) (p : StartP) (key : Option (Nat × Nat)) (byFlow : Bool) :
    (x.started t p key byFlow).seq.flags = 0 := rfl

/-! ## STATUS -/

theorem exec_status (h : Hdr) (d : DRef) (s : State) : exec (.status h d) s = .next (cmdStatus h d s) := rfl

/-- STATUS with no data block, or with one that its data fits in (R313). -/
theorem exec_status_of_fits {s : State} {h : Hdr} {d : DRef} {x : Batch} (ha : s.admits h 0x0108 [(d, false)] = true)
    (hb : s.batch (cmdBatch h) = some x) (hd : d.len = 0 ∨ (statusData x).length ≤ d.len) :
    exec (.status h d) s = .next (State.settle h 0x0108 (Res.ok (s.at_ h.t) ((s.at_ h.t).statusResult (cmdBatch h) x)
      (if d.len == 0 then [] else statusData x)) (some d)) := by
  have hfits : ¬ d.len < (if d.len == 0 then [] else statusData x).length := by
    rcases hd with hd | hd
    · simp [hd]
    · split
      · simp
      · omega
  rw [exec_status, cmdStatus, State.runCmd_admits _ _ _ _ _ _ ha]
  simp only [State.batch_at, hb]
  exact congrArg (fun r => Host.Outcome.next (State.settle h 0x0108 r (some d))) (checked_of_pass _ _ (by simpa using hfits))

/-- FLAGS stands at byte 4 of the RESULT of STATUS (R313). -/
theorem State.fld_statusResult_flags (s : State) (b : Nat) (x : Batch) : fld (s.statusResult b x) 4 2 = x.seq.flags % 65536 := by
  simp [State.statusResult, fld_le_append_of_le, fld_le_append_zero]

/-- Settles O37: FLAG's masks bit by bit, START's new sequencers, and the FLAGS field of STATUS. -/
theorem userFlags : Obligations.UserFlags := by
  unfold Obligations.UserFlags
  refine ⟨?flag, ?start, ?status⟩
  case flag =>
    intro s b setm clrm x hb he hi hs _ hf
    exact ⟨_, exec_flag_of_executes hb he hi, fun i h => testBit_flagsAfter x.seq.flags setm clrm h, flagsAfter_lt clrm hf hs, rfl, rfl⟩
  case start =>
    intro s h p x ha hb hc
    exact ⟨_, _, exec_start_of_pass ha hb hc, State.startNow_batch _ _ _ _ _ _, Batch.started_flags _ _ _ _ _⟩
  case status =>
    intro s h d x ha hb hf hd
    exact ⟨_, _, exec_status_of_fits ha hb hd, by rw [State.fld_statusResult_flags, Nat.mod_eq_of_lt hf]⟩

end Sys2Proof.Machine
end

section
/-! PROOFS. The doorbells and CPL_HEAD (10_taps.md R265, R287): what counting an event does to a counter, the fate of a doorbell of a
function that exists (held before READY, accepted, or refused), and that of a CPL_HEAD write. -/

namespace Sys2Proof.Tab
open Sys2Proof

/-- A map over the values that keeps the value of an unlisted key maps every read. -/
theorem get_map {α : Type} {d : α} {f : α → α} (hf : f d = d) (m : Tab α) (a : Nat) :
    get d (m.map (fun p => (p.1, f p.2))) a = f (get d m a) := by
  induction m with
  | nil => exact hf.symm
  | cons p m ih =>
    obtain ⟨k, v⟩ := p
    by_cases h : k = a
    · simp [get, h]
    · simp [get, h, ih]

end Sys2Proof.Tab

namespace Sys2Proof.Machine
open Sys2Proof

/-! ## What an event does to a counter (R489) -/

/-- A counter after n events of a source. -/
def Ctr.counted (src n : Nat) (e : Ev) (c : Ctr) : Ctr := if c.source == src && c.sees e then c.add n else c

/-- A counter at reset selects source 0, so no event of another source reaches it. -/
theorem Ctr.counted_zero {src : Nat} (hsrc : src ≠ 0) (n : Nat) (e : Ev) : Ctr.counted src n e Ctr.zero = Ctr.zero := by
  simp [Ctr.counted, Ctr.zero, hsrc.symm]

theorem State.count_ctr (s : State) {src : Nat} (hsrc : src ≠ 0) (n : Nat) (e : Ev) (k : Nat) :
    (s.count src n e).ctr k = (s.ctr k).counted src n e := by
  have hmap : (s.count src n e).ctrs = s.ctrs.map (fun p => (p.1, p.2.counted src n e)) := by
    unfold State.count Ctr.counted
    refine List.map_congr_left fun p _ => ?_
    split <;> rfl
  rw [State.ctr, hmap, Tab.get_map (Ctr.counted_zero hsrc n e), State.ctr]

/-! ## Taps under signals and counts -/

@[simp] theorem State.count_tap (s : State) (src n : Nat) (e : Ev) (t : Nat) : (s.count src n e).tap t = s.tap t := rfl

@[simp] theorem State.signal_tap (s : State) (n t : Nat) : (s.signal n).tap t = s.tap t := by
  obtain ⟨_, _, h⟩ := s.signal_frame n
  rw [h]
  rfl

/-! ## The fate of a write (R265, R287) -/

section
variable {s : State} {tap : Nat} (v : Nat)

theorem exec_tapDoorbellWrite_absent (hup : s.pcie.up tap = false) : exec (.tapDoorbellWrite tap v) s = .next s :=
  congrArg Host.Outcome.next (by simp [doorbell, hup])

theorem exec_tapDoorbellWrite_held (hup : s.pcie.up tap = true) (hready : s.boot.ready = false) :
    exec (.tapDoorbellWrite tap v) s = .next (s.setTap tap { s.tap tap with heldDb := (s.tap tap).heldDb ++ [v] }) :=
  congrArg Host.Outcome.next (by simp [doorbell, hup, hready])

theorem exec_tapDoorbellWrite_ready (hup : s.pcie.up tap = true) (hready : s.boot.ready = true) :
    exec (.tapDoorbellWrite tap v) s = .next (s.ringDoorbell tap v) :=
  congrArg Host.Outcome.next (by simp [doorbell, hup, hready])

theorem exec_cplHeadWrite_absent (hup : s.pcie.up tap = false) : exec (.cplHeadWrite tap v) s = .next s :=
  congrArg Host.Outcome.next (by simp [cplHeadWrite, hup])

theorem exec_cplHeadWrite_accepted {v : Nat} (hup : s.pcie.up tap = true)
    (hfit : sub32 v (s.tap tap).cplHead ≤ sub32 (s.tap tap).cplTail (s.tap tap).cplHead) :
    exec (.cplHeadWrite tap v) s = .next (s.setTap tap { s.tap tap with cplHead := v % 4294967296 }) :=
  congrArg Host.Outcome.next (by simp [cplHeadWrite, hup, hfit, two32])

theorem exec_cplHeadWrite_refused {v : Nat} (hup : s.pcie.up tap = true)
    (hover : ¬ sub32 v (s.tap tap).cplHead ≤ sub32 (s.tap tap).cplTail (s.tap tap).cplHead) :
    exec (.cplHeadWrite tap v) s = .next (s.setTap tap { s.tap tap with cplErr := true }) :=
  congrArg Host.Outcome.next (by simp [cplHeadWrite, hup, hover])

theorem State.ringDoorbell_accepted {v : Nat} (hmode : (s.tap tap).netMode = false)
    (hfit : sub32 v (s.tap tap).cmdTail ≤ 64 - sub32 (s.tap tap).cmdTail (s.tap tap).cmdHead) :
    s.ringDoorbell tap v = (s.setTap tap { s.tap tap with cmdTail := v % 4294967296 }).signal (0x800 + tap) := by
  simp [State.ringDoorbell, hmode, hfit, two32]

theorem State.ringDoorbell_refused {v : Nat} (hmode : (s.tap tap).netMode = false)
    (hover : 64 - sub32 (s.tap tap).cmdTail (s.tap tap).cmdHead < sub32 v (s.tap tap).cmdTail) :
    s.ringDoorbell tap v = (s.setTap tap { s.tap tap with dbErr := true }).count 0x0500 1 (Ev.ofT tap) := by
  simp [State.ringDoorbell, hmode, Nat.not_le.2 hover]

end

/-- Settles O50: each write is accepted, held, refused or without effect by the lemma of its case; the rest of the state stays by the
frames of setTap, signal and count. -/
theorem doorbells : Obligations.Doorbells := by
  unfold Obligations.Doorbells
  refine ⟨?accepted, ?held, ?refused, ?absent, ?cplHead⟩
  case accepted =>
    intro s tap v hup hready hmode hfit
    refine ⟨_, exec_tapDoorbellWrite_ready v hup hready, ?_⟩
    rw [State.ringDoorbell_accepted hmode hfit]
    refine ⟨by simp, fun k hk => by simp [State.setTap_tap_other s _ hk], ?_⟩
    obtain ⟨_, _, h⟩ := (s.setTap tap { s.tap tap with cmdTail := v % 4294967296 }).signal_frame (0x800 + tap)
    rw [h]
    rfl
  case held =>
    intro s tap v hup hready
    exact ⟨_, exec_tapDoorbellWrite_held v hup hready, State.setTap_tap _ _ _, fun _ hk => State.setTap_tap_other _ _ hk, rfl⟩
  case refused =>
    intro s tap v hup hready hmode hover
    refine ⟨_, exec_tapDoorbellWrite_ready v hup hready, ?_⟩
    rw [State.ringDoorbell_refused hmode hover]
    have hctr : ∀ n, ((s.setTap tap { s.tap tap with dbErr := true }).count 0x0500 1 (Ev.ofT tap)).ctr n =
        (s.ctr n).counted 0x0500 1 (Ev.ofT tap) := State.count_ctr _ (by decide) _ _
    refine ⟨by simp, fun k hk => by simp [State.setTap_tap_other s _ hk], fun n hn => ?_, fun n hn => ?_, rfl⟩
    · exact (hctr n).trans (if_pos hn)
    · exact (hctr n).trans (if_neg (Bool.eq_false_iff.1 hn))
  case absent =>
    intro s tap v hup
    exact ⟨exec_tapDoorbellWrite_absent v hup, exec_cplHeadWrite_absent v hup⟩
  case cplHead =>
    intro s tap w hup ok
    by_cases hok : ok
    · exact ⟨_, exec_cplHeadWrite_accepted hup hok, fun _ => State.setTap_tap _ _ _, fun hbad => absurd hok hbad,
        fun _ hk => State.setTap_tap_other _ _ hk, rfl⟩
    · exact ⟨_, exec_cplHeadWrite_refused hup hok, fun h => absurd h hok, fun _ => State.setTap_tap _ _ _,
        fun _ hk => State.setTap_tap_other _ _ hk, rfl⟩

end Sys2Proof.Machine
end
